-- ==== Sys2Proof/Word.lean ====
section
/-! DEFINITION. The word types of the PRS-6160: registers of 64 bits (R11), bytes of memory, 32-bit instruction words. -/

namespace Sys2Proof

/-- A register, a descriptor word, a scalar register of a Lintel core: 64 bits (R11, R144). -/
abbrev Word := BitVec 64

/-- One byte of an addressed memory. -/
abbrev Byte := BitVec 8

/-- One word of an instruction store (R145). -/
abbrev InsnWord := BitVec 32

end Sys2Proof
end

