-- ==== Sys2Proof/Syntax.lean ====
section
/-! DEFINITION. The commands of the PRS-6160: identifiers of its objects, and one constructor of Instr per row of opcode_table.json. -/

namespace Sys2Proof

/-- A pane, 0 to 383 (R28). -/
abbrev PaneId := Fin 384
/-- A partition: the number of partition n is held as n − 1 (1 to 32). -/
abbrev PartId := Fin 32
/-- An owner of a transaction, counter or trace window: 0 the provider, 1 to 32 a partition (R224). -/
abbrev OwnerId := Fin 33
/-- A function of a host port: 0 the PF, n = 1 to 32 VF n (R450). -/
abbrev FnId := Fin 33
/-- A host port or a CXL port of two. -/
abbrev PortId := Fin 2
/-- A route of the image, 1 to 4,095; route 0 does not exist (R195). -/
abbrev RouteId := Fin 4096
/-- A bridge edge (R37). -/
abbrev EdgeId := Fin 14
/-- A Casement die, its Transom, Louvre and sampler. -/
abbrev DieId := Fin 8
/-- An HBM4 stack. -/
abbrev StackId := Fin 16
/-- An HBM channel (R371). -/
abbrev ChanId := Fin 512
/-- A Meridian link. -/
abbrev LinkId := Fin 10
/-- A conduit (R200). -/
abbrev ConduitId := Fin 64
/-- A hatch of a partition (R453). -/
abbrev HatchId := Fin 4
/-- A pipeline slot (R326). -/
abbrev PipeId := Fin 32
/-- A shared region (R501). -/
abbrev RegionId := Fin 64
/-- A slice group (R495). -/
abbrev GroupId := Fin 32
/-- A global Gazetteer entry (R331). -/
abbrev EntryId := Fin 16384
/-- A module number of a fabric. -/
abbrev ModuleId := BitVec 16

/-- The streams of a Lintel core (R143): 0 F, 1 B, 2 U. -/
inductive StreamId where
  | f | b | u
deriving DecidableEq, Repr

/-- The number of a stream (R156). -/
def StreamId.num : StreamId → Nat
  | .f => 0
  | .b => 1
  | .u => 2

/-- The engines behind the three queues of a pane (R162). -/
inductive EngineId where
  | matrix | vector | copy
deriving DecidableEq, Repr

/-- The KIND of the commands of an engine (R156). -/
def EngineId.num : EngineId → Nat
  | .matrix => 0
  | .vector => 1
  | .copy => 2

/-- The operations of class 0 (R149), as opcode and func name them. -/
inductive IntOp where
  | add | sub | mul | div | shl | shr | sar | and | or | xor | min | max | move
deriving DecidableEq, Repr

/-- The operations of class 1 (R149). The compares write 1 or 0. -/
inductive FpOp where
  | add | mul | fma | cmpEq | cmpLt | cmpLe | toInt | ofInt
deriving DecidableEq, Repr

/-- The operations of class 2 (R149). -/
inductive AddrOp where
  | add | setSpace | setRoute | setOffset | toScalar | ofScalar
deriving DecidableEq, Repr

/-- The operations of class 3 (R149): compares into p, logic on p. -/
inductive PredOp where
  | eq | ne | lt | le | ltu | leu | and | or | xor | not
deriving DecidableEq, Repr

/-- The failed data wires that a test of a direction finds (R38, R42). -/
abbrev WireTest := List (Fin 2048)

/-- What self-test finds (R637, R27, R38, R380, R391): lists of (die, slot), of channels, of channel and failed pins,
of global slices withheld, of directions with their failed wires, and rows mapped per die. -/
structure SelfTest where
  badSlots : List (DieId × Fin 52)
  absentChannels : List ChanId
  failedPins : List (ChanId × Fin 72)
  withheld : List (Fin 2048)
  bridges : List (EdgeId × Bool × WireTest)
  rowsMapped : List (DieId × Fin 2048)
deriving DecidableEq, Repr

/-- A CXL device that passed enumeration (R480): capacity in GiB, lanes. -/
structure CxlDevice where
  gib : Nat
  lanes : Nat
deriving DecidableEq, Repr

/-- The peer's side of the OPEN of a remote conduit (R275): whether it is the peer's own OPEN, which asks for an answer, or its answer; whether
it agrees; and what it exchanges: K, TEMP, NF_POLICY and CREDITS as its registers and its CONDUIT entry hold them, VOCAB, TAPS, and the bytes
its queue holds for records where it is the loss side. -/
structure PeerReply where
  ask : Bool
  accept : Bool
  k : Nat
  temp : Nat
  nf : Bool
  credits : Nat
  vocab : Nat
  taps : Nat
  capacity : Nat
deriving DecidableEq, Repr

/-- What every collective message names (R417, R436): the link it arrives on, its source module, its job, its axis, its
collective and the rank of its sender. -/
structure CollHead where
  link : LinkId
  src : ModuleId
  job : BitVec 16
  axis : Fin 5
  k : BitVec 32
  rank : Fin 4096
deriving DecidableEq, Repr

/-- The figures of one update entry in a RESULT (R440): index, FP32 sum of squares, non-finite elements. -/
structure CollFig where
  entry : BitVec 32
  gsq : BitVec 32
  nonfinite : BitVec 32
deriving DecidableEq, Repr

/-- What the symbol code finds in a line of HBM (R372): the pins it corrects, or none where the line cannot be corrected. -/
structure LineErr where
  frame : Fin 524288
  line : Fin 32768
  pins : List (Fin 72)
deriving DecidableEq, Repr

/-- A fault that the module detects and that has no row of its own (R562, R570, R571, R394). -/
inductive FaultEvent where
  /-- The Porter's watchdog, or an uncorrectable error in its memory: FATAL. -/
  | porter
  /-- An uncorrectable error in the module region of a Transom: FATAL. -/
  | moduleRegion (die : DieId)
  /-- A rail out of range: FATAL. -/
  | rail (n : Fin 255)
  /-- A word of Transom corrected (R394). -/
  | transomCorrected (die : DieId)
  /-- A word of Transom that cannot be corrected: global slice and line (R394). -/
  | transomLine (slice : Fin 2048) (line : Fin 65536)
  /-- A line of a pane store that cannot be corrected (R571). -/
  | paneLine (pane : PaneId) (line : Fin 65536)
deriving DecidableEq, Repr

/-- What a BULK message of a checkpoint or of a spare module carries (R418, R582, R590; the body is the model's, log entry 17). -/
inductive BulkBody where
  /-- Part of a slot of the sender, for the receiver to keep at CKP_RECV. -/
  | part (slot : Fin 2) (offset : BitVec 48) (bytes : List Byte)
  /-- A request for a slot that the receiver keeps for a module: the slot, or the one that holds a step. -/
  | fetch (owner : ModuleId) (byStep : Bool) (slot : Fin 2) (step : BitVec 32)
  /-- Part of the answer: offset and bytes in all, 0 where there is no such slot. -/
  | reply (offset total : BitVec 48) (bytes : List Byte)
deriving DecidableEq, Repr

/-- An entry as a pair mirrors it (R594): index at the sender, its fields, its profile, its prompt and the tokens sealed so far. -/
structure MirrorEnt where
  idx : EntryId
  tag : Word
  prio : Fin 8
  pin : Bool
  model : Fin 64
  modelVer : BitVec 16
  ovl : BitVec 16
  ovlVer : BitVec 16
  sprof : Byte
  deadline : Word
  profile : List Byte
  seed : Word
  gmask : Word
  maxNew : BitVec 32
  prompt : List (BitVec 32)
  tokens : List (BitVec 32)
deriving DecidableEq, Repr

/-- A change that a pair mirrors (R594): an admission, the tokens of a seal with their positions, the end of an entry. -/
inductive MirrorMsg where
  | admitted (e : MirrorEnt)
  | tokens (l : List (EntryId × BitVec 32 × BitVec 32))
  | ended (idx : EntryId)
deriving DecidableEq, Repr

/-- A message of a training hierarchy (R588): the link it arrives on, its source, its job, STEP and ARG. -/
structure HierHead where
  link : LinkId
  src : ModuleId
  job : BitVec 16
  step : BitVec 32
  arg : Word
deriving DecidableEq, Repr


/-- How a DMA read completion ends that is not clean (R459): it fails (completion timeout, Unsupported Request or Completer Abort), or it
carries EP for the units of 64 bytes from first, count of them, of the copy's source. -/
inductive DmaEnd where
  | fails
  | ep (first count : Nat)
deriving DecidableEq, Repr

/-- The codewords that a flit lies in (R415): whether it begins in the one in which the flit before it ended, and of each codeword that it enters the
symbols corrected, none where it could not be. -/
structure FlitCode where
  cont : Bool
  codewords : List (Option (BitVec 8))
deriving DecidableEq, Repr

/-- Where a conduit message comes from (R274, R417): its link and its source module. -/
structure MsgFrom where
  link : LinkId
  src : ModuleId
deriving DecidableEq, Repr

/-- How a fetch from host memory ends (R459): its data come, with runs of 64-byte units of them (first, count) that came with EP set, or it fails. -/
inductive FetchEnd where
  | good (ep : List (Nat × Nat))
  | fails
deriving DecidableEq, Repr

/-- An MCTP message (R477, R478): its medium (0 HP0, 1 HP1, 2 SMBus), the endpoint it comes from, its 7-bit SMBus source address, its
type, whether it is malformed, its bytes, and the time its answer takes, in ticks. -/
structure McMsg where
  medium : Fin 3
  eid : BitVec 8
  smb : BitVec 7
  kind : BitVec 7
  malformed : Bool
  bytes : List Byte
  takes : BitVec 31
deriving DecidableEq, Repr

/-- The commands of the block, one constructor per row of opcode_table.json. -/
inductive Instr where
  /-- REGISTER_WRITE (R14): A host write to a register field that has no row of its own sets, clears or ignores the field according to its access type. -/
  | registerWrite (port : PortId) (fn : FnId) (offset width data : Nat)
  /-- RC_READ (R17): A read of a register holding RC fields returns their values and clears those it wholly covers. -/
  | rcRead (port : PortId) (fn : FnId) (offset width : Nat)
  /-- OUT_OF_CONTRACT_ACCESS (R13): An access of the wrong width or alignment is discarded, or returns all ones, and is counted in BADACCESS. -/
  | outOfContractAccess (port : PortId) (fn : FnId) (offset width : Nat) (isWrite : Bool)
  /-- UNOCCUPIED_OFFSET_ACCESS (R50): An access to an offset that no register occupies reads 0, or is discarded, and is counted in UNMAPPED. -/
  | unoccupiedOffsetAccess (port : PortId) (fn : FnId) (offset : Nat) (isWrite : Bool)
  /-- INPUT_POWER_ON (R629): The 48 V input rises past the turn-on threshold and the on-module rails start with limited inrush. -/
  | inputPowerOn
  /-- RESET_N_ASSERT (R636): Asserting RESET_N clears all volatile state; during a power-fail flush it takes effect only after the flush commit. -/
  | resetNAssert
  /-- RESET_N_RELEASE (R637): Release of RESET_N latches the sampled pins, starts graticule time at 0 and begins the ROM phase of boot. -/
  | resetNRelease (chartSel : Fin 4) (feedId : Fin 16) (smbAddr : Fin 8)
  /-- WAIT_POWER_END (R632): Boot leaves WAIT_POWER once PWRFAIL_N has been high for 1 ms. -/
  | waitPowerEnd
  /-- WIPE_DONE (R621): The wipe of a pending or accepted life-cycle transition completes, the done bit is burned and the module resets itself. -/
  | wipeDone
  /-- SELFTEST_DONE (R637): Built-in self-test and repair finish, panes, rows, channels and wires are mapped, and the chart load begins. -/
  | selftestDone (found : SelfTest)
  /-- BOOT_CHART_LOAD_DONE (R212): The chart selected at reset finishes loading, or fails and the factory chart is loaded in its place. -/
  | bootChartLoadDone
  /-- HOST_LINK_UP (R638): A host port finishes PCIe link training and answers configuration requests, with retry status until READY. -/
  | hostLinkUp (port : PortId) (rate : Fin 8) (width : Fin 32)
  /-- CXL_ENUMERATION_DONE (R480): The Porter finishes enumerating a CXL port, programming its HDM decoder or leaving the port ABSENT. -/
  | cxlEnumerationDone (x : PortId) (found : Option CxlDevice) (failedStep : Fin 8)
  /-- TRANSFER_DELIVERY (R36): A transfer arrives over a handshake crossing, exactly once and in order, and a route-bound token is incremented. -/
  | transferDelivery (route : RouteId)
  /-- BRIDGE_CRC_MISMATCH (R42): A bridge transfer fails its CRC and the receiver asks the sender to resend it within 40 ns. -/
  | bridgeCrcMismatch (route : RouteId) (edge : EdgeId) (reverse : Bool)
  /-- BRIDGE_WIRE_TEST_DONE (R42): After four failed retries, the direction's wire test completes, spares are mapped and the transfer is resent. -/
  | bridgeWireTestDone (edge : EdgeId) (reverse : Bool) (found : WireTest)
  /-- SCALAR_INTEGER (R150): A class 0 instruction performs 64-bit wrapping integer arithmetic, logic or a move immediate. -/
  | scalarInteger (pane : PaneId) (st : StreamId) (op : IntOp) (imm : Bool)
  /-- SCALAR_FP32 (R150): A class 1 instruction performs a correctly rounded FP32 scalar operation, compare or conversion. -/
  | scalarFp32 (pane : PaneId) (st : StreamId) (op : FpOp)
  /-- ADDRESS (R149): A class 2 instruction adds to an address register, sets its SPACE, ROUTE or OFFSET, or moves between a and s. -/
  | address (pane : PaneId) (st : StreamId) (op : AddrOp) (imm : Bool)
  /-- PREDICATE (R149): A class 3 instruction compares into a predicate register or combines predicates. -/
  | predicate (pane : PaneId) (st : StreamId) (op : PredOp) (imm : Bool)
  /-- LOAD (R151): A load reads 8 bytes from the own pane store, raising LOAD_RANGE or MISALIGNED on a bad address. -/
  | load (pane : PaneId) (st : StreamId)
  /-- STORE (R151): A store writes 8 bytes to the own pane store, raising STORE_RANGE or MISALIGNED on a bad address. -/
  | store (pane : PaneId) (st : StreamId)
  /-- BRANCH (R149): A branch moves the program counter by a signed offset relative to itself. -/
  | branch (pane : PaneId) (st : StreamId)
  /-- CALL (R149): A call transfers control to a PC-relative target for later return. -/
  | call (pane : PaneId) (st : StreamId)
  /-- RETURN (R149): A return transfers control back to the instruction after the matching call. -/
  | ret (pane : PaneId) (st : StreamId)
  /-- CMD (R152): CMD reads a 64-byte descriptor from the pane store, sets its STREAM and SEAL and copies it into the queue of its KIND, waiting if the queue is full. -/
  | cmd (pane : PaneId) (st : StreamId)
  /-- WAITT (R152): WAITT decrements a token whose count is at least 1, or makes the stream wait, or faults it with DEP_FAILED on poison. -/
  | waitt (pane : PaneId) (st : StreamId)
  /-- SIGT (R152): SIGT increments a token. -/
  | sigt (pane : PaneId) (st : StreamId)
  /-- CLRT (R152): CLRT sets a token's count to 0 and clears its poison. -/
  | clrt (pane : PaneId) (st : StreamId)
  /-- FENCE (R152): FENCE waits until every command issued by the stream has completed or failed. -/
  | fence (pane : PaneId) (st : StreamId)
  /-- HALT (R155): HALT moves the stream from RUN to IDLE. -/
  | halt (pane : PaneId) (st : StreamId)
  /-- YIELD (R149): YIELD is a system instruction that gives up the stream's issue turn. -/
  | yield (pane : PaneId) (st : StreamId)
  /-- TRAP (R166): TRAP faults the stream with code TRAP and places its immediate in PNE_EXC.INFO. -/
  | trap (pane : PaneId) (st : StreamId)
  /-- READ_GRT (R182): READ_GRT copies the executing island's graticule time into a scalar register. -/
  | readGrt (pane : PaneId) (st : StreamId)
  /-- ILLEGAL_INSN (R166): A reserved opcode or func, or a fetch outside the stream's code, faults the stream with ILLEGAL_INSN. -/
  | illegalInsn (pane : PaneId) (st : StreamId)
  /-- STREAM_WAIT_CLEARED (R155): A stream in WAIT has its condition cleared (token, queue room or fence) and the waiting instruction retires. -/
  | streamWaitCleared (pane : PaneId) (st : StreamId)
  /-- LAUNCH (R155): A launch starts a stream in IDLE or FAULT at ENTRY with s1 and s2 set, or fails with STREAM_BUSY. -/
  | launch (pane : PaneId) (st : StreamId)
  /-- MATRIX (R101): A matrix command starts when it reaches the head of its queue with its WAIT token available, after checking its MXC word and bound. -/
  | matrix (pane : PaneId)
  /-- MATRIX_DRAIN (R123): After its last join a matrix command drains its accumulators, scales them, adds the addend and writes its destination. -/
  | matrixDrain (pane : PaneId)
  /-- SPLITK_REDUCTION (R117): Once all partials and slice 0 have arrived, the Transom tree reduces the tile, writes it and completes every slice. -/
  | splitkReduction (pane : PaneId)
  /-- CURRENT_REDUCTION_DONE (R96): The Transom max-reduction of a CURRENT conversion completes on every pane and the panes convert with the common scale. -/
  | currentReductionDone (cmds : List (PaneId × EngineId))
  /-- DELAYED_CONVERSION_START (R77): A DELAYED conversion held at its queue head starts once its scale record has rolled the needed step. -/
  | delayedConversionStart (pane : PaneId) (e : EngineId)
  /-- ADD (R173): Vector command computing a + b elementwise. -/
  | add (pane : PaneId)
  /-- MUL (R173): Vector command computing a × b elementwise. -/
  | mul (pane : PaneId)
  /-- FMA (R173): Vector command computing a × b + c with C an FP32 tensor. -/
  | fma (pane : PaneId)
  /-- MAX (R173): Vector command computing max(a, b) elementwise. -/
  | max (pane : PaneId)
  /-- MIN (R173): Vector command computing min(a, b) elementwise. -/
  | min (pane : PaneId)
  /-- SCALE (R173): Vector command computing a × P0 + P1 with one rounding. -/
  | scale (pane : PaneId)
  /-- EXP (R170): Vector command computing the natural exponential of a. -/
  | exp (pane : PaneId)
  /-- EXP2 (R170): Vector command computing 2 to the power a. -/
  | exp2 (pane : PaneId)
  /-- LOG (R170): Vector command computing the natural logarithm of a. -/
  | log (pane : PaneId)
  /-- LOG2 (R170): Vector command computing the base-2 logarithm of a. -/
  | log2 (pane : PaneId)
  /-- RECIP (R170): Vector command computing the reciprocal of a. -/
  | recip (pane : PaneId)
  /-- RSQRT (R170): Vector command computing the reciprocal square root of a. -/
  | rsqrt (pane : PaneId)
  /-- SQRT (R169): Vector command computing the square root of a. -/
  | sqrt (pane : PaneId)
  /-- DIV (R169): Vector command computing a / b. -/
  | div (pane : PaneId)
  /-- TANH (R170): Vector command computing tanh of a. -/
  | tanh (pane : PaneId)
  /-- SIGMOID (R170): Vector command computing the sigmoid of a. -/
  | sigmoid (pane : PaneId)
  /-- SILU (R170): Vector command computing SiLU of a. -/
  | silu (pane : PaneId)
  /-- GELU (R170): Vector command computing GELU (tanh form) of a. -/
  | gelu (pane : PaneId)
  /-- RSUM (R171): Vector command writing one row sum per row in the fixed reduction order. -/
  | rsum (pane : PaneId)
  /-- RMAX (R171): Vector command writing one row maximum per row. -/
  | rmax (pane : PaneId)
  /-- RSUMSQ (R171): Vector command writing one row sum of squares per row with fused multiply-adds. -/
  | rsumsq (pane : PaneId)
  /-- SOFTMAX (R176): Vector command writing the row softmax of a × P0. -/
  | softmax (pane : PaneId)
  /-- LOGSUMEXP (R176): Vector command writing ln Σ exp(a × P0) per row. -/
  | logsumexp (pane : PaneId)
  /-- RMSNORM (R176): Vector command writing RMS-normalised rows scaled by b. -/
  | rmsnorm (pane : PaneId)
  /-- LAYERNORM (R176): Vector command writing layer-normalised rows with interleaved gain and bias. -/
  | layernorm (pane : PaneId)
  /-- XENT (R176): Vector command writing the per-row cross-entropy loss and optionally its gradient to C. -/
  | xent (pane : PaneId)
  /-- INV (R178): Vector command writing the inverse of SPD blocks by shifted Cholesky tries. -/
  | inv (pane : PaneId)
  /-- INVROOT (R178): Vector command writing the inverse Cholesky factor of SPD blocks. -/
  | invroot (pane : PaneId)
  /-- VECTOR_COMPLETE (R165): A vector command completes its last write and increments or poisons its SIGNAL token. -/
  | vectorComplete (pane : PaneId)
  /-- COPY (R161): A copy command starts moving BYTES bytes between spaces, encoding or decoding through offload arenas and applying atomics. -/
  | copy (pane : PaneId) (hits : List LineErr)
  /-- COPY_COMPLETE (R165): A copy command completes when its last write is visible and signals its token. -/
  | copyComplete (pane : PaneId) (index : Fin 4)
  /-- CHART_LOAD (R216): LOAD verifies and checks a chart, tearing down partitions if FORCE is set, and makes it the running configuration. -/
  | chartLoad (chart : Fin 4) (force : Bool)
  /-- CHART_WRITE (R218): WRITE fetches an image, verifies it, erases and programs the non-current slot and writes the commit record last. -/
  | chartWrite (chart : Fin 4) (port : PortId)
  /-- CHART_ERASE (R216): ERASE erases both commit sectors, non-current first, and then both image areas. -/
  | chartErase (chart : Fin 4)
  /-- CHART_REVERT (R216): REVERT makes the non-current copy current by appending a commit record with a higher GEN. -/
  | chartRevert (chart : Fin 4)
  /-- CHART_COMMAND_DONE (R218): A chart command finishes, clearing BUSY and setting its result code. -/
  | chartCommandDone (fetched flashOk : Bool)
  /-- TXN_BEGIN (R224): A write of CFG_TXN_BEGIN opens a transaction, empties the shadow and records PEPOCH values. -/
  | txnBegin (o : OwnerId)
  /-- TXN_WDATA (R221): A write of CFG_TXN_WDATA checks the setting address and holds the value in the shadow bank. -/
  | txnWdata (o : OwnerId) (value : Word)
  /-- TXN_DELTA_LEN (R223): A write of CFG_TXN_DELTA_LEN starts the fetch and verification of a delta, or is refused with BAD_LENGTH. -/
  | txnDeltaLen (o : OwnerId) (port : PortId) (len : BitVec 25)
  /-- DELTA_VERIFY_DONE (R223): A delta's fetch and verification end, setting DELTA or a failure code and returning to OPEN. -/
  | deltaVerifyDone (o : OwnerId) (fetched : Bool)
  /-- TXN_COMMIT (R225): A write of CFG_TXN_COMMIT moves the transaction to COMMITTING and starts validation. -/
  | txnCommit (o : OwnerId) (timeout : BitVec 20)
  /-- TXN_ABORT (R224): A write of CFG_TXN_ABORT discards the shadow and releases held partitions. -/
  | txnAbort (o : OwnerId)
  /-- TXN_VALIDATION_DONE (R225): Commit validation ends, failing back to OPEN or starting the hold of affected partitions. -/
  | txnValidationDone (o : OwnerId)
  /-- TXN_APPLY (R227): When every affected partition is quiet, the transaction is applied in one tick, epochs increase and partitions are released. -/
  | txnApply (o : OwnerId)
  /-- TXN_HOLD_TIMEOUT (R224): A hold that exceeds TIMEOUT releases the partitions and returns the transaction to OPEN with TXN_TIMEOUT. -/
  | txnHoldTimeout (o : OwnerId)
  /-- CONDUIT_OPEN (R278): OPEN checks a conduit's parameters and opens it locally or starts the peer exchange. -/
  | conduitOpen (c : ConduitId)
  /-- CONDUIT_CLOSE (R277): CLOSE moves an open conduit to DRAINING. -/
  | conduitClose (c : ConduitId)
  /-- CONDUIT_RESET (R277): RESET schedules the conduit to close and discard its contents at the partition's next step boundary. -/
  | conduitReset (c : ConduitId)
  /-- PEER_OPEN_REPLY (R275): The peer accepts or refuses an OPENING conduit, moving it to OPEN or CLOSED with PEER_MISMATCH. -/
  | peerOpenReply (c : ConduitId) (reply : PeerReply)
  /-- OPENING_TIMEOUT (R277): An OPENING conduit with no peer answer within 10 ms closes with PEER_TIMEOUT. -/
  | openingTimeout (c : ConduitId)
  /-- TEACHER_SHARD (R244): A teacher logit shard reaches the emit half, opening or extending a row, or waits for a slot, or is discarded. -/
  | teacherShard (route : RouteId)
  /-- RECORD_READY (R251): The emit half closes a row and its soft-target record becomes ready, leaving at once if a credit is free. -/
  | recordReady (c : ConduitId)
  /-- CREDIT_RETURN (R260): A returned credit reaches the emit half, letting a waiting record leave. -/
  | creditReturn (c : ConduitId)
  /-- RECORD_ARRIVAL (R261): A record reaches the loss half and is buffered or written to the Transom queue. -/
  | recordArrival (c : ConduitId)
  /-- QUEUED_RECORD_READBACK (R261): A queued record is read back into the loss-half buffer in order once room appears. -/
  | queuedRecordReadback (c : ConduitId)
  /-- STUDENT_SHARD (R264): A student logit shard reaches the loss half and joins an open student row. -/
  | studentShard (route : RouteId)
  /-- LOSS_PASS2_START (R272): Once a record and its student row are both present, the loss half computes KL and starts the gradient pass. -/
  | lossPass2Start (c : ConduitId)
  /-- LOSS_ROW_COMPLETE (R269): The last gradient shard of a row is delivered, the loss entry is written and the credit is returned. -/
  | lossRowComplete (c : ConduitId)
  /-- TAP_FRAME (R255): A hidden-state tap frame reaches the emit half and is forwarded in arrival order. -/
  | tapFrame (route : RouteId)
  /-- TAP_FRAME_DELIVERY (R256): A tap frame leaves the queue into its free landing slot over the tap route, returning the tap credit. -/
  | tapFrameDelivery (c : ConduitId) (tap : Fin 8)
  /-- TAP_RELEASE (R257): A release frame frees landing slots in delivery order, or halts the conduit if it frees too many. -/
  | tapRelease (route : RouteId)
  /-- CONDUIT_LINK_LOST (R276): A remote conduit whose link has left UP and DEGRADED halts with LINK_LOST within 100 µs. -/
  | conduitLinkLost (c : ConduitId)
  /-- TRAINING_START (R289): START checks the tables and axes and moves the training window to RUNNING with CLOSED = F − 1. -/
  | trainingStart (part : PartId) (step : BitVec 32)
  /-- TRAINING_STOP (R288): STOP moves a running window to STOPPING so that no further slot launches. -/
  | trainingStop (part : PartId)
  /-- TRAINING_CLOSE (R325): CLOSE requests the close of a named step, idempotently. -/
  | trainingClose (part : PartId) (step : BitVec 32)
  /-- EXPORT (R320): EXPORT starts copying the last drained checkpoint to host memory while training continues. -/
  | exportStart (part : PartId) (mode : Fin 4)
  /-- EXPORT_ABORT (R322): EXPORT_ABORT ends a running copy-out with state IDLE. -/
  | exportAbort (part : PartId)
  /-- EXPORT_DONE (R320): An copy-out finishes writing its buffer, or ends with OVERTAKEN or HOST_WRITE. -/
  | exportDone (part : PartId) (good : Bool)
  /-- SLOT_LAUNCH (R291): A schedule slot launches to every pane of its stage once earlier slots have launched and its stream is IDLE or FAULT. -/
  | slotLaunch (stage : BitVec 16)
  /-- BUCKET_HANDOFF (R295): A layer's gradient bucket is handed to the collective engine, or to a norm pass, when its last backward completes. -/
  | bucketHandoff (part : PartId) (step : BitVec 32) (bucket : BitVec 16)
  /-- NORM_PASS_DONE (R295): A Transom norm pass finishes, giving GSQ and the non-finite count of the bucket. -/
  | normPassDone (part : PartId) (step : BitVec 32) (bucket : BitVec 16)
  /-- UPDATE_GATE_OPEN (R301): When every bucket and exchange of a step has ended, the gate opens and fixes the CLEAN or OVERFLOW verdict. -/
  | updateGateOpen (part : PartId)
  /-- UPDATE_PASS1 (R302): A chunk's G and moments are staged and its new moments formed in Transom. -/
  | updatePass1 (part : PartId) (entry : BitVec 16) (chunk : BitVec 32) (hits : List LineErr)
  /-- UPDATE_PASS2 (R303): A staged chunk's pass 2 runs on its owner pane's vector engine, forming the new master words. -/
  | updatePass2 (part : PartId) (entry : BitVec 16) (chunk : BitVec 32)
  /-- UPDATE_CHUNK_WRITE (R302): After pass 2 completes, the chunk's new HI, LO and moments are written to HBM. -/
  | updateChunkWrite (part : PartId) (entry : BitVec 16) (chunk : BitVec 32)
  /-- STEP_BOUNDARY (R287): When every close condition of a step holds, the summary record is written, scale records roll and CLOSED advances. -/
  | stepBoundary (part : PartId)
  /-- STRAGGLER_DEADLINE (R317): At T_dl a bucket with a quorum proceeds with the present contributions and the late ones are folded or dropped. -/
  | stragglerDeadline (part : PartId)
  /-- ADMIT (R337): An ADMIT request is checked and, if accepted, takes an entry, reserves KV and starts fetching the prompt. -/
  | admitReq (part : PartId)
  /-- PROMPT_FETCH_DONE (R337): The prompt fetch of an admission completes and the entry becomes ADMITTED, or the request is refused. -/
  | promptFetchDone (part : PartId) (how : FetchEnd)
  /-- CANCEL (R339): CANCEL ends an ADMITTED entry at once or stamps a bound entry for cancellation at its next seal. -/
  | cancel (part : PartId)
  /-- RETIRE (R339): RETIRE returns an ended entry to FREE. -/
  | retire (part : PartId)
  /-- HANDLE_RELEASE (R358): RELEASE drops a shared-page handle's references and frees its slot. -/
  | handleRelease (part : PartId)
  /-- MIGRATE (R333): MIGRATE moves a DECODE entry to MIGRATING towards a target pipeline. -/
  | migrate (part : PartId)
  /-- OVL_LOAD (R359): OVL_LOAD starts fetching an overlay image into fresh KV units. -/
  | ovlLoad (part : PartId)
  /-- OVERLAY_FETCH_DONE (R359): An overlay fetch completes, making a new version current, or fails with OVL_FETCH. -/
  | overlayFetchDone (part : PartId) (how : FetchEnd)
  /-- OVL_DROP (R360): OVL_DROP removes the current version of an overlay ID. -/
  | ovlDrop (part : PartId)
  /-- ATLAS_REGISTER (R328): REGISTER validates an atlas descriptor, moves the slot to READY and increments VERSION. -/
  | atlasRegister (owner : OwnerId) (slot : Fin 64)
  /-- ATLAS_DROP (R328): DROP returns a READY atlas slot to EMPTY, or fails with SLOT_BUSY. -/
  | atlasDrop (owner : OwnerId) (slot : Fin 64)
  /-- PIPELINE_ENABLE (R326): Setting ENABLE checks a pipeline slot and enables it, or records PIPE_INVALID. -/
  | pipelineEnable (pipe : PipeId)
  /-- PIPELINE_DISABLE (R366): Clearing ENABLE drains the pipeline and migrates or fails its bound entries. -/
  | pipelineDisable (pipe : PipeId)
  /-- STEP_OPEN (R340): A pipeline opens a step, switches model if needed, composes and writes the manifest and launches the first stage. -/
  | stepOpen (pipe : PipeId)
  /-- SAMPLER_SHARD (R343): A logit shard reaches a sampler and joins an expected row, or is discarded and counted. -/
  | samplerShard (route : RouteId)
  /-- SAMPLE_ROW (R350): A sampler finishes a row, applying mask, penalties and sampling to choose a token and its log-probability. -/
  | sampleRow (die : DieId)
  /-- SEAL (R344): When every expected row is sampled and every command of the step has completed, the step seals at SEAL_T. -/
  | sealStep (pipe : PipeId)
  /-- OUTPUT_BATCH_WRITE (R345): A seal's batch is written to the output ring once room and any mirror acknowledgement allow. -/
  | outputBatchWrite (part : PartId)
  /-- EVENT_BATCH_WRITE (R347): Events not tied to a seal are written as an event batch within 5 µs. -/
  | eventBatchWrite (part : PartId)
  /-- OUTPUT_RING_TAIL_WRITE (R345): A write of GZT_POUT_TAIL frees output ring room, or is discarded if it goes past HEAD or backwards. -/
  | outputRingTailWrite (part : PartId) (tail : Word)
  /-- LINGER_EXPIRY (R334): An ended entry whose LINGER time has passed returns to FREE. -/
  | lingerExpiry (entry : EntryId)
  /-- PATROL_SCRUB (R374): The patrol scrub reads and corrects every line of each healthy channel once per day. -/
  | patrolScrub (hits : List LineErr)
  /-- ROW_MAP_OUT_DONE (R379): Soft post-package repair of a poisoned line's row completes, or the frame is retired. -/
  | rowMapOutDone (frame : Fin 524288) (line : Fin 32768) (spare : Bool)
  /-- CHANNEL_TRAINING_TIMEOUT (R380): A channel whose training is not regained within 1 ms becomes FAILED. -/
  | channelTrainingTimeout (chan : ChanId)
  /-- STACK_TEMP_READING (R382): A stack's temperature is read every 100 µs and its throttle level rises if a higher band is reached. -/
  | stackTempReading (stack : StackId) (tenths : BitVec 12)
  /-- STACK_LEVEL_FALL (R383): A stack level falls one step after 1 ms of readings at least 2 °C below its band. -/
  | stackLevelFall (stack : StackId)
  /-- PREDICTED_DELAY_REPORT (R385): The module computes a stack's predicted delay each 1 ms while throttled and sends it to the collective manager. -/
  | predictedDelayReport (stack : StackId) (part : PartId) (queued : Nat)
  /-- STACK_RESUME (R388): RESUME brings a stack out of self-refresh, restoring shared regions, or fails with TOO_HOT or BUSY. -/
  | stackResume (stack : StackId)
  /-- FAR_DEVICE_POISON (R408): A far-tier device reports poison and the line is poisoned. -/
  | farDevicePoison (x : PortId) (line : BitVec 36)
  /-- FAR_TIMEOUT (R408): A far-tier request with no response within 2 ms reads as poison and counts a timeout. -/
  | farTimeout (x : PortId) (line : BitVec 36) (pane : PaneId) (index : Fin 4)
  /-- FAR_VIOLATION (R408): A malformed CXL message is discarded and counted, and the port goes DOWN at 16 in 1 s. -/
  | farViolation (x : PortId)
  /-- FAR_SURPRISE_REMOVAL (R408): Surprise removal sends a CXL port DOWN and its partitions receive CONTAINED. -/
  | farSurpriseRemoval (x : PortId)
  /-- GOLDEN_REGISTER (R409): REGISTER registers a golden copy of a shared region, or fails with BAD_REGION, BAD_SOURCE or BUSY. -/
  | goldenRegister (region : RegionId)
  /-- GOLDEN_DEREGISTER (R409): DEREGISTER removes a region's golden copy registration. -/
  | goldenDeregister (region : RegionId)
  /-- LINK_ENABLE (R424): ENABLE starts lane training of a DOWN link. -/
  | linkEnable (link : LinkId)
  /-- LINK_DISABLE (R424): DISABLE takes a link DOWN and clears its replay. -/
  | linkDisable (link : LinkId)
  /-- LINK_RELEASE (R430): RELEASE moves a QUARANTINED link to TRAIN with its counts cleared. -/
  | linkRelease (link : LinkId)
  /-- WIDEN (R424): WIDEN retrains a DEGRADED link that has 16 good lanes. -/
  | widen (link : LinkId)
  /-- RETRAIN (R424): RETRAIN moves an UP or DEGRADED link to TRAIN keeping its replay. -/
  | retrain (link : LinkId)
  /-- LINK_RETRY_TIMER (R424): The 100 ms retry timer of an enabled DOWN link starts training again. -/
  | linkRetryTimer (link : LinkId)
  /-- LANE_TRAINING_DONE (R413): Lanes lock and deskew, the active width is set and the link enters NEGOTIATE. -/
  | laneTrainingDone (link : LinkId) (locked : BitVec 18)
  /-- LANE_TRAINING_TIMEOUT (R424): Fewer than 8 lanes after 50 ms send the link DOWN with NO_LANES. -/
  | laneTrainingTimeout (link : LinkId)
  /-- NEG (R423): A NEG frame is received and the version is agreed or the partner refused. -/
  | negMsg (link : LinkId) (module fabric : BitVec 16) (serial : Word) (slots : List (BitVec 16)) (lo hi : Fin 16)
  /-- NEG_TIMEOUT (R424): No NEG answer within 1 ms sends the link DOWN with TIMEOUT. -/
  | negTimeout (link : LinkId)
  /-- LANE_FAILED (R414): A lane losing lock or over its corrected-symbol limit is marked failed and swapped or the link retrains. -/
  | laneFailed (link : LinkId) (lane : Fin 18)
  /-- LANE_SWAP (R414): A received LANE_SWAP moves a failed logical lane onto the lowest good spare at the named codeword. -/
  | laneSwap (link : LinkId) (logical : Fin 18)
  /-- LOCK_LOSS_TIMEOUT (R424): Lock lost for over 1 µs moves the link to TRAIN. -/
  | lockLossTimeout (link : LinkId)
  /-- FLIT_RECEIVE (R420): A flit is received, checked, accepted in order, forwarded or discarded, and its ACK and credits applied. -/
  | flitReceive (link : LinkId) (bytes : List Byte) (fec : FlitCode)
  /-- NAK (R420): A received NAK makes the transmitter resend its class from the oldest unacknowledged SEQ. -/
  | nakMsg (link : LinkId) (cls : Fin 6) (seqNo : BitVec 12)
  /-- REPLAY_TIMEOUT (R420): A class with unacknowledged flits and no ACK progress for 10 µs is resent, and eight replays move the link to TRAIN. -/
  | replayTimeout (link : LinkId) (cls : Fin 6)
  /-- VIOLATION (R429): A VIOLATION message from the partner is received and recorded. -/
  | violationMsg (link : LinkId) (code cls : Byte) (seqNo : BitVec 12)
  /-- HELLO_TIMER (R428): Every 1 ms a HELLO is sent on each UP or DEGRADED link. -/
  | helloTimer
  /-- HELLO (R428): A received HELLO refreshes the neighbour and distance, or moves the link to TRAIN on a changed identity. -/
  | helloMsg (link : LinkId) (module fabric : BitVec 16) (serial : Word) (feed peerLink : Fin 16) (distance : Byte)
  /-- HELLO_MISSED (R428): After three missed HELLOs the partner stops counting as a neighbour and a CORRECTED record is logged. -/
  | helloMissed (link : LinkId)
  /-- UNREACHABLE (R426): An UNREACHABLE message reports a discarded message to its source. -/
  | unreachableMsg (link : LinkId) (src : ModuleId) (job : BitVec 16) (mtype : Byte) (tag : BitVec 32)
  /-- SYNC_TIMER (R432): Every 1 ms a child module sends SYNC_REQ stamped t1 to its parent. -/
  | syncTimer
  /-- SYNC_REQ (R432): A parent receives SYNC_REQ, stamps t2 and answers with SYNC_RESP carrying t1, t2 and t3. -/
  | syncReq (link : LinkId) (t1 : Word)
  /-- SYNC_RESP (R511): A child receives SYNC_RESP, computes offset and delay and slews, steps or holds its time. -/
  | syncResp (link : LinkId) (t1 t2 t3 : Word)
  /-- SYNC_HOLDOVER_TIMEOUT (R512): A SYNCED module with no exchange for 10 ms enters HOLDOVER. -/
  | syncHoldoverTimeout
  /-- TIME_ROOT_WRITE (R512): Writing MRD_ID.TIME_ROOT makes the module the time root or releases it to acquire a parent. -/
  | timeRootWrite (value : Bool)
  /-- GRT_SET (R510): A write of GRT_SET steps every copy forward on the free-running root, or is discarded. -/
  | grtSet (value : Word)
  /-- SHUTTER_REQ (R541): A SHUTTER_REQ is received, forwarded once on every other link and accepted, replaced or ignored. -/
  | shutterReq (link : LinkId) (body : List Byte)
  /-- DELAY_REPORT (R442): A DELAY_REPORT is received and placed in COL_CDELAYp. -/
  | delayReport (link : LinkId) (src : ModuleId) (job : BitVec 16) (stack : Fin 16) (level : Fin 8) (predUs : BitVec 32) (time : Word)
  /-- ALL_REDUCE (R438): Collective entry that reduces shares in fixed rank order and returns the result to every rank. -/
  | allReduce (part : PartId)
  /-- REDUCE_SCATTER (R438): Collective entry that reduces each share at its owner. -/
  | reduceScatter (part : PartId)
  /-- ALL_GATHER (R443): Collective entry that places each rank's part on every rank. -/
  | allGather (part : PartId)
  /-- BROADCAST (R443): Collective entry that copies the root's SRC to every rank's DST. -/
  | broadcast (part : PartId)
  /-- REDUCE (R438): Collective entry that reduces every share at the root. -/
  | reduce (part : PartId)
  /-- ALL_TO_ALL (R443): Collective entry that exchanges blocks between all ranks. -/
  | allToAll (part : PartId)
  /-- SEND (R443): Collective entry that sends to a peer rank by rendezvous. -/
  | send (part : PartId)
  /-- RECV (R443): Collective entry that receives from a peer rank by rendezvous. -/
  | recv (part : PartId)
  /-- COLLECTIVE_BARRIER (R443): Collective entry that completes once the coordinator has heard from every rank. -/
  | collectiveBarrier (part : PartId)
  /-- SHARE (R438): A SHARE part arrives at its owner, is staged and acknowledged. -/
  | shareMsg (h : CollHead) (op dtype : Byte) (count : BitVec 32) (bytes : List Byte) (poisoned : Bool)
  /-- GRANT (R438): A GRANT lets a rank send its part while staging has room. -/
  | grantMsg (h : CollHead)
  /-- ACK (R438): An ACK tells a rank that an owner has staged its part. -/
  | ackMsg (h : CollHead)
  /-- DONE (R441): A DONE reaches the coordinator, fixing T_dl on the first and sending SET when all have counted. -/
  | doneMsg (h : CollHead)
  /-- SET (R439): A SET names the counted ranks and lets each owner sum its share in ascending rank. -/
  | setMsg (h : CollHead) (counted stale : List (Fin 4096)) (n : BitVec 16)
  /-- RESULT (R440): A RESULT share and its GSQ partials reach a rank, which writes DST and completes the entry when all arrive. -/
  | resultMsg (h : CollHead) (figs : List CollFig) (bytes : List Byte) (poisoned : Bool)
  /-- ABORT (R446): A received ABORT ends the collective with ABORTED. -/
  | abortMsg (h : CollHead)
  /-- BARRIER (R443): A BARRIER message reaches the coordinator or is answered by it. -/
  | barrierMsg (h : CollHead) (answer : Bool)
  /-- SEND_RTS (R443): A SEND_RTS waits for the matching RECV on the receiver. -/
  | sendRts (h : CollHead) (nth count : BitVec 32) (dtype : Byte)
  /-- SEND_CTS (R443): A SEND_CTS names DST and lets data flow. -/
  | sendCts (h : CollHead) (peerK : BitVec 32) (dst : Word)
  /-- SEND_DATA (R443): SEND_DATA is written straight into DST. -/
  | sendData (h : CollHead) (bytes : List Byte) (poisoned : Bool)
  /-- BULK (R418): A BULK message carries checkpoint, spare-module or pair data. -/
  | bulk (link : LinkId) (src : ModuleId) (job : BitVec 16) (body : BulkBody) (poisoned : Bool)
  /-- CONDUIT_REC (R274): A remote soft-target record arrives over Meridian at the loss module. -/
  | conduitRec (sent : MsgFrom) (job : BitVec 16) (c : ConduitId) (bytes : List Byte) (poisoned : Bool)
  /-- CONDUIT_TAP (R274): A remote tap frame arrives over Meridian. -/
  | conduitTap (sent : MsgFrom) (job : BitVec 16) (c : ConduitId) (bytes : List Byte) (poisoned : Bool)
  /-- CONDUIT_REL (R274): A remote release frame arrives over Meridian. -/
  | conduitRel (sent : MsgFrom) (job : BitVec 16) (c : ConduitId) (tap : Fin 8) (count : BitVec 8)
  /-- CONDUIT_CREDIT (R274): A remote credit return arrives over Meridian at the emit module. -/
  | conduitCredit (sent : MsgFrom) (job : BitVec 16) (c : ConduitId) (reset : Bool)
  /-- COLLECTIVE_TIMEOUT (R447): A collective not complete within TIMEOUT_MS ends with TIMEOUT. -/
  | collectiveTimeout (part : PartId)
  /-- HATCH_DESCRIPTOR_WORDS (R464): Words 0 to 6 written to a hatch slot replace its content, or are discarded as BAD_SEAL. -/
  | hatchDescriptorWords (part : PartId) (win : Fin 5) (slot : Fin 1024) (word : Fin 7) (value : Word)
  /-- HATCH_SEAL (R463): Word 7 with SEAL arrives and the descriptor is submitted, held, or discarded as overrun or bad seal. -/
  | hatchSeal (part : PartId) (win : Fin 5) (slot : Fin 1024) (value : Word)
  /-- HATCH_DISPATCH (R465): A submitted hatch descriptor is dispatched in sequence order to its pane queue or stage. -/
  | hatchDispatch (part : PartId) (hatch : Fin 4)
  /-- HATCH_ENABLE (R469): Setting ENABLE of a hatch sets NEXT and DISP to 0. -/
  | hatchEnable (part : PartId) (hatch : Fin 4) (pane : Fin 4096)
  /-- HATCH_DISABLE (R469): Clearing ENABLE ends every sealed undispatched descriptor with ABORTED. -/
  | hatchDisable (part : PartId) (hatch : Fin 4)
  /-- COMPLETION_TAIL_WRITE (R470): A write of HTC_CTAIL frees completion ring room so that held records are written. -/
  | completionTailWrite (part : PartId) (hatch : Fin 4) (value : Word)
  /-- MSIX_COALESCE_TIMER (R473): A ring vector fires when its coalescing count or time is reached. -/
  | msixCoalesceTimer (part : PartId) (hatch : Fin 4)
  /-- VF_FLR (R475): An FLR of a VF aborts its DMA, resets its hatches and MSI-X, and discards sealed descriptors. -/
  | vfFlr (port : PortId) (fn : FnId)
  /-- PF_FLR (R475): An FLR of a PF acts as an FLR of each of its VFs and resets the PF's MSI-X state. -/
  | pfFlr (port : PortId)
  /-- HOST_PORT_RESET (R475): A hot reset, link down or surprise removal of a host port acts as a PF FLR and notifies its partitions. -/
  | hostPortReset (port : PortId)
  /-- DMA_READ_ERROR (R459): A DMA read completion with timeout, UR or CA fails its command, and one with EP delivers poisoned lines. -/
  | dmaReadError (pane : PaneId) (index : Fin 4) (how : DmaEnd)
  /-- EP_WRITE (R460): A posted write with EP stores poison, or is discarded and counted if it targets a register or hatch. -/
  | epWrite (port : PortId) (fn : FnId) (offset : BitVec 28)
  /-- UNSUPPORTED_REQUEST (R474): A request of an unsupported kind is answered with Unsupported Request. -/
  | unsupportedRequest (port : PortId) (fn : FnId)
  /-- MALFORMED_TLP (R474): A malformed TLP, unexpected completion or ECRC error is handled through AER and has no other effect. -/
  | malformedTlp (port : PortId)
  /-- MCTP_REQUEST (R478): An MCTP message is answered within 100 ms, or answered with an error, discarded and counted. -/
  | mctpRequest (msg : McMsg)
  /-- SET_ENDPOINT_ID (R477): The bus owner assigns the Porter's MCTP endpoint ID. -/
  | setEndpointId (eid : BitVec 8)
  /-- PLDM_FIRMWARE_UPDATE (R611): A PLDM firmware update verifies a Porter image and programs the non-running copy. -/
  | pldmFirmwareUpdate (medium : Fin 3) (image : List Byte)
  /-- ACTIVATE (R487): ACTIVATE moves a partition to LOADING and starts its loading steps. -/
  | activate (part : PartId)
  /-- LOADING_DONE (R485): Loading completes and the partition becomes ACTIVE with metering started, or fails back to DEFINED. -/
  | loadingDone (part : PartId)
  /-- PAUSE (R488): PAUSE moves an ACTIVE partition to PAUSED so none of its work starts. -/
  | pause (part : PartId)
  /-- PARTITION_RESUME (R485): RESUME returns a PAUSED or DRAINING partition to ACTIVE and dispatches held work in order. -/
  | partitionResume (part : PartId)
  /-- DRAIN (R489): DRAIN freezes the partition's work boundary, stops training and closes conduits. -/
  | drain (part : PartId)
  /-- DRAIN_QUIET (R489): A DRAINING partition that becomes quiet moves to PAUSED. -/
  | drainQuiet (part : PartId)
  /-- TEARDOWN (R490): TEARDOWN stops and aborts the partition's work and starts releasing its resources. -/
  | teardown (part : PartId)
  /-- TEARDOWN_DONE (R490): Keys are destroyed, slices zeroed, resources returned and the partition reaches TORN_DOWN. -/
  | teardownDone (part : PartId)
  /-- SLICE_END (R495): A time-shared member's slice ends and no further command of it starts. -/
  | sliceEnd (group : GroupId)
  /-- SLICE_SWITCH (R495): Once the outgoing member's last command completes, its state is saved, the next member restored and its slice begins. -/
  | sliceSwitch (group : GroupId)
  /-- SLICE_WATCHDOG (R497): A command reaching twice its declared bound is aborted, a CONTAINED record placed and the partition FAULTED. -/
  | sliceWatchdog (pane : PaneId) (e : EngineId)
  /-- FILL (R501): FILL assigns frames to a shared region and starts fetching and encrypting its contents. -/
  | fill (region : RegionId)
  /-- FILL_DONE (R501): A region fill completes and the region becomes SEALED, or fails with FETCH. -/
  | fillDone (region : RegionId) (how : FetchEnd)
  /-- DELETE (R503): DELETE destroys a region's key and returns its frames, or fails with BUSY. -/
  | deleteRegion (region : RegionId)
  /-- MSNAP (R506): A write of PTN_MSNAP latches every live metering counter into that viewer's copy in one tick. -/
  | msnap (part : PartId) (tenant : Bool)
  /-- COUNTER_SAMPLE (R517): At each interval boundary a counter sample record is written, or merged into the next. -/
  | counterSample (o : OwnerId) (late : Bool)
  /-- TRACE_ARM (R524): ARM clears trace counts and moves trace to ARMED, or is refused with BUSY or BAD_REGION. -/
  | traceArm (o : OwnerId)
  /-- TRACE_TRIGGER (R525): TRIGGER fires a SOFTWARE trigger, freezing the ring and starting the post region. -/
  | traceTrigger (o : OwnerId)
  /-- TRACE_DISARM (R524): DISARM returns trace to IDLE with contents kept. -/
  | traceDisarm (o : OwnerId)
  /-- TRACE_TIME_TRIGGER (R525): A TIME trigger fires at graticule time SRV_TTIME. -/
  | traceTimeTrigger (o : OwnerId)
  /-- TRACE_RECORD_WRITE (R528): A pane's trace port drains a record into the ring or post region. -/
  | traceRecordWrite (o : OwnerId) (pane : PaneId)
  /-- SHUTTER_STOP (R539): STOP schedules a stop at T_stop for its scope, forwarding it for fabric and job scopes. -/
  | shutterStop (scope : Fin 4) (noscan : Bool) (lead : BitVec 24) (part : Byte) (job : BitVec 16)
  /-- SHUTTER_REOPEN (R557): REOPEN schedules T_open for a stopped scope, or is refused with BUSY or NOT_STOPPED. -/
  | shutterReopen (scope : Fin 4) (lead : BitVec 24) (part : Byte) (job : BitVec 16)
  /-- ABORT_SCAN (R555): ABORT_SCAN ends every scan-out image at once with DONE left at 0. -/
  | abortScan
  /-- T_STOP_REACHED (R544): At T_stop each island of the scope stops at its next instruction boundary. -/
  | tStopReached
  /-- LAST_ISLAND_STOPPED (R550): The last island of the scope stops, T_CUT is recorded and scan-out starts unless NOSCAN. -/
  | lastIslandStopped
  /-- SCAN_IMAGE_DONE (R551): Every scan-out image is complete and signed and the Shutter becomes SCANNED. -/
  | scanImageDone
  /-- T_OPEN_REACHED (R558): At T_open islands resume from their captured state and pending deadlines move by D. -/
  | tOpenReached
  /-- HANDLER_START (R567): A detected fault's record is placed and its handler runs, pre-empting a lower one or queueing behind it. -/
  | handlerStart (e : FaultEvent)
  /-- PANE_FAILURE (R571): A pane fails, is isolated, its commands abort and PANE_REPAIRED or PANE_FAILED is raised. -/
  | paneFailure (pane : PaneId)
  /-- REPAIR_QUIET_POINT (R573): At the partition's quiet point a spare takes the failed pane's number, its code loads and work is recovered. -/
  | repairQuietPoint (part : PartId)
  /-- SHARED_REGION_REPAIR_DONE (R576): A poisoned shared page is restored from its golden copy, marked steps retry and SHARED_RESOURCE records go out. -/
  | sharedRegionRepairDone (good : Bool)
  /-- CHECKPOINT_NOW (R580): NOW requests a checkpoint at the next step boundary. -/
  | checkpointNow (part : PartId)
  /-- CHECKPOINT_COPY_DONE (R581): The shadow copy ends, the partition is released and the drain to the other slot starts. -/
  | checkpointCopyDone (part : PartId)
  /-- CHECKPOINT_DRAIN_DONE (R583): A drain ends with DONE written last, or fails with CHECKPOINT. -/
  | checkpointDrainDone (part : PartId) (good : Bool)
  /-- CHECKPOINT_RESTORE (R587): RESTORE loads a drained slot into a stopped window, or fails with BAD_SLOT. -/
  | checkpointRestore (part : PartId) (slot : Fin 2)
  /-- ROLLBACK (R585): At a quiet point open steps are abandoned, conduits reset and the checkpoint state restored. -/
  | rollback (part : PartId)
  /-- ROLLBACK_RESTORE_DONE (R585): The restore ends, CLOSED = c, the window runs and a ROLLBACK record is placed. -/
  | rollbackRestoreDone (part : PartId)
  /-- HIER_HEARTBEAT_TIMER (R588): Every HB_US µs each hierarchy member sends HEARTBEAT. -/
  | hierHeartbeatTimer (part : PartId)
  /-- HIER_HEARTBEAT (R588): A HEARTBEAT is received from a hierarchy member or the manager. -/
  | hierHeartbeat (h : HierHead)
  /-- GATE (R589): A worker's GATE verdict reaches the manager, which sends GATE_ALL after the last. -/
  | gate (h : HierHead)
  /-- GATE_ALL (R589): A worker receives the combined verdict of a step. -/
  | gateAll (h : HierHead)
  /-- READY (R589): A worker's READY reaches the manager, which sends RELEASE once all have arrived. -/
  | ready (h : HierHead)
  /-- HIER_RELEASE (R589): A worker receives RELEASE and its step's barrier is met. -/
  | hierRelease (h : HierHead)
  /-- HIER_CHECKPOINT (R589): A worker receives CHECKPOINT naming the step at which to checkpoint. -/
  | hierCheckpoint (h : HierHead)
  /-- HIER_ROLLBACK (R590): A worker receives ROLLBACK, rolls back to the epoch and rewrites member tables. -/
  | hierRollback (h : HierHead)
  /-- REPLACE (R590): A spare receives REPLACE, fetches the failed worker's slot from its buddy and restores it. -/
  | replace (h : HierHead)
  /-- JOINED (R590): The manager receives JOINED, updates its roster and sends RESUME. -/
  | joined (h : HierHead)
  /-- HIER_RESUME (R590): Members receive RESUME and continue from the epoch. -/
  | hierResume (h : HierHead)
  /-- HIER_FAULTED (R590): The manager receives FAULTED and declares the sender failed. -/
  | hierFaulted (h : HierHead)
  /-- WORKER_HEARTBEAT_MISS (R590): After 3 missed heartbeats the manager declares a worker failed and starts replacement. -/
  | workerHeartbeatMiss (part : PartId) (worker : ModuleId)
  /-- MANAGER_HEARTBEAT_MISS (R591): A worker missing 3 manager heartbeats holds its partition at the next boundary. -/
  | managerHeartbeatMiss (part : PartId)
  /-- MGR_TIMEOUT (R591): After MGR_TIMEOUT_MS without a manager the worker's window stops with ABANDONED. -/
  | mgrTimeout (part : PartId)
  /-- PAIR_ENABLE (R593): Setting pair ENABLE contacts the peer and moves to PAIRED or CORRELATED, or stays UNPAIRED with a code. -/
  | pairEnable (part : PartId)
  /-- PAIR_DISABLE (R593): Clearing pair ENABLE sends LEAVE and returns to UNPAIRED. -/
  | pairDisable (part : PartId)
  /-- PAIR_ANSWER_TIMEOUT (R593): No peer answer within 10 ms leaves the pair UNPAIRED with TIMEOUT. -/
  | pairAnswerTimeout (part : PartId)
  /-- PAIR_HEARTBEAT_TIMER (R592): Every 100 µs a paired module sends a pair HEARTBEAT. -/
  | pairHeartbeatTimer (part : PartId)
  /-- PAIR_HEARTBEAT (R592): A pair HEARTBEAT is received from the partner. -/
  | pairHeartbeat (link : LinkId) (src : ModuleId) (job : BitVec 16) (feed : Fin 16) (runId : Word) (entries : BitVec 15)
  /-- PAIR_HEARTBEAT_MISS (R593): Three missed pair heartbeats move the pair to PROMOTING. -/
  | pairHeartbeatMiss (part : PartId)
  /-- MIRROR (R594): A MIRROR message is received and kept as standby entry state, then acknowledged. -/
  | mirror (link : LinkId) (src : ModuleId) (job : BitVec 16) (msg : MirrorMsg)
  /-- MIRROR_ACK (R594): A MIRROR_ACK arrives and lets the waiting batch be written. -/
  | mirrorAck (link : LinkId) (src : ModuleId) (job : BitVec 16)
  /-- MIRROR_ACK_TIMEOUT (R593): No MIRROR_ACK within 300 µs moves the pair to PROMOTING. -/
  | mirrorAckTimeout (part : PartId)
  /-- SNAPSHOT (R593): A SNAPSHOT of the partner's live entries is received into standby. -/
  | snapshot (link : LinkId) (src : ModuleId) (job : BitVec 16) (entries : List MirrorEnt)
  /-- LEAVE (R593): A LEAVE from the partner unpairs, clearing standby or promoting it on FAULTED. -/
  | leave (link : LinkId) (src : ModuleId) (job : BitVec 16) (faulted : Bool)
  /-- PWRFAIL_N (R599): PWRFAIL_N asserted stops new work, stops compute islands, latches metering and starts the flush. -/
  | pwrfailN
  /-- INPUT_UNDERVOLTAGE (R633): An input below 40 V for over 5 µs with PWRFAIL_N high acts as an UNANNOUNCED power failure. -/
  | inputUndervoltage
  /-- FLUSH_COMMIT (R600): The power-fail flush finishes programming and its commit record is written. -/
  | flushCommit
  /-- NEW_NONCE (R619): NEW_NONCE generates a fresh module nonce for the next transition. -/
  | newNonce
  /-- CLAIM (R618): CLAIM burns the next owner slot, writes the owner key and moves PROVISIONED to DEPLOYED. -/
  | claim
  /-- PROVISION (R618): A TRANSITION to PROVISIONED from TEST with a maker token locks the factory region. -/
  | provision
  /-- LC_RELEASE (R618): A TRANSITION from DEPLOYED to PROVISIONED with an owner token wipes the module and revokes the owner slot. -/
  | lcRelease
  /-- LC_RETURN (R618): A TRANSITION from DEPLOYED to RETURNED with both tokens wipes the module and revokes the owner slot. -/
  | lcReturn
  /-- REISSUE (R618): A TRANSITION from RETURNED to PROVISIONED with a maker token wipes the module. -/
  | reissue
  /-- SCRAP (R618): A TRANSITION to SCRAPPED wipes the module and destroys the identity key. -/
  | scrap
  /-- IMG_FLOOR (R612): IMG_FLOOR raises the image rollback floor, or fails with FLOOR_RANGE. -/
  | imgFloor (value : BitVec 8)
  /-- FW_FLOOR (R612): FW_FLOOR raises the firmware rollback floor, or fails with FLOOR_RANGE. -/
  | fwFloor (value : BitVec 8)
  /-- MODULE_REPORT (R614): REPORT through SEC_CMD builds a signed module attestation report. -/
  | moduleReport
  /-- DIRECT_LOAD (R622): DIRECT_LOAD loads an unsigned image with only validation checks, where the life-cycle state permits. -/
  | directLoad (port : PortId)
  /-- FACTORY_WRITE (R622): FACTORY_WRITE writes a new factory image in TEST, taking effect at the next reset. -/
  | factoryWrite (port : PortId)
  /-- ATT_REPORT (R614): REPORT through ATT_CMD latches the nonce and builds a signed partition report. -/
  | attReport (part : PartId)
  /-- REPORT_READY (R614): A requested attestation report is complete and readable. -/
  | reportReady
  /-- EXTEND (R613): EXTEND folds the tenant's 32-byte value into the partition's UMR. -/
  | extend (part : PartId)
  /-- POWER_MEASUREMENT (R630): The input is measured every 1 µs and pane clocks are lowered or raised in steps to keep the power limits. -/
  | powerMeasurement (watts : BitVec 14) (millivolts : BitVec 16)
  /-- DIE_TEMP_READING (R639): A die sensor reading throttles or releases its pane's clock in 25 MHz steps. -/
  | dieTempReading (die : Fin 12) (sensor : Fin 16) (celsius : BitVec 8)
  /-- THERMAL_FATAL (R639): A sensor at or above 110 °C for 100 µs raises a FATAL THERMAL record. -/
  | thermalFatal (die : Fin 10)
  /-- SYS_REFCLK_LOSS (R635): SYS_REFCLK lost for over 1 µs raises a FATAL REFCLK record. -/
  | sysRefclkLoss
  /-- MARGIN_HBM (R641): A margining run sweeps one unused HBM channel's voltage and timing windows. -/
  | marginHbm (chan : ChanId) (rate : Fin 3)
  /-- MARGIN_LINK (R641): A margining run measures the eye of one lane of a DOWN link. -/
  | marginLink (target : Fin 512)
  /-- MARGIN_ABORT (R642): ABORT ends a margining run at once and retrains the channel. -/
  | marginAbort
  /-- MARGIN_RUN_DONE (R642): A margining run ends, reports its windows and retrains the channel, failing it if training fails. -/
  | marginRunDone (mv mui : BitVec 12) (trained : Bool)
  /-- INPUT_POWER_OFF (R629): The 48 V input falls below the turn-off threshold of 38.5 V, every on-module rail turns off and all volatile state and SM4 keys are lost. -/
  | inputPowerOff
deriving DecidableEq, Repr

end Sys2Proof
end

