-- ==== Sys2Proof/Decode.lean ====
section
/-! DEFINITION. The commands that a word spells by the bits of opcode_table.json. -/

namespace Sys2Proof

/-- The command that the bits of a row spell. No row of the table gives bits: the commands of this block are events and writes of
whole registers, not words of a program, so no word spells one. -/
def decodeTableWord (_nbits _w : Nat) : Option Instr := none

end Sys2Proof
end

