-- ==== Sys2Proof/Config.lean ====
section
/-! DEFINITION. What the spec leaves open: values and functions with no body, so that no proof can rest on one of them. -/

namespace Sys2Proof.Config

/-- A fresh 64-bit value the spec leaves open, by the state's own counter freeCtr (log entry 2). -/
opaque freeWord : Nat → Word

/-- The result of a scalar operation where R150 states none, of its operands (R181): 0, 1, 2 the shifts SHL, SHR, SAR by 64 or more, 3 the
conversion to an integer of a NaN, an infinity or a value outside 64 bits, 4 the target of a RETURN without a call (log entries 2, 7). -/
opaque openResult : Nat → Word → Word → Word

/-- Which of the values that R170 allows a function has, of its VOP and its operand as an FP32 code; its result as an FP32 code where the spec
states none (log entry 8). -/
opaque approx : Nat → BitVec 32 → BitVec 32

/-- The SM3 digest of a byte string, 256 bits (R204): a named standard that the spec does not define (log entry 35). -/
opaque sm3 : List Byte → BitVec 256

/-- The SM3 digest of a message as the SM2 signature scheme forms it (R205): from the distinguishing identifier, the signer's public key and the
message. The scheme is a named standard that the spec does not define (log entry 35). -/
opaque sm2Digest : List Byte → List Byte → List Byte → BitVec 256

/-- Whether an SM2 signature verifies (R205, R604): the key, the message, the signature (log entry 35). -/
opaque sm2Verify : List Byte → List Byte → List Byte → Bool

/-- An SM2 signature, 64 bytes as a number: the key, the message (log entry 35). -/
opaque sm2Sign : Nat → List Byte → BitVec 512

/-- The signature of the maker on the factory image (R205, R211): the maker's private key lies outside the module (log entry 6). -/
opaque makerSign : List Byte → BitVec 512

/-- The choice among equal route links (R426), which the spec leaves to a hash it does not define (log entry 39). -/
opaque routeHash : Nat → Nat → Nat

/-- The answer of the MCTP endpoint (R477, R478), which other standards define: the free-value counter, the message type and the request
(log entry 37). -/
opaque mctpAnswer : Nat → Nat → List Byte → List Byte

/-- The error completion that a protocol has for a message (R478), none where it has none (log entry 37). -/
opaque mctpError : Nat → List Byte → Option (List Byte)

/-- Where in an owner pane's part of the staging area a chunk's data lie in a phase of the update, as the bytes of that part (R302), and the 32
bytes of one layer's state (R304): the spec gives neither layout (log entry 68). -/
opaque stageLayout : Nat → List Nat → List Byte
opaque layerLayout : List Nat → BitVec 256

/-- How an image lays out the content of a scan-out section whose layout the spec does not give (R553): the section's type and its content
(log entry 38). -/
opaque scanLayout {α : Type} : Nat → α → List Byte

/-- COUNT of a scan-out section where the spec does not state it (R552): its type and its content (log entry 38). -/
opaque scanCount {α : Type} : Nat → α → Nat
/-- SOURCE of a section of a unit that has no island of its own (R552, R553): its type and owner (log entry 38). -/
opaque scanSource : Nat → Nat → Nat

/-- The digest of the fuse configuration and ROM version (R613): of the fuse values, in a form the spec does not give (log entry 27). -/
opaque fuseDigest : List Nat → BitVec 256

/-- The sensor of its die that is nearest to a pane (R639, log entry 40). -/
opaque nearestSensor : Nat → Nat

/-- Where the data of a member of a package axis lie from SRC or DST (R436 does not say): the die, the bytes of one member (log entry 41). -/
opaque memberOffset : Nat → Nat → Nat

/-- Whether requests wait in a tick for the regulator of a partition (its number), or for the ceiling of a stack (64 and up): timing that the model
leaves out decides it (R390, R519, log entry 87). -/
opaque memWaits : Nat → Nat → Bool

/-- N / n applied to a u64 element of a GRAD entry (R439), which R317 states for FP32 alone: N, n and the element (log entry 92). -/
opaque collScale : Nat → Nat → Nat → Nat

/-- The FP32 elements of a watched copy's output (R530): a copy moves bytes unchanged (R161), and no rule states the format of their elements; a
function of the bytes, so that equal outputs give equal digests (R531, log entry 99). -/
opaque copyElems : List Byte → List (BitVec 32)

/-- The rate estimate, in parts of 10^9, that the offsets of the last exchanges give, in 1/16 tick (R511, log entry 91). -/
opaque rateOf : List Int → Int

end Sys2Proof.Config
end

