-- ==== Sys2Proof/Machine/Bits.lean ====
section
/-! DEFINITION. Bit fields, little-endian bytes, step-number comparison and small list helpers used by every family. -/

namespace Sys2Proof.Machine

/-- Bits [hi:lo] of a number (R11: bit 0 is the least significant bit). -/
def bits (n hi lo : Nat) : Nat := (n >>> lo) % 2 ^ (hi + 1 - lo)

/-- Bit i of a number, as a Bool. -/
def bitAt (n i : Nat) : Bool := n >>> i % 2 == 1

/-- n with bits [hi:lo] replaced by the low bits of v. -/
def putBits (n hi lo v : Nat) : Nat :=
  n - (bits n hi lo) <<< lo + (v % 2 ^ (hi + 1 - lo)) <<< lo

/-- A Bool as 0 or 1. -/
def b2n (b : Bool) : Nat := if b then 1 else 0

/-- The bits of n that are set, among the first w, in ascending order. -/
def setBits (w n : Nat) : List Nat := (List.range w).filter (bitAt n)

/-- The number of bits set among the first w bits of n. -/
def popCount (w n : Nat) : Nat := (setBits w n).length

/-- n sign-extended from w bits, as an integer. -/
def signed (w n : Nat) : Int :=
  if bitAt n (w - 1) then (n % 2 ^ w : Nat) - (2 ^ w : Nat) else (n % 2 ^ w : Nat)

/-- An integer wrapped to w bits. -/
def wrapInt (w : Nat) (i : Int) : Nat := (i % (2 ^ w : Nat)).toNat

/-- The n bytes of v, least significant first (R11, R58, R156: little-endian). -/
def leBytes : Nat → Nat → List Byte
  | 0, _ => []
  | n + 1, v => BitVec.ofNat 8 v :: leBytes n (v / 256)

/-- The number whose little-endian bytes are given. -/
def ofLe : List Byte → Nat
  | [] => 0
  | b :: bs => b.toNat + 256 * ofLe bs

/-- n bytes of a byte string from byte offset o, 0 past its end. -/
def sliceBytes (bs : List Byte) (o n : Nat) : List Byte :=
  let s := (bs.drop o).take n
  s ++ List.replicate (n - s.length) 0

/-- The little-endian field of n bytes at offset o of a byte string. -/
def leAt (bs : List Byte) (o n : Nat) : Nat := ofLe ((bs.drop o).take n)

/-- The 64-bit little-endian words of a byte string. -/
def words64 : Nat → List Byte → List Word
  | 0, _ => []
  | n + 1, bs => BitVec.ofNat 64 (ofLe (bs.take 8)) :: words64 n (bs.drop 8)

/-- A list with element i replaced, unchanged where i lies past its end. -/
def setNth {α : Type} (l : List α) (i : Nat) (v : α) : List α := l.set i v

/-- Step a lies before step b (R8): (b − a) mod 2^32 is from 1 to 2^31 − 1. -/
def stepBefore (a b : Nat) : Bool :=
  let d := (b + 2 ^ 32 - a % 2 ^ 32) % 2 ^ 32
  decide (1 ≤ d ∧ d ≤ 2 ^ 31 - 1)

/-- Step a is at or before step b (R8); two steps 2^31 apart are unordered and answer no. -/
def stepLe (a b : Nat) : Bool := a % 2 ^ 32 == b % 2 ^ 32 || stepBefore a b

/-- The step k after a (R8). -/
def stepAdd (a k : Nat) : Nat := (a + k) % 2 ^ 32

/-- The step k before a (R8). -/
def stepSub (a k : Nat) : Nat := (a + 2 ^ 32 - k % 2 ^ 32) % 2 ^ 32

/-- a rounded up to a multiple of k. -/
def roundUp (a k : Nat) : Nat := (a + k - 1) / k * k

/-- The quotient of a by k, rounded up. -/
def ceilDiv (a k : Nat) : Nat := (a + k - 1) / k

/-- n held below a saturation limit. -/
def satAt (limit n : Nat) : Nat := min limit n

/-- The largest k with k * k ≤ n, by w rounds of bisection from the top bit. -/
def natSqrt : Nat → Nat → Nat → Nat
  | 0, _, acc => acc
  | w + 1, n, acc =>
    let t := acc + 2 ^ w
    natSqrt w n (if t * t ≤ n then t else acc)

/-- floor(log2 n) for n > 0; 0 for 0. -/
def log2 (n : Nat) : Nat := Nat.log2 n

/-- Insert into a strictly rising list of numbers, which stays one. -/
def insertNat (a : Nat) : List Nat → List Nat
  | [] => [a]
  | k :: t => if a < k then a :: k :: t else if a = k then k :: t else k :: insertNat a t

/-- Remove a number from a list. -/
def eraseNat (a : Nat) (l : List Nat) : List Nat := l.filter (fun k => k != a)

end Sys2Proof.Machine
end

