-- ==== Sys2Proof/Machine/Fp.lean ====
section
/-! DEFINITION. The seven number formats (R53 to R58), exact arithmetic on their values, the roundings of R83, R84 and R114, and the pane generator (R120). -/

namespace Sys2Proof.Machine

/-- A value of any format: NaN, an infinity, or (−1)^neg × m × 2^e. Zero keeps its sign (R57). -/
inductive Fp where
  | nan
  | inf (neg : Bool)
  | fin (neg : Bool) (m : Nat) (e : Int)
deriving DecidableEq, Repr

/-- The parameters of a format (R55). -/
structure Fmt where
  /-- Exponent bits E. -/
  eb : Nat
  /-- Mantissa bits M. -/
  mb : Nat
  /-- Bias B. -/
  bias : Nat
  /-- The format has infinities. -/
  hasInf : Bool
  /-- The format has a NaN. -/
  hasNan : Bool
  /-- Elements of a block for a scaled format, 0 for an unscaled one (R59). -/
  block : Nat
deriving DecidableEq, Repr

/-- The format of a code (R53, R55). Codes 7 to 15 are reserved. -/
def fmtOf : Nat → Option Fmt
  | 0 => some ⟨8, 23, 127, true, true, 0⟩
  | 1 => some ⟨8, 7, 127, true, true, 0⟩
  | 2 => some ⟨4, 3, 7, false, true, 32⟩
  | 3 => some ⟨5, 2, 15, true, true, 32⟩
  | 4 => some ⟨3, 2, 3, false, false, 32⟩
  | 5 => some ⟨2, 3, 1, false, false, 32⟩
  | 6 => some ⟨2, 1, 1, false, false, 16⟩
  | _ => none

/-- FP32, code 0. -/
def fp32 : Fmt := ⟨8, 23, 127, true, true, 0⟩
/-- BF16, code 1. -/
def bf16 : Fmt := ⟨8, 7, 127, true, true, 0⟩

/-- The width of an element in bits (R53). -/
def Fmt.width (f : Fmt) : Nat := 1 + f.eb + f.mb

/-- The exponent of the smallest subnormal (R55). -/
def Fmt.emin (f : Fmt) : Int := 1 - (f.bias : Int) - (f.mb : Int)

/-- The largest finite magnitude (R55), as mantissa and exponent. -/
def Fmt.vmax (f : Fmt) : Nat × Int :=
  let top : Int := (2 ^ f.eb : Nat) - 1 - (f.bias : Int)
  if f.hasInf then (2 ^ (f.mb + 1) - 1, top - 1 - (f.mb : Int))
  else if f.hasNan then (2 ^ (f.mb + 1) - 2, top - (f.mb : Int))
  else (2 ^ (f.mb + 1) - 1, top - (f.mb : Int))

/-- The value of an element code (R54, R55). -/
def Fmt.decode (f : Fmt) (c : Nat) : Fp :=
  let neg := bitAt c (f.eb + f.mb)
  let e := bits c (f.eb + f.mb - 1) f.mb
  let m := c % 2 ^ f.mb
  if e = 2 ^ f.eb - 1 ∧ f.hasInf then (if m = 0 then .inf neg else .nan)
  else if e = 2 ^ f.eb - 1 ∧ f.hasNan ∧ m = 2 ^ f.mb - 1 then .nan
  else if e = 0 then .fin neg m f.emin
  else .fin neg (2 ^ f.mb + m) (f.emin + (e : Int) - 1)

/-- The canonical NaN of a format (R56); 0 where the format has none. -/
def Fmt.nanCode (f : Fmt) : Nat :=
  if f.hasInf then (2 ^ f.eb - 1) * 2 ^ f.mb + (if f.mb = 2 then 3 else 2 ^ (f.mb - 1))
  else if f.hasNan then 2 ^ (f.eb + f.mb) - 1
  else 0

/-- The code of a value that the format represents. -/
def Fmt.encode (f : Fmt) : Fp → Nat
  | .nan => f.nanCode
  | .inf neg => b2n neg * 2 ^ (f.eb + f.mb) + (2 ^ f.eb - 1) * 2 ^ f.mb
  | .fin neg m e =>
    let s := b2n neg * 2 ^ (f.eb + f.mb)
    if m = 0 then s
    else
      let k := (e - f.emin).toNat
      let v := if e ≥ f.emin then m <<< k else m >>> (f.emin - e).toNat
      let l := log2 v
      if l ≤ f.mb - 1 ∨ (f.mb = 0) then s + v
      else s + (l - f.mb + 1) * 2 ^ f.mb + (v >>> (l - f.mb)) % 2 ^ f.mb

/-- The three roundings of R83: nearest even, toward zero, stochastic with the 16-bit word r. -/
inductive RMode where
  | nearest
  | toZero
  | stochastic (r : Nat)
deriving DecidableEq, Repr

/-- Whether a discarded remainder of s bits rounds the kept magnitude lo up (R83, R84). -/
def roundsUp (mode : RMode) (lo rem s : Nat) : Bool :=
  match mode with
  | .nearest => decide (2 ^ s < 2 * rem) || (decide (2 * rem = 2 ^ s) && lo % 2 == 1)
  | .toZero => false
  | .stochastic r =>
    let t := if 16 ≤ s then rem >>> (s - 16) else rem <<< (16 - s)
    decide (65536 ≤ t + r)

/-- The magnitude m × 2^e rounded to mb mantissa bits above emin, with an unbounded exponent range (R84, R114). -/
def roundMag (mode : RMode) (mb : Nat) (emin : Int) (m : Nat) (e : Int) : Nat × Int :=
  if m = 0 then (0, emin)
  else
    let q := max ((log2 m : Int) + e - (mb : Int)) emin
    if q ≤ e then (m <<< (e - q).toNat, q)
    else
      let s := (q - e).toNat
      let lo := m >>> s
      (lo + b2n (roundsUp mode lo (m % 2 ^ s) s), q)

/-- The order of two magnitudes. -/
def magLt (m1 : Nat) (e1 : Int) (m2 : Nat) (e2 : Int) : Bool :=
  if e1 ≤ e2 then decide (m1 < m2 <<< (e2 - e1).toNat) else decide (m1 <<< (e1 - e2).toNat < m2)

/-- An exact result rounded once to FP32; ±∞ only where the rounded magnitude exceeds Vmax (R114). -/
def round32 (mode : RMode) : Fp → Fp
  | .fin neg m e =>
    let (m', e') := roundMag mode fp32.mb fp32.emin m e
    if magLt fp32.vmax.1 fp32.vmax.2 m' e' then .inf neg else .fin neg m' e'
  | x => x

/-- Whether a value is finite. -/
def Fp.finite : Fp → Bool
  | .fin _ _ _ => true
  | _ => false

/-- Whether a value is a zero of either sign. -/
def Fp.isZero : Fp → Bool
  | .fin _ m _ => m == 0
  | _ => false

/-- +0. -/
def Fp.zero : Fp := .fin false 0 0
/-- The value with its sign inverted. -/
def Fp.neg : Fp → Fp
  | .nan => .nan
  | .inf s => .inf (!s)
  | .fin s m e => .fin (!s) m e
/-- The magnitude. -/
def Fp.abs : Fp → Fp
  | .nan => .nan
  | .inf _ => .inf false
  | .fin _ m e => .fin false m e
/-- A whole number as a value. -/
def Fp.ofNat (n : Nat) : Fp := .fin false n 0
/-- An integer as a value. -/
def Fp.ofInt (i : Int) : Fp := .fin (decide (i < 0)) i.natAbs 0
/-- 2 to the power k. -/
def Fp.pow2 (k : Int) : Fp := .fin false 1 k

/-- The exact sum, with the sign of an exact zero as IEEE 754 gives it to nearest even. -/
def Fp.addExact : Fp → Fp → Fp
  | .nan, _ => .nan
  | _, .nan => .nan
  | .inf a, .inf b => if a = b then .inf a else .nan
  | .inf a, _ => .inf a
  | _, .inf b => .inf b
  | .fin s1 m1 e1, .fin s2 m2 e2 =>
    let e := min e1 e2
    let a := m1 <<< (e1 - e).toNat
    let b := m2 <<< (e2 - e).toNat
    if s1 = s2 then .fin s1 (a + b) e
    else if a < b then .fin s2 (b - a) e
    else if b < a then .fin s1 (a - b) e
    else .fin false 0 e

/-- The exact product. -/
def Fp.mulExact : Fp → Fp → Fp
  | .nan, _ => .nan
  | _, .nan => .nan
  | .inf a, .inf b => .inf (a != b)
  | .inf a, .fin b m _ => if m = 0 then .nan else .inf (a != b)
  | .fin a m _, .inf b => if m = 0 then .nan else .inf (a != b)
  | .fin s1 m1 e1, .fin s2 m2 e2 => .fin (s1 != s2) (m1 * m2) (e1 + e2)

/-- a + b, correctly rounded (R169). -/
def Fp.add (a b : Fp) : Fp := round32 .nearest (a.addExact b)
/-- a − b, correctly rounded (R169). -/
def Fp.sub (a b : Fp) : Fp := a.add b.neg
/-- a × b, correctly rounded (R169). -/
def Fp.mul (a b : Fp) : Fp := round32 .nearest (a.mulExact b)
/-- a × b + c with one rounding (R169). -/
def Fp.fma (a b c : Fp) : Fp := round32 .nearest ((a.mulExact b).addExact c)

/-- a ÷ b, correctly rounded (R169). A remainder left below the quotient's last bit is kept as one sticky bit. -/
def Fp.div : Fp → Fp → Fp
  | .nan, _ => .nan
  | _, .nan => .nan
  | .inf _, .inf _ => .nan
  | .inf a, .fin b _ _ => .inf (a != b)
  | .fin a _ _, .inf b => .fin (a != b) 0 0
  | .fin s1 m1 e1, .fin s2 m2 e2 =>
    if m2 = 0 then (if m1 = 0 then .nan else .inf (s1 != s2))
    else
      let k := log2 m2 + 64
      let q := (m1 <<< k) / m2
      let r := (m1 <<< k) % m2
      round32 .nearest (.fin (s1 != s2) (2 * q + b2n (r != 0)) (e1 - e2 - (k : Int) - 1))

/-- The square root, correctly rounded (R169); NaN below zero. -/
def Fp.sqrt : Fp → Fp
  | .nan => .nan
  | .inf s => if s then .nan else .inf false
  | .fin s m e =>
    if m = 0 then .fin s 0 0
    else if s then .nan
    else
      let odd := e % 2 ≠ 0
      let m' := (if odd then 2 * m else m) <<< 64
      let e' := (if odd then e - 1 else e) - 64
      let r := natSqrt (log2 m' / 2 + 1) m' 0
      round32 .nearest (.fin false (2 * r + b2n (r * r != m')) (e' / 2 - 1))

/-- a < b as real numbers or infinities; false where either is NaN. -/
def Fp.lt : Fp → Fp → Bool
  | .nan, _ => false
  | _, .nan => false
  | .inf a, .inf b => a && !b
  | .inf a, .fin _ _ _ => a
  | .fin _ _ _, .inf b => !b
  | .fin s1 m1 e1, .fin s2 m2 e2 =>
    if m1 = 0 ∧ m2 = 0 then false
    else if m1 = 0 then !s2
    else if m2 = 0 then s1
    else if s1 ≠ s2 then s1
    else if s1 then magLt m2 e2 m1 e1
    else magLt m1 e1 m2 e2

/-- Equality as IEEE 754 compares (R57: the zeros are equal; NaN equals nothing). -/
def Fp.eq (a b : Fp) : Bool := a != .nan && b != .nan && !a.lt b && !b.lt a

/-- The larger (R169): NaN if either is NaN, and +0 above −0. -/
def Fp.max (a b : Fp) : Fp :=
  if a = .nan ∨ b = .nan then .nan
  else if a.isZero && b.isZero then
    (match a with
     | .fin true _ _ => b
     | _ => a)
  else if a.lt b then b else a

/-- The smaller (R169): NaN if either is NaN, and −0 below +0. -/
def Fp.min (a b : Fp) : Fp :=
  if a = .nan ∨ b = .nan then .nan
  else if a.isZero && b.isZero then
    (match a with
     | .fin true _ _ => a
     | _ => b)
  else if a.lt b then a else b

/-- The FP32 value of a 32-bit code. -/
def f32 (c : Nat) : Fp := fp32.decode (c % 2 ^ 32)
/-- The FP32 code of a value that FP32 represents. -/
def toF32 (x : Fp) : Nat := fp32.encode x

/-- Truncation to BF16 (R64, R128), as the high half of the FP32 code. -/
def rtzBf16 (x : Fp) : Fp := bf16.decode (toF32 x / 65536)

/-- The integer nearest below, for a finite value; 0 otherwise. -/
def Fp.floor : Fp → Int
  | .fin s m e =>
    let i : Int := if 0 ≤ e then (m <<< e.toNat : Nat) else (m >>> (-e).toNat : Nat)
    if s then (if 0 ≤ e ∨ m % 2 ^ (-e).toNat = 0 then -i else -i - 1) else i
  | _ => 0

/-- floor(log2 |x|) of a finite non-zero value. -/
def Fp.expo : Fp → Int
  | .fin _ m e => (log2 m : Int) + e
  | _ => 0

/-- mix of R120. -/
def mix (x : Word) : Word :=
  let x := x ^^^ (x >>> 33)
  let x := x * 0xA3B195C47E2D1F6B#64
  let x := x ^^^ (x >>> 29)
  let x := x * 0xC6F24D1789AE5B35#64
  x ^^^ (x >>> 32)

/-- rng64 of R120: the pane generator of a seed, a domain and a counter. -/
def rng64 (seed : Word) (domain : Nat) (ctr : Word) : Word :=
  mix (mix (seed ^^^ (BitVec.ofNat 64 domain <<< 60)) + ctr)

/-- rng16 of R84 and R120: the word of an element. -/
def rng16 (seed : Word) (domain : Nat) (ctr : Nat) : Nat :=
  (rng64 seed domain (BitVec.ofNat 64 ctr)).toNat % 65536

end Sys2Proof.Machine
end

