-- ==== Sys2Proof/Machine/Approx.lean ====
section
/-! DEFINITION. The functions that R170 bounds and does not fix (log entry 8): the real function enclosed by fixed-point arithmetic, the FP32 values within the bound of the table, and of these the one that a free value selects. -/

namespace Sys2Proof.Machine

/-! ### Enclosures: a lower and an upper bound of a real number, in units of 2^-320 -/

/-- Bounds of a real number that is not negative. -/
abbrev Encl := Nat × Nat
/-- 1. -/
def fxOne : Nat := 2 ^ 320
/-- ln 2, below. -/
def fxLn2 : Nat := 1480553391661173448385607439722553250922680800745876974795605978609098082859138712941075737848984
/-- 2 × √(2/π), below: twice the constant of the tanh form of GELU. -/
def fxGelu : Nat := 3408542156072739055281586052982694989854927286609758701275482310069599811926719476783252336080604

/-- 1 + r/k × (1 + r/(k + 1) × (…)): the series of e^r from term k, every division below or, with up, above. -/
def expSeries (up : Bool) (r : Nat) : Nat → Nat → Nat
  | 0, _ => if up then 2 * fxOne else fxOne
  | n + 1, k => fxOne + (r * expSeries up r n (k + 1)) / (k * fxOne) + b2n up
/-- e^r for 0 ≤ r ≤ 1, below and above. -/
def expLow (r : Nat) : Nat := expSeries false r 90 1
def expHigh (r : Nat) : Nat := expSeries true r 90 1
/-- e^x for x at least 0, 2^200 where it lies above. -/
def expPos (x : Nat) : Encl :=
  let n := x / (fxLn2 + 1)
  if 200 < n then (fxOne <<< 200, fxOne <<< 200) else (expLow (x - n * (fxLn2 + 1)) <<< n, expHigh (x - n * fxLn2) <<< n)
/-- e^(-y) for y at least 0. -/
def expNeg (y : Encl) : Encl :=
  let a := y.2 / fxLn2
  let b := y.1 / fxLn2
  (if 400 < a then 0 else expLow ((a + 1) * fxLn2 - y.2) >>> (a + 1),
   if 400 < b then 1 else (expHigh ((b + 1) * (fxLn2 + 1) - y.1) >>> (b + 1)) + 1)
/-- 1/(2j + 1) + w × (1/(2j + 3) + w × (…)). -/
def atanhSeries (up : Bool) (w : Nat) : Nat → Nat → Nat
  | 0, _ => if up then fxOne else 0
  | n + 1, j => fxOne / (2 * j + 1) + (w * atanhSeries up w n (j + 1)) / fxOne + 2 * b2n up
/-- ln (m / 2^k) for 2^k ≤ m < 2^(k + 1): twice the area tangent of (m - 2^k)/(m + 2^k). -/
def lnMant (m k : Nat) : Encl :=
  let z := ((m - 2 ^ k) * fxOne) / (m + 2 ^ k)
  (2 * (z * atanhSeries false (z * z / fxOne) 110 0 / fxOne), 2 * ((z + 1) * atanhSeries true ((z + 1) * (z + 1) / fxOne + 1) 110 0 / fxOne + 1))
/-- ln (m × 2^e) for m above 0: its sign and its magnitude. -/
def lnEncl (m : Nat) (e : Int) : Bool × Encl :=
  let k := log2 m
  let l := lnMant m k
  let x := e + k
  if 0 ≤ x then (false, (x.toNat * fxLn2 + l.1, x.toNat * (fxLn2 + 1) + l.2))
  else (true, ((-x).toNat * fxLn2 - l.2, (-x).toNat * (fxLn2 + 1) - l.1))
/-- a / b. -/
def enclDiv (a b : Encl) : Encl := (a.1 * fxOne / b.2, a.2 * fxOne / max 1 b.1 + 1)
/-- a × b. -/
def enclMul (a b : Encl) : Encl := (a.1 * b.1 / fxOne, a.2 * b.2 / fxOne + 1)
/-- 1/(1 + e^(-u)), or with neg 1/(1 + e^u), for u at least 0. -/
def sigmoidEncl (neg : Bool) (u : Encl) : Encl :=
  let t := expNeg u
  enclDiv (if neg then t else (fxOne, fxOne)) (fxOne + t.1, fxOne + t.2)
/-- m × 2^e in units of 2^-320, for the exponents of FP32. -/
def fxOf (m : Nat) (e : Int) : Nat := m <<< (e + 320).toNat

/-- A function of R170 at a finite FP32 value: its sign and its magnitude; none outside its domain. GELU is x/2 × (1 + tanh (√(2/π) × (x +
0.044715 x³))), which is x × sigmoid of twice that argument. -/
def approxEncl (op : Nat) (s : Bool) (m : Nat) (e : Int) : Option (Bool × Encl) :=
  let x := fxOf m e
  let one : Encl := (fxOne, fxOne)
  match op with
  | 0x08 => some (false, if s then expNeg (x, x) else expPos x)
  | 0x09 =>
    let n := x / fxOne
    let f := x % fxOne
    if s then some (false, expNeg (x * fxLn2 / fxOne, x * (fxLn2 + 1) / fxOne + 1))
    else if 200 < n then some (false, (fxOne <<< 200, fxOne <<< 200))
    else some (false, (expLow (f * fxLn2 / fxOne) <<< n, expHigh (f * (fxLn2 + 1) / fxOne + 1) <<< n))
  | 0x0A => if m = 0 ∨ s then none else some (lnEncl m e)
  | 0x0B =>
    if m = 0 ∨ s then none
    else
      let l := lnEncl m e
      some (l.1, enclDiv l.2 (fxLn2, fxLn2 + 1))
  | 0x0C => if m = 0 then none else some (s, enclDiv one (x, x))
  | 0x0D =>
    if m = 0 ∨ s then none
    else
      let r := natSqrt 700 (2 ^ 960 / x) 0
      some (false, (r, r + 2))
  | 0x10 =>
    let t := expNeg (2 * x, 2 * x)
    some (s, enclDiv (fxOne - t.2, fxOne - t.1) (fxOne + t.1, fxOne + t.2))
  | 0x11 => some (false, sigmoidEncl s (x, x))
  | 0x12 => some (s, enclMul (x, x) (sigmoidEncl s (x, x)))
  | 0x13 =>
    let w (c : Nat) (d : Nat) : Nat := (x + x * x / fxOne * x / fxOne * 44715 / 1000000 + d) * c / fxOne
    some (s, enclMul (x, x) (sigmoidEncl s (w fxGelu 0, w (fxGelu + 1) (x / fxOne + 3) + 1)))
  | _ => none

/-! ### The values that the table allows -/

/-- The largest error of a function, in units in the last place (R170). -/
def approxUlps (op : Nat) : Nat := if op ≤ 0x0B then 2 else if op ≤ 0x0D then 1 else 4
/-- The unit in the last place of an FP32 value, as the exponent of two in units of 2^-320: of 2^-149 where it is subnormal. -/
def fxUlp (x : Nat) : Nat := max (log2 x - 23) 171
/-- The FP32 values within u units in their last place of a real number. -/
def approxSet (u : Nat) (neg : Bool) (r : Encl) : List Fp :=
  let h := if fxUlp r.1 = 171 then 171 else fxUlp r.1 - 1
  (List.range (6 * u + 16)).filterMap (fun (j : Nat) =>
    let v : Int := ((r.1 >>> h : Nat) : Int) + (j : Int) - (2 * (u : Int) + 4)
    let y : Int := v * (2 ^ h : Nat)
    let x := Fp.fin (neg != decide (v < 0)) v.natAbs ((h : Int) - 320)
    let z := round32 .nearest x
    let dist : Int := (u * 2 ^ fxUlp y.natAbs : Nat)
    if y ≤ r.2 + dist ∧ (r.1 : Int) ≤ y + dist ∧ (!z.finite || z.eq x) then some z else none)

/-- A function of R170 by its VOP on an FP32 value: one of the values that the table allows. NaN in gives NaN out; outside the domain, and at
the infinities, where the spec states no result, a free value. -/
def approxFp (op : Nat) (x : Fp) : Fp :=
  let free := (Config.approx op (BitVec.ofNat 32 (toF32 x))).toNat
  match f32 (toF32 x) with
  | .nan => .nan
  | .inf _ => f32 free
  | .fin s m e =>
    match approxEncl op s m e with
    | none => f32 free
    | some r =>
      let l := approxSet (approxUlps op) r.1 r.2
      l.getD (free % max 1 l.length) .nan

/-- EXP of R170 where the spec writes exp: +0 at −∞ (R176). At 0 it is 1: the bounds of R252 and R273 leave no room for another of the values
within the table's bound (log entry 8). -/
def Fp.exp (x : Fp) : Fp :=
  match x with
  | .inf true => .zero
  | .fin _ 0 _ => .pow2 0
  | _ => approxFp 0x08 x

/-- LOG of R170, also where the spec writes ln. -/
def Fp.ln (x : Fp) : Fp := approxFp 0x0A x

end Sys2Proof.Machine
end

