-- ==== Sys2Proof/Machine/Factory.lean ====
section
/-! DEFINITION. The factory chart as it is written at manufacture (R211). -/

namespace Sys2Proof.Machine

/-- The header of the factory image (R189): IMAGE_ID is 1, BUILD_ID, MINOR and SVN are 0 (log entry 6). -/
def factoryHeader : List Byte :=
  leBytes 8 0x4547414D4947524B ++ leBytes 2 1 ++ leBytes 2 0 ++ leBytes 2 0x6160 ++ leBytes 1 1 ++ leBytes 1 1 ++ leBytes 8 3776 ++ leBytes 8 256 ++
  leBytes 4 6 ++ leBytes 4 0 ++ leBytes 8 1 ++ List.replicate 208 0
/-- An entry of its section table (R191). -/
def factorySect (t count offset size : Nat) : List Byte :=
  leBytes 2 t ++ leBytes 1 1 ++ leBytes 1 1 ++ leBytes 4 count ++ leBytes 8 offset ++ leBytes 8 (count * size) ++ leBytes 8 0
/-- The message of the factory image: no partitions, stages, routes or code; every FABRIC share 16; every pane at 800 MHz in the order B, F, U. -/
def factoryMessage : List Byte :=
  factoryHeader ++ factorySect 1 0 448 64 ++ factorySect 2 0 448 32 ++ factorySect 3 0 448 128 ++ factorySect 4 14 448 8 ++ factorySect 5 384 576 8 ++
  factorySect 6 0 448 65792 ++ (List.range 14).flatMap (fun e => leBytes 1 e ++ List.replicate 4 16 ++ List.replicate 3 0) ++ List.replicate 16 0 ++
  (List.range 384).flatMap (fun _ => leBytes 2 800 ++ leBytes 1 0x12 ++ List.replicate 5 0)
/-- The factory image with its check-word trailer (R204): the digest of the maker key, its signature, SIGNER 1. -/
def factoryImage : List Byte :=
  factoryMessage ++ List.replicate 32 0 ++ leBytes 64 (Config.makerSign factoryMessage).toNat ++ leBytes 1 1 ++ List.replicate 31 0

end Sys2Proof.Machine
end

