-- ==== Sys2Proof/Machine/Tbl.lean ====
section
/-! DEFINITION. Sparse tables in one canonical form: strictly rising keys, no entry equal to the default. -/

namespace Sys2Proof.Machine

/-- A sparse table from numbers to values. A key that is not listed holds the table's default. -/
abbrev Tbl (α : Type) := List (Nat × α)

/-- The value at a key, d where the key is not listed. -/
def Tbl.get {α : Type} (d : α) : Tbl α → Nat → α
  | [], _ => d
  | (k, v) :: t, a => if a = k then v else Tbl.get d t a

/-- The table without a key. -/
def Tbl.erase {α : Type} (t : Tbl α) (a : Nat) : Tbl α := t.filter (fun e => e.1 != a)

/-- The table with value v at a key. Writing the default removes the entry. -/
def Tbl.set {α : Type} [DecidableEq α] (d : α) : Tbl α → Nat → α → Tbl α
  | [], a, v => if v = d then [] else [(a, v)]
  | (k, w) :: t, a, v =>
    if a < k then (if v = d then Tbl.erase ((k, w) :: t) a else (a, v) :: (k, w) :: t)
    else if a = k then (if v = d then Tbl.erase t a else (k, v) :: t)
    else (k, w) :: Tbl.set d t a v

/-- The canonical form: every key above lo, keys strictly rising, no entry equal to the default. -/
def Tbl.wfFrom {α : Type} [DecidableEq α] (d : α) : Nat → Tbl α → Bool
  | _, [] => true
  | lo, (k, v) :: t => decide (lo ≤ k) && decide (v ≠ d) && Tbl.wfFrom d (k + 1) t

/-- The canonical form of a table. -/
def Tbl.wf {α : Type} [DecidableEq α] (d : α) (t : Tbl α) : Bool := Tbl.wfFrom d 0 t

end Sys2Proof.Machine
end

