-- ==== Sys2Proof/Machine/RegMap.lean ====
section
/-! DEFINITION. The register map: every register array of the spec with its fields, their access types (R14) and reset values (R18), and a named constant for every field. Written from the register tables of the spec. -/

namespace Sys2Proof.Machine

/-- The access types of R14. Bits of no listed field are RSV. -/
inductive Access where
  | ro | rw | w1c | rc | wo
deriving DecidableEq, Repr

/-- One field of a register table: bits [hi:lo], access type, numeric reset value. A field that the table resets to
img or hw holds 0 here until the event that sets it (log entry 5). -/
structure FieldSpec where
  hi : Nat
  lo : Nat
  acc : Access
  reset : Nat
deriving DecidableEq, Repr

/-- One index of a register array: first value, number of values, distance in bytes. -/
structure Dim where
  first : Nat
  count : Nat
  stride : Nat
deriving DecidableEq, Repr

/-- A register array: the register with indices i, j, ... lies at base + i × stride_i + j × stride_j + ... in the
provider's BAR0 (R12). Registers that only a virtual function holds lie at 2^28 + p × 2^26 + their VF offset. -/
structure RegArr where
  base : Nat
  dims : List Dim
  fields : List FieldSpec
deriving DecidableEq, Repr

/-- One field of one register array, as the meanings name it. -/
structure Fld where
  base : Nat
  strides : List Nat
  hi : Nat
  lo : Nat
deriving DecidableEq, Repr

/-- The address of the register that holds a field, for the given indices. -/
def Fld.addr (f : Fld) (ix : List Nat) : Nat :=
  f.base + ((f.strides.zip ix).map (fun p => p.1 * p.2)).sum

/-- The value of bits [hi:lo] of a register word. -/
def wordField (w : Word) (hi lo : Nat) : Nat := bits w.toNat hi lo

/-- A register word with bits [hi:lo] replaced. -/
def wordPut (w : Word) (hi lo v : Nat) : Word := BitVec.ofNat 64 (putBits w.toNat hi lo v)

/-- The register file: words by address, 0 where not listed. -/
abbrev Regs := Tbl Word

/-- The word of a register. -/
def Regs.word (r : Regs) (a : Nat) : Word := Tbl.get 0 r a
/-- The register file with one word replaced. -/
def Regs.setWord (r : Regs) (a : Nat) (w : Word) : Regs := Tbl.set 0 r a w
/-- The value of a field. -/
def Regs.fld (r : Regs) (f : Fld) (ix : List Nat) : Nat := wordField (Regs.word r (f.addr ix)) f.hi f.lo
/-- The register file with one field replaced (the low bits of v that the field holds). -/
def Regs.setFld (r : Regs) (f : Fld) (ix : List Nat) (v : Nat) : Regs :=
  Regs.setWord r (f.addr ix) (wordPut (Regs.word r (f.addr ix)) f.hi f.lo v)

/-- The indices at which an offset lies in an array's dimensions, if it does. -/
def dimsAt : List Dim → Nat → Option (List Nat)
  | [], rem => if rem = 0 then some [] else none
  | d :: ds, rem =>
    let i := rem / d.stride
    if d.first ≤ i ∧ i < d.first + d.count then
      (dimsAt ds (rem % d.stride)).map (fun l => i :: l)
    else none

/-- The indices of a register array that an address names, if it names one. -/
def RegArr.at (r : RegArr) (a : Nat) : Option (List Nat) :=
  if a < r.base then none else dimsAt r.dims (a - r.base)

/-- The word a register array resets to. -/
def RegArr.resetWord (r : RegArr) : Word :=
  r.fields.foldl (fun w f => wordPut w f.hi f.lo f.reset) 0

/-- Every address of a register array, in rising order. -/
def RegArr.addrs (r : RegArr) : List Nat :=
  r.dims.foldl (fun as d => as.flatMap (fun a => (List.range d.count).map (fun i => a + (d.first + i) * d.stride))) [r.base]

namespace R

/-- PRT_ID.VENDOR_ID (R1). -/
def PRT_ID_VENDOR_ID : Fld := ⟨0x0, [], 63, 48⟩
/-- PRT_ID.PART_ID (R1). -/
def PRT_ID_PART_ID : Fld := ⟨0x0, [], 47, 32⟩
/-- PRT_ID.GEN (R1). -/
def PRT_ID_GEN : Fld := ⟨0x0, [], 31, 28⟩
/-- PRT_ID.STEP_MAJOR (R1). -/
def PRT_ID_STEP_MAJOR : Fld := ⟨0x0, [], 27, 24⟩
/-- PRT_ID.STEP_MINOR (R1). -/
def PRT_ID_STEP_MINOR : Fld := ⟨0x0, [], 23, 20⟩
/-- PRT_SERIAL.SERIAL (R1). -/
def PRT_SERIAL_SERIAL : Fld := ⟨0x8, [], 63, 0⟩
/-- PRT_CAP_MAP.PRESENT (R44). -/
def PRT_CAP_MAP_PRESENT : Fld := ⟨0x10, [], 63, 0⟩
/-- PRT_STATUS.PHASE (R212). -/
def PRT_STATUS_PHASE : Fld := ⟨0x18, [], 63, 60⟩
/-- PRT_STATUS.RESET_CAUSE (R212). -/
def PRT_STATUS_RESET_CAUSE : Fld := ⟨0x18, [], 59, 57⟩
/-- PRT_STATUS.PREV_UNANNOUNCED (R212). -/
def PRT_STATUS_PREV_UNANNOUNCED : Fld := ⟨0x18, [], 56, 56⟩
/-- PRT_STATUS.FEED_ID (R212). -/
def PRT_STATUS_FEED_ID : Fld := ⟨0x18, [], 55, 52⟩
/-- PRT_STATUS.SMB_ADDR (R212). -/
def PRT_STATUS_SMB_ADDR : Fld := ⟨0x18, [], 51, 49⟩
/-- PRT_STATUS.REFCLK_OK (R212). -/
def PRT_STATUS_REFCLK_OK : Fld := ⟨0x18, [], 48, 48⟩
/-- PRT_STATUS.CHART (R212). -/
def PRT_STATUS_CHART : Fld := ⟨0x18, [], 3, 2⟩
/-- PRT_STATUS.CFG_NONE (R212). -/
def PRT_STATUS_CFG_NONE : Fld := ⟨0x18, [], 1, 1⟩
/-- PRT_STATUS.CFG_FALLBACK (R212). -/
def PRT_STATUS_CFG_FALLBACK : Fld := ⟨0x18, [], 0, 0⟩
/-- PRT_LAYOUT.PANES_ENABLED (R381). -/
def PRT_LAYOUT_PANES_ENABLED : Fld := ⟨0x20, [], 63, 52⟩
/-- PRT_LAYOUT.SPARES_MIN (R381). -/
def PRT_LAYOUT_SPARES_MIN : Fld := ⟨0x20, [], 51, 48⟩
/-- PRT_LAYOUT.HBM_GIB (R381). -/
def PRT_LAYOUT_HBM_GIB : Fld := ⟨0x20, [], 47, 36⟩
/-- PRT_LAYOUT.TRANSOM_MIB (R381). -/
def PRT_LAYOUT_TRANSOM_MIB : Fld := ⟨0x20, [], 35, 22⟩
/-- PRT_BRIDGE_STATUS.EDGE (R38). -/
def PRT_BRIDGE_STATUS_EDGE : Fld := ⟨0x28, [], 55, 0⟩
/-- PRT_PANE_MAP.SPARES (R30). -/
def PRT_PANE_MAP_SPARES : Fld := ⟨0x40, [0x8], 51, 48⟩
/-- PRT_PANE_MAP.PRESENT (R30). -/
def PRT_PANE_MAP_PRESENT : Fld := ⟨0x40, [0x8], 47, 0⟩
/-- PRT_CAP_MAPW.PRESENT (R44). -/
def PRT_CAP_MAPW_PRESENT : Fld := ⟨0x80, [0x8], 63, 0⟩
/-- PRT_CAP_ENTRY.PARAM (R45). -/
def PRT_CAP_ENTRY_PARAM : Fld := ⟨0x100, [0x8], 47, 32⟩
/-- PRT_CAP_ENTRY.VERSION (R45). -/
def PRT_CAP_ENTRY_VERSION : Fld := ⟨0x100, [0x8], 31, 16⟩
/-- PRT_CAP_ENTRY.CAP_ID (R45). -/
def PRT_CAP_ENTRY_CAP_ID : Fld := ⟨0x100, [0x8], 15, 8⟩
/-- PRT_CAP_ENTRY.PRESENT (R45). -/
def PRT_CAP_ENTRY_PRESENT : Fld := ⟨0x100, [0x8], 0, 0⟩
/-- PRT_HOSTERR.LAST_OFFSET (R474). -/
def PRT_HOSTERR_LAST_OFFSET : Fld := ⟨0xa00, [0x8], 63, 32⟩
/-- PRT_HOSTERR.UNMAPPED (R474). -/
def PRT_HOSTERR_UNMAPPED : Fld := ⟨0xa00, [0x8], 31, 16⟩
/-- PRT_HOSTERR.BADACCESS (R474). -/
def PRT_HOSTERR_BADACCESS : Fld := ⟨0xa00, [0x8], 15, 0⟩
/-- PRT_POWER.INPUT_MV (R630). -/
def PRT_POWER_INPUT_MV : Fld := ⟨0xc00, [], 63, 48⟩
/-- PRT_POWER.INPUT_W (R630). -/
def PRT_POWER_INPUT_W : Fld := ⟨0xc00, [], 47, 34⟩
/-- PRT_POWER.PEAK_W (R630). -/
def PRT_POWER_PEAK_W : Fld := ⟨0xc00, [], 33, 20⟩
/-- PRT_POWER.LIMITING (R630). -/
def PRT_POWER_LIMITING : Fld := ⟨0xc00, [], 19, 19⟩
/-- PRT_PWRCAP.CAP_W (R630). -/
def PRT_PWRCAP_CAP_W : Fld := ⟨0xc08, [], 63, 50⟩
/-- PRT_PWRCAP.CLK_MHZ (R630). -/
def PRT_PWRCAP_CLK_MHZ : Fld := ⟨0xc08, [], 49, 38⟩
/-- PRT_THERM.TEMP (R639). -/
def PRT_THERM_TEMP : Fld := ⟨0xc40, [0x8], 63, 56⟩
/-- PRT_THERM.MAX_TEMP (R639). -/
def PRT_THERM_MAX_TEMP : Fld := ⟨0xc40, [0x8], 55, 48⟩
/-- PRT_THERM.THROTTLE (R639). -/
def PRT_THERM_THROTTLE : Fld := ⟨0xc40, [0x8], 47, 47⟩
/-- PRT_HP_LINK.UP (R448). -/
def PRT_HP_LINK_UP : Fld := ⟨0xd00, [0x8], 63, 63⟩
/-- PRT_HP_LINK.PERST (R448). -/
def PRT_HP_LINK_PERST : Fld := ⟨0xd00, [0x8], 62, 62⟩
/-- PRT_HP_LINK.RATE (R448). -/
def PRT_HP_LINK_RATE : Fld := ⟨0xd00, [0x8], 61, 59⟩
/-- PRT_HP_LINK.WIDTH (R448). -/
def PRT_HP_LINK_WIDTH : Fld := ⟨0xd00, [0x8], 58, 54⟩
/-- PRT_MARGIN_CMD.OP (R641). -/
def PRT_MARGIN_CMD_OP : Fld := ⟨0xe00, [], 63, 60⟩
/-- PRT_MARGIN_CMD.TARGET (R641). -/
def PRT_MARGIN_CMD_TARGET : Fld := ⟨0xe00, [], 59, 51⟩
/-- PRT_MARGIN_CMD.HBM_RATE (R641). -/
def PRT_MARGIN_CMD_HBM_RATE : Fld := ⟨0xe00, [], 50, 49⟩
/-- PRT_MARGIN_STAT.BUSY (R641). -/
def PRT_MARGIN_STAT_BUSY : Fld := ⟨0xe08, [], 63, 63⟩
/-- PRT_MARGIN_STAT.CODE (R641). -/
def PRT_MARGIN_STAT_CODE : Fld := ⟨0xe08, [], 62, 55⟩
/-- PRT_MARGIN_STAT.TARGET (R641). -/
def PRT_MARGIN_STAT_TARGET : Fld := ⟨0xe08, [], 54, 46⟩
/-- PRT_MARGIN_STAT.WINDOW_MV (R641). -/
def PRT_MARGIN_STAT_WINDOW_MV : Fld := ⟨0xe08, [], 45, 34⟩
/-- PRT_MARGIN_STAT.WINDOW_MUI (R641). -/
def PRT_MARGIN_STAT_WINDOW_MUI : Fld := ⟨0xe08, [], 33, 22⟩
/-- CFG_RUN_ID.IMAGE_ID (R227). -/
def CFG_RUN_ID_IMAGE_ID : Fld := ⟨0x100000, [], 63, 0⟩
/-- CFG_RUN.CHART (R227). -/
def CFG_RUN_CHART : Fld := ⟨0x100008, [], 63, 62⟩
/-- CFG_RUN.FACTORY (R227). -/
def CFG_RUN_FACTORY : Fld := ⟨0x100008, [], 61, 61⟩
/-- CFG_RUN.BANK (R227). -/
def CFG_RUN_BANK : Fld := ⟨0x100008, [], 60, 60⟩
/-- CFG_RUN.MODIFIED (R227). -/
def CFG_RUN_MODIFIED : Fld := ⟨0x100008, [], 59, 59⟩
/-- CFG_RUN.MAJOR (R227). -/
def CFG_RUN_MAJOR : Fld := ⟨0x100008, [], 55, 48⟩
/-- CFG_RUN.MINOR (R227). -/
def CFG_RUN_MINOR : Fld := ⟨0x100008, [], 47, 40⟩
/-- CFG_RUN.EPOCH (R227). -/
def CFG_RUN_EPOCH : Fld := ⟨0x100008, [], 39, 0⟩
/-- CFG_STATUS.LOAD_CODE (R207). -/
def CFG_STATUS_LOAD_CODE : Fld := ⟨0x100010, [], 63, 56⟩
/-- CFG_STATUS.FACTORY_CODE (R207). -/
def CFG_STATUS_FACTORY_CODE : Fld := ⟨0x100010, [], 55, 48⟩
/-- CFG_STATUS.FAIL_SECTION (R207). -/
def CFG_STATUS_FAIL_SECTION : Fld := ⟨0x100010, [], 47, 32⟩
/-- CFG_STATUS.FAIL_ENTRY (R207). -/
def CFG_STATUS_FAIL_ENTRY : Fld := ⟨0x100010, [], 31, 8⟩
/-- CFG_CHART.PRESENT (R210). -/
def CFG_CHART_PRESENT : Fld := ⟨0x100020, [0x8], 63, 63⟩
/-- CFG_CHART.CUR_BANK (R210). -/
def CFG_CHART_CUR_BANK : Fld := ⟨0x100020, [0x8], 62, 62⟩
/-- CFG_CHART.OTHER_VALID (R210). -/
def CFG_CHART_OTHER_VALID : Fld := ⟨0x100020, [0x8], 61, 61⟩
/-- CFG_CHART.GEN (R210). -/
def CFG_CHART_GEN : Fld := ⟨0x100020, [0x8], 31, 0⟩
/-- CFG_CHART_CMD.OP (R216). -/
def CFG_CHART_CMD_OP : Fld := ⟨0x100040, [], 63, 60⟩
/-- CFG_CHART_CMD.CHART (R216). -/
def CFG_CHART_CMD_CHART : Fld := ⟨0x100040, [], 59, 58⟩
/-- CFG_CHART_CMD.FORCE (R216). -/
def CFG_CHART_CMD_FORCE : Fld := ⟨0x100040, [], 57, 57⟩
/-- CFG_CHART_ADDR.ADDR (R216). -/
def CFG_CHART_ADDR_ADDR : Fld := ⟨0x100048, [], 63, 12⟩
/-- CFG_CHART_LEN.LEN (R216). -/
def CFG_CHART_LEN_LEN : Fld := ⟨0x100050, [], 25, 0⟩
/-- CFG_CHART_STATUS.BUSY (R216). -/
def CFG_CHART_STATUS_BUSY : Fld := ⟨0x100058, [], 63, 63⟩
/-- CFG_CHART_STATUS.OP (R216). -/
def CFG_CHART_STATUS_OP : Fld := ⟨0x100058, [], 62, 59⟩
/-- CFG_CHART_STATUS.CODE (R216). -/
def CFG_CHART_STATUS_CODE : Fld := ⟨0x100058, [], 58, 51⟩
/-- CFG_CHART_STATUS.DONE_KIB (R216). -/
def CFG_CHART_STATUS_DONE_KIB : Fld := ⟨0x100058, [], 31, 0⟩
/-- CFG_PEPOCH.EPOCH (R227). -/
def CFG_PEPOCH_EPOCH : Fld := ⟨0x100100, [0x8], 31, 0⟩
/-- CFG_TXN_BEGIN.GO (R224). -/
def CFG_TXN_BEGIN_GO : Fld := ⟨0x101000, [0x100], 63, 0⟩
/-- CFG_TXN_COMMIT.TIMEOUT (R224). -/
def CFG_TXN_COMMIT_TIMEOUT : Fld := ⟨0x101008, [0x100], 19, 0⟩
/-- CFG_TXN_ABORT.GO (R224). -/
def CFG_TXN_ABORT_GO : Fld := ⟨0x101010, [0x100], 63, 0⟩
/-- CFG_TXN_WADDR.SETTING (R224). -/
def CFG_TXN_WADDR_SETTING : Fld := ⟨0x101018, [0x100], 63, 0⟩
/-- CFG_TXN_WDATA.VALUE (R224). -/
def CFG_TXN_WDATA_VALUE : Fld := ⟨0x101020, [0x100], 63, 0⟩
/-- CFG_TXN_DELTA_ADDR.ADDR (R224). -/
def CFG_TXN_DELTA_ADDR_ADDR : Fld := ⟨0x101028, [0x100], 63, 6⟩
/-- CFG_TXN_DELTA_LEN.LEN (R224). -/
def CFG_TXN_DELTA_LEN_LEN : Fld := ⟨0x101030, [0x100], 24, 0⟩
/-- CFG_TXN_STATUS.STATE (R224). -/
def CFG_TXN_STATUS_STATE : Fld := ⟨0x101038, [0x100], 63, 61⟩
/-- CFG_TXN_STATUS.RESULT (R224). -/
def CFG_TXN_STATUS_RESULT : Fld := ⟨0x101038, [0x100], 60, 53⟩
/-- CFG_TXN_STATUS.WRITES (R224). -/
def CFG_TXN_STATUS_WRITES : Fld := ⟨0x101038, [0x100], 52, 40⟩
/-- CFG_TXN_STATUS.DELTA (R224). -/
def CFG_TXN_STATUS_DELTA : Fld := ⟨0x101038, [0x100], 39, 39⟩
/-- CFG_TXN_STATUS.HOLDING (R224). -/
def CFG_TXN_STATUS_HOLDING : Fld := ⟨0x101038, [0x100], 38, 38⟩
/-- CFG_TXN_APPLIED.TIME (R224). -/
def CFG_TXN_APPLIED_TIME : Fld := ⟨0x101040, [0x100], 63, 0⟩
/-- PTN_PSTATE.STATE (R485). -/
def PTN_PSTATE_STATE : Fld := ⟨0x200000, [0x100], 63, 61⟩
/-- PTN_PSTATE.CODE (R485). -/
def PTN_PSTATE_CODE : Fld := ⟨0x200000, [0x100], 60, 53⟩
/-- PTN_PSTATE.FAULT_CAUSE (R485). -/
def PTN_PSTATE_FAULT_CAUSE : Fld := ⟨0x200000, [0x100], 52, 45⟩
/-- PTN_PSTATE.MODE (R485). -/
def PTN_PSTATE_MODE : Fld := ⟨0x200000, [0x100], 44, 44⟩
/-- PTN_PCMD.OP (R485). -/
def PTN_PCMD_OP : Fld := ⟨0x200008, [0x100], 63, 60⟩
/-- PTN_PTIME.TIME (R485). -/
def PTN_PTIME_TIME : Fld := ⟨0x200010, [0x100], 63, 0⟩
/-- PTN_PSLICE.DEBT_US (R496). -/
def PTN_PSLICE_DEBT_US : Fld := ⟨0x200018, [0x100], 63, 44⟩
/-- PTN_PSLICE.LAST_O_US (R496). -/
def PTN_PSLICE_LAST_O_US : Fld := ⟨0x200018, [0x100], 43, 24⟩
/-- PTN_PSLICE.SLICES (R496). -/
def PTN_PSLICE_SLICES : Fld := ⟨0x200018, [0x100], 23, 0⟩
/-- PTN_PSMAP.VALID (R502). -/
def PTN_PSMAP_VALID : Fld := ⟨0x200040, [0x100, 0x8], 63, 63⟩
/-- PTN_PSMAP.REGION (R502). -/
def PTN_PSMAP_REGION : Fld := ⟨0x200040, [0x100, 0x8], 62, 57⟩
/-- PTN_PSMAP.VBASE (R502). -/
def PTN_PSMAP_VBASE : Fld := ⟨0x200040, [0x100, 0x8], 56, 37⟩
/-- PTN_PANE_TICKS.COUNT (R506). -/
def PTN_PANE_TICKS_COUNT : Fld := ⟨0x210000, [0x100], 63, 0⟩
/-- PTN_EXEMPT_TICKS.COUNT (R506). -/
def PTN_EXEMPT_TICKS_COUNT : Fld := ⟨0x210008, [0x100], 63, 0⟩
/-- PTN_HOLD_TICKS.COUNT (R506). -/
def PTN_HOLD_TICKS_COUNT : Fld := ⟨0x210010, [0x100], 63, 0⟩
/-- PTN_OVERRUN_TICKS.COUNT (R506). -/
def PTN_OVERRUN_TICKS_COUNT : Fld := ⟨0x210018, [0x100], 63, 0⟩
/-- PTN_HBM_RD_BYTES.COUNT (R506). -/
def PTN_HBM_RD_BYTES_COUNT : Fld := ⟨0x210020, [0x100], 63, 0⟩
/-- PTN_HBM_WR_BYTES.COUNT (R506). -/
def PTN_HBM_WR_BYTES_COUNT : Fld := ⟨0x210028, [0x100], 63, 0⟩
/-- PTN_FAR_BYTES.COUNT (R506). -/
def PTN_FAR_BYTES_COUNT : Fld := ⟨0x210030, [0x100], 63, 0⟩
/-- PTN_LINK_TX_BYTES.COUNT (R506). -/
def PTN_LINK_TX_BYTES_COUNT : Fld := ⟨0x210038, [0x100], 63, 0⟩
/-- PTN_LINK_RX_BYTES.COUNT (R506). -/
def PTN_LINK_RX_BYTES_COUNT : Fld := ⟨0x210040, [0x100], 63, 0⟩
/-- PTN_HOST_BYTES.COUNT (R506). -/
def PTN_HOST_BYTES_COUNT : Fld := ⟨0x210048, [0x100], 63, 0⟩
/-- PTN_HATCH_CMDS.COUNT (R506). -/
def PTN_HATCH_CMDS_COUNT : Fld := ⟨0x210050, [0x100], 63, 0⟩
/-- PTN_REQUESTS.COUNT (R506). -/
def PTN_REQUESTS_COUNT : Fld := ⟨0x210058, [0x100], 63, 0⟩
/-- PTN_STEPS.COUNT (R506). -/
def PTN_STEPS_COUNT : Fld := ⟨0x210060, [0x100], 63, 0⟩
/-- PTN_PROMPT_TOKENS.COUNT (R506). -/
def PTN_PROMPT_TOKENS_COUNT : Fld := ⟨0x210068, [0x100], 63, 0⟩
/-- PTN_GEN_TOKENS.COUNT (R506). -/
def PTN_GEN_TOKENS_COUNT : Fld := ⟨0x210070, [0x100], 63, 0⟩
/-- PTN_MSNAP.GO (R506). -/
def PTN_MSNAP_GO : Fld := ⟨0x210078, [0x100], 63, 0⟩
/-- PTN_SNAP_TIME.TIME (R506). -/
def PTN_SNAP_TIME_TIME : Fld := ⟨0x210080, [0x100], 63, 0⟩
/-- PTN_SREG.STATE (R501). -/
def PTN_SREG_STATE : Fld := ⟨0x204000, [0x20], 63, 61⟩
/-- PTN_SREG.OP (R501). -/
def PTN_SREG_OP : Fld := ⟨0x204000, [0x20], 60, 58⟩
/-- PTN_SREG.SRC (R501). -/
def PTN_SREG_SRC : Fld := ⟨0x204000, [0x20], 57, 56⟩
/-- PTN_SREG.CODE (R501). -/
def PTN_SREG_CODE : Fld := ⟨0x204000, [0x20], 55, 48⟩
/-- PTN_SREG.PAGES (R501). -/
def PTN_SREG_PAGES : Fld := ⟨0x204000, [0x20], 47, 28⟩
/-- PTN_SREG.STACKS (R501). -/
def PTN_SREG_STACKS : Fld := ⟨0x204000, [0x20], 27, 12⟩
/-- PTN_SREG_ADDR.ADDR (R501). -/
def PTN_SREG_ADDR_ADDR : Fld := ⟨0x204008, [0x20], 63, 12⟩
/-- PTN_SREG_MAPS.MAPS (R501). -/
def PTN_SREG_MAPS_MAPS : Fld := ⟨0x204010, [0x20], 63, 58⟩
/-- PTN_GROUP.FIRST (R495). -/
def PTN_GROUP_FIRST : Fld := ⟨0x206000, [0x8], 63, 58⟩
/-- PTN_GROUP.CURRENT (R495). -/
def PTN_GROUP_CURRENT : Fld := ⟨0x206000, [0x8], 57, 52⟩
/-- PTN_GROUP.SWITCH_TICKS (R495). -/
def PTN_GROUP_SWITCH_TICKS : Fld := ⟨0x206000, [0x8], 47, 0⟩
/-- HTC_BASE.BASE (R458). -/
def HTC_BASE_BASE : Fld := ⟨0x300000, [0x1000, 0x100, 0x8], 63, 0⟩
/-- HTC_TARGET.ENABLE (R463). -/
def HTC_TARGET_ENABLE : Fld := ⟨0x300040, [0x1000, 0x100], 63, 63⟩
/-- HTC_TARGET.PANE (R463). -/
def HTC_TARGET_PANE : Fld := ⟨0x300040, [0x1000, 0x100], 62, 51⟩
/-- HTC_TARGET.CODE (R463). -/
def HTC_TARGET_CODE : Fld := ⟨0x300040, [0x1000, 0x100], 50, 43⟩
/-- HTC_CREDIT.NEXT (R463). -/
def HTC_CREDIT_NEXT : Fld := ⟨0x300048, [0x1000, 0x100], 63, 32⟩
/-- HTC_CREDIT.CREDIT (R463). -/
def HTC_CREDIT_CREDIT : Fld := ⟨0x300048, [0x1000, 0x100], 31, 21⟩
/-- HTC_CREDIT.OCCUPIED (R463). -/
def HTC_CREDIT_OCCUPIED : Fld := ⟨0x300048, [0x1000, 0x100], 20, 10⟩
/-- HTC_STAT.HATCH_OVERRUN (R463). -/
def HTC_STAT_HATCH_OVERRUN : Fld := ⟨0x300050, [0x1000, 0x100], 63, 63⟩
/-- HTC_STAT.BAD_SEAL (R463). -/
def HTC_STAT_BAD_SEAL : Fld := ⟨0x300050, [0x1000, 0x100], 62, 62⟩
/-- HTC_STAT.OVERRUNS (R463). -/
def HTC_STAT_OVERRUNS : Fld := ⟨0x300050, [0x1000, 0x100], 47, 32⟩
/-- HTC_STAT.BAD_SEALS (R463). -/
def HTC_STAT_BAD_SEALS : Fld := ⟨0x300050, [0x1000, 0x100], 31, 16⟩
/-- HTC_STAT.REFUSED (R463). -/
def HTC_STAT_REFUSED : Fld := ⟨0x300050, [0x1000, 0x100], 15, 0⟩
/-- HTC_CRING.ADDR (R463). -/
def HTC_CRING_ADDR : Fld := ⟨0x300058, [0x1000, 0x100], 63, 12⟩
/-- HTC_CRCFG.PAGES (R463). -/
def HTC_CRCFG_PAGES : Fld := ⟨0x300060, [0x1000, 0x100], 63, 44⟩
/-- HTC_CRCFG.COALESCE_US (R463). -/
def HTC_CRCFG_COALESCE_US : Fld := ⟨0x300060, [0x1000, 0x100], 43, 28⟩
/-- HTC_CRCFG.COALESCE_COUNT (R463). -/
def HTC_CRCFG_COALESCE_COUNT : Fld := ⟨0x300060, [0x1000, 0x100], 27, 20⟩
/-- HTC_CHEAD.HEAD (R470). -/
def HTC_CHEAD_HEAD : Fld := ⟨0x300070, [0x1000, 0x100], 63, 0⟩
/-- HTC_CTAIL.TAIL (R470). -/
def HTC_CTAIL_TAIL : Fld := ⟨0x300078, [0x1000, 0x100], 63, 0⟩
/-- HTC_HOSTERR.LAST_OFFSET (R474). -/
def HTC_HOSTERR_LAST_OFFSET : Fld := ⟨0x10050400, [0x4000000], 63, 32⟩
/-- HTC_HOSTERR.UNMAPPED (R474). -/
def HTC_HOSTERR_UNMAPPED : Fld := ⟨0x10050400, [0x4000000], 31, 16⟩
/-- HTC_HOSTERR.BADACCESS (R474). -/
def HTC_HOSTERR_BADACCESS : Fld := ⟨0x10050400, [0x4000000], 15, 0⟩
/-- GZT_PQUOTA.ENTRY_BASE (R331). -/
def GZT_PQUOTA_ENTRY_BASE : Fld := ⟨0x500000, [0x8], 63, 50⟩
/-- GZT_PQUOTA.ENTRY_COUNT (R331). -/
def GZT_PQUOTA_ENTRY_COUNT : Fld := ⟨0x500000, [0x8], 49, 35⟩
/-- GZT_PQUOTA.HANDLES (R331). -/
def GZT_PQUOTA_HANDLES : Fld := ⟨0x500000, [0x8], 34, 22⟩
/-- GZT_PQUOTA.OVL_VERS (R331). -/
def GZT_PQUOTA_OVL_VERS : Fld := ⟨0x500000, [0x8], 21, 11⟩
/-- GZT_PATLAS.SLOTS (R328). -/
def GZT_PATLAS_SLOTS : Fld := ⟨0x500200, [0x8], 63, 0⟩
/-- GZT_PCFG.ENABLE (R345). -/
def GZT_PCFG_ENABLE : Fld := ⟨0x501000, [0x100], 63, 63⟩
/-- GZT_PCFG.LINGER (R345). -/
def GZT_PCFG_LINGER : Fld := ⟨0x501000, [0x100], 62, 48⟩
/-- GZT_PCFG.SPROF_BASE (R345). -/
def GZT_PCFG_SPROF_BASE : Fld := ⟨0x501000, [0x100], 47, 24⟩
/-- GZT_PCFG.SPROF_COUNT (R345). -/
def GZT_PCFG_SPROF_COUNT : Fld := ⟨0x501000, [0x100], 23, 16⟩
/-- GZT_PSTAGE.TOKLOG_BASE (R345). -/
def GZT_PSTAGE_TOKLOG_BASE : Fld := ⟨0x501008, [0x100], 63, 40⟩
/-- GZT_PSTAGE.STAGE_BASE (R345). -/
def GZT_PSTAGE_STAGE_BASE : Fld := ⟨0x501008, [0x100], 39, 16⟩
/-- GZT_PSTAGE.STAGE_MIB (R345). -/
def GZT_PSTAGE_STAGE_MIB : Fld := ⟨0x501008, [0x100], 15, 0⟩
/-- GZT_PKV.BASE (R345). -/
def GZT_PKV_BASE : Fld := ⟨0x501010, [0x100], 59, 30⟩
/-- GZT_PKV.UNITS (R345). -/
def GZT_PKV_UNITS : Fld := ⟨0x501010, [0x100], 29, 13⟩
/-- GZT_PKV.UNIT_2MIB (R345). -/
def GZT_PKV_UNIT_2MIB : Fld := ⟨0x501010, [0x100], 12, 5⟩
/-- GZT_PPLIST.BASE (R345). -/
def GZT_PPLIST_BASE : Fld := ⟨0x501018, [0x100], 63, 16⟩
/-- GZT_PPLIST.STRIDE (R345). -/
def GZT_PPLIST_STRIDE : Fld := ⟨0x501018, [0x100], 15, 0⟩
/-- GZT_POUT.ADDR (R345). -/
def GZT_POUT_ADDR : Fld := ⟨0x501020, [0x100], 63, 12⟩
/-- GZT_POUTCFG.PAGES (R345). -/
def GZT_POUTCFG_PAGES : Fld := ⟨0x501028, [0x100], 63, 44⟩
/-- GZT_POUTCFG.COALESCE_US (R345). -/
def GZT_POUTCFG_COALESCE_US : Fld := ⟨0x501028, [0x100], 43, 28⟩
/-- GZT_PSTAT.REFUSED (R345). -/
def GZT_PSTAT_REFUSED : Fld := ⟨0x501040, [0x100], 63, 48⟩
/-- GZT_PSTAT.SHED (R345). -/
def GZT_PSTAT_SHED : Fld := ⟨0x501040, [0x100], 47, 32⟩
/-- GZT_PSTAT.MISSES (R345). -/
def GZT_PSTAT_MISSES : Fld := ⟨0x501040, [0x100], 31, 16⟩
/-- GZT_PSTAT.MASK_WAIT (R345). -/
def GZT_PSTAT_MASK_WAIT : Fld := ⟨0x501040, [0x100], 15, 0⟩
/-- GZT_PSPACE.KV_FREE (R345). -/
def GZT_PSPACE_KV_FREE : Fld := ⟨0x501048, [0x100], 63, 47⟩
/-- GZT_PSPACE.KV_RESERVED (R345). -/
def GZT_PSPACE_KV_RESERVED : Fld := ⟨0x501048, [0x100], 46, 30⟩
/-- GZT_PSPACE.ENTRIES_FREE (R345). -/
def GZT_PSPACE_ENTRIES_FREE : Fld := ⟨0x501048, [0x100], 29, 15⟩
/-- GZT_PAIRCFG.ENABLE (R345). -/
def GZT_PAIRCFG_ENABLE : Fld := ⟨0x501080, [0x100], 63, 63⟩
/-- GZT_PAIRCFG.PAIR_ALLOW_CORRELATED (R345). -/
def GZT_PAIRCFG_PAIR_ALLOW_CORRELATED : Fld := ⟨0x501080, [0x100], 62, 62⟩
/-- GZT_PAIRCFG.PEER (R345). -/
def GZT_PAIRCFG_PEER : Fld := ⟨0x501080, [0x100], 61, 46⟩
/-- GZT_PAIRSTAT.STATE (R345). -/
def GZT_PAIRSTAT_STATE : Fld := ⟨0x501098, [0x100], 63, 62⟩
/-- GZT_PAIRSTAT.CODE (R345). -/
def GZT_PAIRSTAT_CODE : Fld := ⟨0x501098, [0x100], 61, 54⟩
/-- GZT_PAIRSTAT.PEER_FEED (R345). -/
def GZT_PAIRSTAT_PEER_FEED : Fld := ⟨0x501098, [0x100], 53, 50⟩
/-- GZT_PAIRSTAT.OWN_FEED (R345). -/
def GZT_PAIRSTAT_OWN_FEED : Fld := ⟨0x501098, [0x100], 49, 46⟩
/-- GZT_PAIRSTAT.STANDBY (R345). -/
def GZT_PAIRSTAT_STANDBY : Fld := ⟨0x501098, [0x100], 45, 32⟩
/-- GZT_PAIRSTAT.PROMOTED (R345). -/
def GZT_PAIRSTAT_PROMOTED : Fld := ⟨0x501098, [0x100], 31, 16⟩
/-- GZT_PAIRSTAT.MISSED (R345). -/
def GZT_PAIRSTAT_MISSED : Fld := ⟨0x501098, [0x100], 15, 0⟩
/-- GZT_POUT_HEAD.HEAD (R345). -/
def GZT_POUT_HEAD_HEAD : Fld := ⟨0x501030, [0x100], 63, 0⟩
/-- GZT_POUT_TAIL.TAIL (R345). -/
def GZT_POUT_TAIL_TAIL : Fld := ⟨0x501038, [0x100], 63, 0⟩
/-- GZT_PAIRSTBY.BASE (R595). -/
def GZT_PAIRSTBY_BASE : Fld := ⟨0x501088, [0x100], 63, 40⟩
/-- GZT_PAIRSTORE.BASE (R595). -/
def GZT_PAIRSTORE_BASE : Fld := ⟨0x501090, [0x100], 63, 34⟩
/-- GZT_PAIRSTORE.STRIDE (R595). -/
def GZT_PAIRSTORE_STRIDE : Fld := ⟨0x501090, [0x100], 33, 8⟩
/-- GZT_PIPECTL.ENABLE (R326). -/
def GZT_PIPECTL_ENABLE : Fld := ⟨0x504000, [0x40], 63, 63⟩
/-- GZT_PIPECTL.PARTITION (R326). -/
def GZT_PIPECTL_PARTITION : Fld := ⟨0x504000, [0x40], 62, 55⟩
/-- GZT_PIPECTL.FIRST_STAGE (R326). -/
def GZT_PIPECTL_FIRST_STAGE : Fld := ⟨0x504000, [0x40], 54, 43⟩
/-- GZT_PIPECTL.STAGES (R326). -/
def GZT_PIPECTL_STAGES : Fld := ⟨0x504000, [0x40], 42, 38⟩
/-- GZT_PIPECTL.GROUPS (R326). -/
def GZT_PIPECTL_GROUPS : Fld := ⟨0x504000, [0x40], 37, 35⟩
/-- GZT_PIPECTL.SAMPLERS (R326). -/
def GZT_PIPECTL_SAMPLERS : Fld := ⟨0x504000, [0x40], 34, 27⟩
/-- GZT_PIPECTL.CLASS (R326). -/
def GZT_PIPECTL_CLASS : Fld := ⟨0x504000, [0x40], 26, 19⟩
/-- GZT_PIPECTL.ENTRY (R326). -/
def GZT_PIPECTL_ENTRY : Fld := ⟨0x504000, [0x40], 18, 5⟩
/-- GZT_PIPECFG.MAX_ROWS (R326). -/
def GZT_PIPECFG_MAX_ROWS : Fld := ⟨0x504008, [0x40], 63, 53⟩
/-- GZT_PIPECFG.CHUNK (R326). -/
def GZT_PIPECFG_CHUNK : Fld := ⟨0x504008, [0x40], 52, 45⟩
/-- GZT_PIPECFG.PREFILL_BUDGET (R326). -/
def GZT_PIPECFG_PREFILL_BUDGET : Fld := ⟨0x504008, [0x40], 44, 29⟩
/-- GZT_PIPECFG.MANIFEST (R326). -/
def GZT_PIPECFG_MANIFEST : Fld := ⟨0x504008, [0x40], 28, 5⟩
/-- GZT_PIPECFG.SHED (R326). -/
def GZT_PIPECFG_SHED : Fld := ⟨0x504008, [0x40], 4, 3⟩
/-- GZT_PIPESTAT.STATE (R326). -/
def GZT_PIPESTAT_STATE : Fld := ⟨0x504010, [0x40], 63, 62⟩
/-- GZT_PIPESTAT.SHEDDING (R326). -/
def GZT_PIPESTAT_SHEDDING : Fld := ⟨0x504010, [0x40], 61, 61⟩
/-- GZT_PIPESTAT.MODEL (R326). -/
def GZT_PIPESTAT_MODEL : Fld := ⟨0x504010, [0x40], 60, 55⟩
/-- GZT_PIPESTAT.MODEL_VALID (R326). -/
def GZT_PIPESTAT_MODEL_VALID : Fld := ⟨0x504010, [0x40], 54, 54⟩
/-- GZT_PIPESTAT.ENTRIES (R326). -/
def GZT_PIPESTAT_ENTRIES : Fld := ⟨0x504010, [0x40], 53, 40⟩
/-- GZT_PIPESTAT.CODE (R326). -/
def GZT_PIPESTAT_CODE : Fld := ⟨0x504010, [0x40], 39, 32⟩
/-- GZT_PIPESTAT.STEP (R326). -/
def GZT_PIPESTAT_STEP : Fld := ⟨0x504010, [0x40], 31, 0⟩
/-- GZT_PIPETIME.ROUND_US (R326). -/
def GZT_PIPETIME_ROUND_US : Fld := ⟨0x504018, [0x40], 63, 32⟩
/-- GZT_PIPETIME.STEP_US (R326). -/
def GZT_PIPETIME_STEP_US : Fld := ⟨0x504018, [0x40], 31, 0⟩
/-- GZT_ATLAS_DESC.WORD (R328). -/
def GZT_ATLAS_DESC_WORD : Fld := ⟨0x510000, [0x100, 0x8], 63, 0⟩
/-- GZT_ATLAS.STATE (R328). -/
def GZT_ATLAS_STATE : Fld := ⟨0x518000, [0x8], 63, 62⟩
/-- GZT_ATLAS.OP (R328). -/
def GZT_ATLAS_OP : Fld := ⟨0x518000, [0x8], 61, 60⟩
/-- GZT_ATLAS.CODE (R328). -/
def GZT_ATLAS_CODE : Fld := ⟨0x518000, [0x8], 59, 52⟩
/-- SMP_COUNT.ROWS (R351). -/
def SMP_COUNT_ROWS : Fld := ⟨0x600000, [0x8], 63, 32⟩
/-- SMP_COUNT.DISCARDS (R351). -/
def SMP_COUNT_DISCARDS : Fld := ⟨0x600000, [0x8], 31, 16⟩
/-- SMP_COUNT.NONFINITE (R351). -/
def SMP_COUNT_NONFINITE : Fld := ⟨0x600000, [0x8], 15, 8⟩
/-- SMP_COUNT.MASK_EMPTY (R351). -/
def SMP_COUNT_MASK_EMPTY : Fld := ⟨0x600000, [0x8], 7, 0⟩
/-- LVR_STATUS.EMIT_CONDUITS (R246). -/
def LVR_STATUS_EMIT_CONDUITS : Fld := ⟨0x700000, [0x8], 55, 48⟩
/-- LVR_STATUS.LOSS_CONDUITS (R246). -/
def LVR_STATUS_LOSS_CONDUITS : Fld := ⟨0x700000, [0x8], 47, 40⟩
/-- LVR_STATUS.EMIT_ROWS (R246). -/
def LVR_STATUS_EMIT_ROWS : Fld := ⟨0x700000, [0x8], 39, 36⟩
/-- LVR_STATUS.LOSS_ROWS (R246). -/
def LVR_STATUS_LOSS_ROWS : Fld := ⟨0x700000, [0x8], 35, 32⟩
/-- LVR_STATUS.DISCARDS (R246). -/
def LVR_STATUS_DISCARDS : Fld := ⟨0x700000, [0x8], 31, 0⟩
/-- LVR_CCTL.K (R277). -/
def LVR_CCTL_K : Fld := ⟨0x701000, [0x80], 63, 53⟩
/-- LVR_CCTL.TEMP (R277). -/
def LVR_CCTL_TEMP : Fld := ⟨0x701000, [0x80], 52, 37⟩
/-- LVR_CCTL.VOCAB (R277). -/
def LVR_CCTL_VOCAB : Fld := ⟨0x701000, [0x80], 36, 16⟩
/-- LVR_CCTL.HARD (R277). -/
def LVR_CCTL_HARD : Fld := ⟨0x701000, [0x80], 15, 15⟩
/-- LVR_CCTL.NF_POLICY (R277). -/
def LVR_CCTL_NF_POLICY : Fld := ⟨0x701000, [0x80], 14, 14⟩
/-- LVR_CWEIGHT.W_KD (R277). -/
def LVR_CWEIGHT_W_KD : Fld := ⟨0x701008, [0x80], 63, 32⟩
/-- LVR_CWEIGHT.ALPHA (R277). -/
def LVR_CWEIGHT_ALPHA : Fld := ⟨0x701008, [0x80], 31, 0⟩
/-- LVR_CLRING.BASE (R277). -/
def LVR_CLRING_BASE : Fld := ⟨0x701010, [0x80], 63, 40⟩
/-- LVR_CLRING.ENTRIES (R277). -/
def LVR_CLRING_ENTRIES : Fld := ⟨0x701010, [0x80], 39, 20⟩
/-- LVR_CREMOTE.REMOTE (R277). -/
def LVR_CREMOTE_REMOTE : Fld := ⟨0x701018, [0x80], 63, 63⟩
/-- LVR_CREMOTE.PEER_MODULE (R277). -/
def LVR_CREMOTE_PEER_MODULE : Fld := ⟨0x701018, [0x80], 55, 40⟩
/-- LVR_CREMOTE.PEER_CONDUIT (R277). -/
def LVR_CREMOTE_PEER_CONDUIT : Fld := ⟨0x701018, [0x80], 39, 34⟩
/-- LVR_CCMD.OP (R277). -/
def LVR_CCMD_OP : Fld := ⟨0x701020, [0x80], 63, 60⟩
/-- LVR_CSTATE.STATE (R277). -/
def LVR_CSTATE_STATE : Fld := ⟨0x701028, [0x80], 63, 61⟩
/-- LVR_CSTATE.CODE (R277). -/
def LVR_CSTATE_CODE : Fld := ⟨0x701028, [0x80], 60, 53⟩
/-- LVR_CSTATE.CREDITS (R277). -/
def LVR_CSTATE_CREDITS : Fld := ⟨0x701028, [0x80], 52, 37⟩
/-- LVR_CSTATE.QUEUED (R277). -/
def LVR_CSTATE_QUEUED : Fld := ⟨0x701028, [0x80], 36, 21⟩
/-- LVR_CROWS.RECORDS (R277). -/
def LVR_CROWS_RECORDS : Fld := ⟨0x701030, [0x80], 63, 32⟩
/-- LVR_CROWS.LOSS_ROWS (R277). -/
def LVR_CROWS_LOSS_ROWS : Fld := ⟨0x701030, [0x80], 31, 0⟩
/-- LVR_CCOUNT.NONFINITE (R277). -/
def LVR_CCOUNT_NONFINITE : Fld := ⟨0x701038, [0x80], 63, 48⟩
/-- LVR_CCOUNT.TAIL_CLAMP (R277). -/
def LVR_CCOUNT_TAIL_CLAMP : Fld := ⟨0x701038, [0x80], 47, 32⟩
/-- LVR_CCOUNT.SHORT (R277). -/
def LVR_CCOUNT_SHORT : Fld := ⟨0x701038, [0x80], 31, 16⟩
/-- LVR_CCOUNT.POISONED (R277). -/
def LVR_CCOUNT_POISONED : Fld := ⟨0x701038, [0x80], 15, 0⟩
/-- LVR_CPACE.TEACHER_STALL (R277). -/
def LVR_CPACE_TEACHER_STALL : Fld := ⟨0x701040, [0x80], 63, 32⟩
/-- LVR_CPACE.STUDENT_WAIT (R277). -/
def LVR_CPACE_STUDENT_WAIT : Fld := ⟨0x701040, [0x80], 31, 0⟩
/-- LVR_CQUEUE.SLOT_BYTES (R277). -/
def LVR_CQUEUE_SLOT_BYTES : Fld := ⟨0x701048, [0x80], 63, 48⟩
/-- LVR_CQUEUE.HIGH_WATER (R277). -/
def LVR_CQUEUE_HIGH_WATER : Fld := ⟨0x701048, [0x80], 47, 32⟩
/-- LVR_TAP.ENABLE (R256). -/
def LVR_TAP_ENABLE : Fld := ⟨0x704000, [0x40, 0x8], 63, 63⟩
/-- LVR_TAP.ROUTE (R256). -/
def LVR_TAP_ROUTE : Fld := ⟨0x704000, [0x40, 0x8], 62, 51⟩
/-- LVR_TAP.SLOTS (R256). -/
def LVR_TAP_SLOTS : Fld := ⟨0x704000, [0x40, 0x8], 50, 43⟩
/-- LVR_TAP.SLOT_KIB (R256). -/
def LVR_TAP_SLOT_KIB : Fld := ⟨0x704000, [0x40, 0x8], 42, 30⟩
/-- LVR_TAP.OFFSET (R256). -/
def LVR_TAP_OFFSET : Fld := ⟨0x704000, [0x40, 0x8], 29, 14⟩
/-- MEM_CHAN.STATE (R380). -/
def MEM_CHAN_STATE : Fld := ⟨0x800000, [0x8], 63, 61⟩
/-- MEM_CHAN.PINS (R380). -/
def MEM_CHAN_PINS : Fld := ⟨0x800000, [0x8], 60, 58⟩
/-- MEM_CHAN.UNCORR (R380). -/
def MEM_CHAN_UNCORR : Fld := ⟨0x800000, [0x8], 31, 16⟩
/-- MEM_CHAN.CORR (R380). -/
def MEM_CHAN_CORR : Fld := ⟨0x800000, [0x8], 15, 0⟩
/-- MEM_STACK.TEMP (R382). -/
def MEM_STACK_TEMP : Fld := ⟨0x801000, [0x8], 63, 56⟩
/-- MEM_STACK.MAX_TEMP (R382). -/
def MEM_STACK_MAX_TEMP : Fld := ⟨0x801000, [0x8], 55, 48⟩
/-- MEM_STACK.LEVEL (R382). -/
def MEM_STACK_LEVEL : Fld := ⟨0x801000, [0x8], 47, 45⟩
/-- MEM_STACK.REFRESH2X (R382). -/
def MEM_STACK_REFRESH2X : Fld := ⟨0x801000, [0x8], 44, 44⟩
/-- MEM_STACK.SHUTDOWN (R382). -/
def MEM_STACK_SHUTDOWN : Fld := ⟨0x801000, [0x8], 43, 43⟩
/-- MEM_STACK.PRED_US (R382). -/
def MEM_STACK_PRED_US : Fld := ⟨0x801000, [0x8], 31, 0⟩
/-- MEM_STACKCMD.OP (R388). -/
def MEM_STACKCMD_OP : Fld := ⟨0x801100, [], 63, 60⟩
/-- MEM_STACKCMD.STACK (R388). -/
def MEM_STACKCMD_STACK : Fld := ⟨0x801100, [], 59, 56⟩
/-- MEM_STACKCMD.CODE (R388). -/
def MEM_STACKCMD_CODE : Fld := ⟨0x801100, [], 55, 48⟩
/-- MEM_STATUS.FRAMES_FREE (R379). -/
def MEM_STATUS_FRAMES_FREE : Fld := ⟨0x801108, [], 63, 44⟩
/-- MEM_STATUS.FRAMES_RETIRED (R379). -/
def MEM_STATUS_FRAMES_RETIRED : Fld := ⟨0x801108, [], 43, 24⟩
/-- MEM_STATUS.CHAN_FAILED (R379). -/
def MEM_STATUS_CHAN_FAILED : Fld := ⟨0x801108, [], 23, 14⟩
/-- MEM_STATUS.CHAN_ABSENT (R379). -/
def MEM_STATUS_CHAN_ABSENT : Fld := ⟨0x801108, [], 13, 4⟩
/-- MEM_PREG.CEIL_GBS (R389). -/
def MEM_PREG_CEIL_GBS : Fld := ⟨0x802000, [0x8], 63, 48⟩
/-- MEM_PREG.WAIT (R389). -/
def MEM_PREG_WAIT : Fld := ⟨0x802000, [0x8], 31, 0⟩
/-- MEM_PPLACE.BASE (R400). -/
def MEM_PPLACE_BASE : Fld := ⟨0x804000, [0x40, 0x8], 63, 45⟩
/-- MEM_PPLACE.COUNT (R400). -/
def MEM_PPLACE_COUNT : Fld := ⟨0x804000, [0x40, 0x8], 44, 25⟩
/-- MEM_PPLACE.STACKS (R400). -/
def MEM_PPLACE_STACKS : Fld := ⟨0x804000, [0x40, 0x8], 24, 9⟩
/-- MEM_GOLD_CTL.STATE (R409). -/
def MEM_GOLD_CTL_STATE : Fld := ⟨0x808000, [0x20], 63, 61⟩
/-- MEM_GOLD_CTL.SRC (R409). -/
def MEM_GOLD_CTL_SRC : Fld := ⟨0x808000, [0x20], 60, 59⟩
/-- MEM_GOLD_CTL.DIGEST_EN (R409). -/
def MEM_GOLD_CTL_DIGEST_EN : Fld := ⟨0x808000, [0x20], 58, 58⟩
/-- MEM_GOLD_CTL.OP (R409). -/
def MEM_GOLD_CTL_OP : Fld := ⟨0x808000, [0x20], 57, 56⟩
/-- MEM_GOLD_CTL.CODE (R409). -/
def MEM_GOLD_CTL_CODE : Fld := ⟨0x808000, [0x20], 55, 48⟩
/-- MEM_GOLD_CTL.PAGES (R409). -/
def MEM_GOLD_CTL_PAGES : Fld := ⟨0x808000, [0x20], 47, 28⟩
/-- MEM_GOLD_ADDR.ADDR (R409). -/
def MEM_GOLD_ADDR_ADDR : Fld := ⟨0x808008, [0x20], 63, 12⟩
/-- MEM_GOLD_DIG.ADDR (R409). -/
def MEM_GOLD_DIG_ADDR : Fld := ⟨0x808010, [0x20], 63, 6⟩
/-- TRN_DIE.SLICES (R391). -/
def TRN_DIE_SLICES : Fld := ⟨0xa00000, [0x8], 63, 55⟩
/-- TRN_DIE.SPARE_ROWS (R391). -/
def TRN_DIE_SPARE_ROWS : Fld := ⟨0xa00000, [0x8], 54, 43⟩
/-- TRN_DIE.UNCORR (R391). -/
def TRN_DIE_UNCORR : Fld := ⟨0xa00000, [0x8], 31, 16⟩
/-- TRN_DIE.CORR (R391). -/
def TRN_DIE_CORR : Fld := ⟨0xa00000, [0x8], 15, 0⟩
/-- TRN_PPLACE.DIE (R392). -/
def TRN_PPLACE_DIE : Fld := ⟨0xa00100, [0x8], 63, 0⟩
/-- FAR_PORT.STATE (R408). -/
def FAR_PORT_STATE : Fld := ⟨0xb00000, [0x8], 63, 61⟩
/-- FAR_PORT.WIDTH (R408). -/
def FAR_PORT_WIDTH : Fld := ⟨0xb00000, [0x8], 60, 56⟩
/-- FAR_PORT.CAP_GIB (R408). -/
def FAR_PORT_CAP_GIB : Fld := ⟨0xb00000, [0x8], 55, 43⟩
/-- FAR_PORT.VIOLATIONS (R408). -/
def FAR_PORT_VIOLATIONS : Fld := ⟨0xb00000, [0x8], 31, 16⟩
/-- FAR_PORT.TIMEOUTS (R408). -/
def FAR_PORT_TIMEOUTS : Fld := ⟨0xb00000, [0x8], 15, 0⟩
/-- FAR_CTL.INTERLEAVE (R407). -/
def FAR_CTL_INTERLEAVE : Fld := ⟨0xb00040, [], 63, 63⟩
/-- FAR_PQUOTA.PAGES (R401). -/
def FAR_PQUOTA_PAGES : Fld := ⟨0xb00100, [0x8], 63, 41⟩
/-- FAR_PQUOTA.PORT (R401). -/
def FAR_PQUOTA_PORT : Fld := ⟨0xb00100, [0x8], 40, 39⟩
/-- MRD_ID.MODULE (R432). -/
def MRD_ID_MODULE : Fld := ⟨0xc00000, [], 47, 32⟩
/-- MRD_ID.FABRIC (R432). -/
def MRD_ID_FABRIC : Fld := ⟨0xc00000, [], 31, 16⟩
/-- MRD_ID.VER_MAX (R432). -/
def MRD_ID_VER_MAX : Fld := ⟨0xc00000, [], 15, 12⟩
/-- MRD_ID.VER_MIN (R432). -/
def MRD_ID_VER_MIN : Fld := ⟨0xc00000, [], 11, 8⟩
/-- MRD_ID.TIME_ROOT (R432). -/
def MRD_ID_TIME_ROOT : Fld := ⟨0xc00000, [], 7, 7⟩
/-- MRD_STAT.UNCLAIMED (R426). -/
def MRD_STAT_UNCLAIMED : Fld := ⟨0xc00100, [], 63, 48⟩
/-- MRD_STAT.NO_ROUTE (R426). -/
def MRD_STAT_NO_ROUTE : Fld := ⟨0xc00100, [], 47, 32⟩
/-- MRD_STAT.TTL_EXPIRED (R426). -/
def MRD_STAT_TTL_EXPIRED : Fld := ⟨0xc00100, [], 31, 16⟩
/-- MRD_STAT.BACKWARD (R426). -/
def MRD_STAT_BACKWARD : Fld := ⟨0xc00100, [], 15, 0⟩
/-- MRD_LSTATE.STATE (R424). -/
def MRD_LSTATE_STATE : Fld := ⟨0xc01000, [0x100], 63, 61⟩
/-- MRD_LSTATE.WIDTH (R424). -/
def MRD_LSTATE_WIDTH : Fld := ⟨0xc01000, [0x100], 60, 56⟩
/-- MRD_LSTATE.VERSION (R424). -/
def MRD_LSTATE_VERSION : Fld := ⟨0xc01000, [0x100], 55, 52⟩
/-- MRD_LSTATE.CODE (R424). -/
def MRD_LSTATE_CODE : Fld := ⟨0xc01000, [0x100], 51, 44⟩
/-- MRD_LSTATE.LANES_ACTIVE (R424). -/
def MRD_LSTATE_LANES_ACTIVE : Fld := ⟨0xc01000, [0x100], 43, 26⟩
/-- MRD_LSTATE.LANES_FAILED (R424). -/
def MRD_LSTATE_LANES_FAILED : Fld := ⟨0xc01000, [0x100], 25, 8⟩
/-- MRD_LCMD.OP (R424). -/
def MRD_LCMD_OP : Fld := ⟨0xc01008, [0x100], 63, 60⟩
/-- MRD_LPEER.MODULE (R424). -/
def MRD_LPEER_MODULE : Fld := ⟨0xc01010, [0x100], 63, 48⟩
/-- MRD_LPEER.FABRIC (R424). -/
def MRD_LPEER_FABRIC : Fld := ⟨0xc01010, [0x100], 47, 32⟩
/-- MRD_LPEER.FEED_ID (R424). -/
def MRD_LPEER_FEED_ID : Fld := ⟨0xc01010, [0x100], 31, 28⟩
/-- MRD_LPEER.LINK (R424). -/
def MRD_LPEER_LINK : Fld := ⟨0xc01010, [0x100], 27, 24⟩
/-- MRD_LPEER.DISTANCE (R424). -/
def MRD_LPEER_DISTANCE : Fld := ⟨0xc01010, [0x100], 23, 16⟩
/-- MRD_LPEER.NEIGHBOUR (R424). -/
def MRD_LPEER_NEIGHBOUR : Fld := ⟨0xc01010, [0x100], 15, 15⟩
/-- MRD_LPEER.PARENT (R424). -/
def MRD_LPEER_PARENT : Fld := ⟨0xc01010, [0x100], 14, 14⟩
/-- MRD_LSERIAL.SERIAL (R424). -/
def MRD_LSERIAL_SERIAL : Fld := ⟨0xc01018, [0x100], 63, 0⟩
/-- MRD_LERR.CORR_SYM (R424). -/
def MRD_LERR_CORR_SYM : Fld := ⟨0xc01020, [0x100], 63, 32⟩
/-- MRD_LERR.UNCORR_CW (R424). -/
def MRD_LERR_UNCORR_CW : Fld := ⟨0xc01020, [0x100], 31, 16⟩
/-- MRD_LERR.REPLAYS (R424). -/
def MRD_LERR_REPLAYS : Fld := ⟨0xc01020, [0x100], 15, 0⟩
/-- MRD_LVIOL.LAST_CODE (R424). -/
def MRD_LVIOL_LAST_CODE : Fld := ⟨0xc01028, [0x100], 63, 56⟩
/-- MRD_LVIOL.LAST_CLASS (R424). -/
def MRD_LVIOL_LAST_CLASS : Fld := ⟨0xc01028, [0x100], 55, 53⟩
/-- MRD_LVIOL.LAST_SEQ (R424). -/
def MRD_LVIOL_LAST_SEQ : Fld := ⟨0xc01028, [0x100], 52, 41⟩
/-- MRD_LVIOL.WINDOW (R424). -/
def MRD_LVIOL_WINDOW : Fld := ⟨0xc01028, [0x100], 31, 16⟩
/-- MRD_LVIOL.TOTAL (R424). -/
def MRD_LVIOL_TOTAL : Fld := ⟨0xc01028, [0x100], 15, 0⟩
/-- MRD_LCFG.VIOL_LIMIT (R424). -/
def MRD_LCFG_VIOL_LIMIT : Fld := ⟨0xc01030, [0x100], 63, 56⟩
/-- MRD_ROUTE.VALID (R426). -/
def MRD_ROUTE_VALID : Fld := ⟨0xc10000, [0x8], 63, 63⟩
/-- MRD_ROUTE.LINKS (R426). -/
def MRD_ROUTE_LINKS : Fld := ⟨0xc10000, [0x8], 62, 53⟩
/-- COL_CJOB.JOB (R431). -/
def COL_CJOB_JOB : Fld := ⟨0xd00100, [0x8], 63, 48⟩
/-- COL_TCTL.SCHED_EN (R288). -/
def COL_TCTL_SCHED_EN : Fld := ⟨0xd10000, [0x100], 63, 63⟩
/-- COL_TCTL.STRAGGLER (R288). -/
def COL_TCTL_STRAGGLER : Fld := ⟨0xd10000, [0x100], 62, 61⟩
/-- COL_TCTL.GEXP_INIT (R288). -/
def COL_TCTL_GEXP_INIT : Fld := ⟨0xd10000, [0x100], 60, 53⟩
/-- COL_TCTL.GEXP_MIN (R288). -/
def COL_TCTL_GEXP_MIN : Fld := ⟨0xd10000, [0x100], 52, 45⟩
/-- COL_TCTL.GEXP_MAX (R288). -/
def COL_TCTL_GEXP_MAX : Fld := ⟨0xd10000, [0x100], 44, 37⟩
/-- COL_TCTL.GROWTH (R288). -/
def COL_TCTL_GROWTH : Fld := ⟨0xd10000, [0x100], 36, 21⟩
/-- COL_TCMD.OP (R288). -/
def COL_TCMD_OP : Fld := ⟨0xd10008, [0x100], 63, 60⟩
/-- COL_TCMD.MODE (R288). -/
def COL_TCMD_MODE : Fld := ⟨0xd10008, [0x100], 59, 58⟩
/-- COL_TCMD.STEP (R288). -/
def COL_TCMD_STEP : Fld := ⟨0xd10008, [0x100], 31, 0⟩
/-- COL_TSTATE.STATE (R288). -/
def COL_TSTATE_STATE : Fld := ⟨0xd10010, [0x100], 63, 62⟩
/-- COL_TSTATE.CODE (R288). -/
def COL_TSTATE_CODE : Fld := ⟨0xd10010, [0x100], 61, 54⟩
/-- COL_TSTATE.CLOSED (R288). -/
def COL_TSTATE_CLOSED : Fld := ⟨0xd10010, [0x100], 31, 0⟩
/-- COL_TSCALE.GEXP (R288). -/
def COL_TSCALE_GEXP : Fld := ⟨0xd10018, [0x100], 63, 56⟩
/-- COL_TSCALE.CLEAN (R288). -/
def COL_TSCALE_CLEAN : Fld := ⟨0xd10018, [0x100], 55, 40⟩
/-- COL_TSCALE.FLOOR_RUN (R288). -/
def COL_TSCALE_FLOOR_RUN : Fld := ⟨0xd10018, [0x100], 39, 32⟩
/-- COL_TSCALE.UPDATES (R288). -/
def COL_TSCALE_UPDATES : Fld := ⟨0xd10018, [0x100], 31, 0⟩
/-- COL_TTABLE.UPD_BASE (R288). -/
def COL_TTABLE_UPD_BASE : Fld := ⟨0xd10020, [0x100], 63, 40⟩
/-- COL_TTABLE.UPD_ENTRIES (R288). -/
def COL_TTABLE_UPD_ENTRIES : Fld := ⟨0xd10020, [0x100], 39, 24⟩
/-- COL_TAUX.HP_BASE (R288). -/
def COL_TAUX_HP_BASE : Fld := ⟨0xd10028, [0x100], 63, 40⟩
/-- COL_TAUX.GBLK_BASE (R288). -/
def COL_TAUX_GBLK_BASE : Fld := ⟨0xd10028, [0x100], 39, 16⟩
/-- COL_TAUX.HP_SETS (R288). -/
def COL_TAUX_HP_SETS : Fld := ⟨0xd10028, [0x100], 15, 0⟩
/-- COL_TSTAGE.BASE (R288). -/
def COL_TSTAGE_BASE : Fld := ⟨0xd10030, [0x100], 63, 40⟩
/-- COL_TSTAGE.MIB (R288). -/
def COL_TSTAGE_MIB : Fld := ⟨0xd10030, [0x100], 39, 24⟩
/-- COL_TSUMRING.ADDR (R288). -/
def COL_TSUMRING_ADDR : Fld := ⟨0xd10038, [0x100], 63, 12⟩
/-- COL_TSUMCFG.SLOTS (R288). -/
def COL_TSUMCFG_SLOTS : Fld := ⟨0xd10040, [0x100], 63, 48⟩
/-- COL_TSUMCFG.SLOT_KIB (R288). -/
def COL_TSUMCFG_SLOT_KIB : Fld := ⟨0xd10040, [0x100], 47, 40⟩
/-- COL_TSUMCFG.HEAD (R288). -/
def COL_TSUMCFG_HEAD : Fld := ⟨0xd10040, [0x100], 31, 0⟩
/-- COL_TDEADLINE.DEADLINE_US (R288). -/
def COL_TDEADLINE_DEADLINE_US : Fld := ⟨0xd10048, [0x100], 63, 32⟩
/-- COL_TDEADLINE.QUORUM (R288). -/
def COL_TDEADLINE_QUORUM : Fld := ⟨0xd10048, [0x100], 31, 19⟩
/-- COL_TEXPORT_ADDR.ADDR (R288). -/
def COL_TEXPORT_ADDR_ADDR : Fld := ⟨0xd10088, [0x100], 63, 12⟩
/-- COL_TEXPORT_STATUS.STATE (R288). -/
def COL_TEXPORT_STATUS_STATE : Fld := ⟨0xd10090, [0x100], 63, 61⟩
/-- COL_TEXPORT_STATUS.MODE (R288). -/
def COL_TEXPORT_STATUS_MODE : Fld := ⟨0xd10090, [0x100], 60, 59⟩
/-- COL_TEXPORT_STATUS.BYTES (R288). -/
def COL_TEXPORT_STATUS_BYTES : Fld := ⟨0xd10090, [0x100], 58, 0⟩
/-- COL_TARENA.SPACE (R312). -/
def COL_TARENA_SPACE : Fld := ⟨0xd10050, [0x100, 0x8], 63, 60⟩
/-- COL_TARENA.BASE (R312). -/
def COL_TARENA_BASE : Fld := ⟨0xd10050, [0x100, 0x8], 59, 30⟩
/-- COL_TARENA.SIZE (R312). -/
def COL_TARENA_SIZE : Fld := ⟨0xd10050, [0x100, 0x8], 29, 0⟩
/-- COL_TAXIS.SIZE (R315). -/
def COL_TAXIS_SIZE : Fld := ⟨0xd10060, [0x100, 0x8], 63, 51⟩
/-- COL_TAXIS.RANK (R315). -/
def COL_TAXIS_RANK : Fld := ⟨0xd10060, [0x100, 0x8], 50, 38⟩
/-- COL_TAXIS.LINKS (R315). -/
def COL_TAXIS_LINKS : Fld := ⟨0xd10060, [0x100, 0x8], 37, 28⟩
/-- COL_CRING.BASE (R435). -/
def COL_CRING_BASE : Fld := ⟨0xd20000, [0x100], 63, 40⟩
/-- COL_CRING.ENTRIES (R435). -/
def COL_CRING_ENTRIES : Fld := ⟨0xd20000, [0x100], 39, 24⟩
/-- COL_CSTAT.NEXT (R435). -/
def COL_CSTAT_NEXT : Fld := ⟨0xd20008, [0x100], 63, 32⟩
/-- COL_CSTAT.INFLIGHT (R435). -/
def COL_CSTAT_INFLIGHT : Fld := ⟨0xd20008, [0x100], 31, 16⟩
/-- COL_CSTAGE.SPACE (R435). -/
def COL_CSTAGE_SPACE : Fld := ⟨0xd20010, [0x100], 63, 60⟩
/-- COL_CSTAGE.BASE (R435). -/
def COL_CSTAGE_BASE : Fld := ⟨0xd20010, [0x100], 59, 28⟩
/-- COL_CSTAGE.MIB (R435). -/
def COL_CSTAGE_MIB : Fld := ⟨0xd20010, [0x100], 27, 8⟩
/-- COL_CMEMBERS.BASE (R435). -/
def COL_CMEMBERS_BASE : Fld := ⟨0xd20018, [0x100], 63, 40⟩
/-- COL_CCFG.MANAGER (R435). -/
def COL_CCFG_MANAGER : Fld := ⟨0xd20020, [0x100], 63, 48⟩
/-- COL_CCFG.TIMEOUT_MS (R435). -/
def COL_CCFG_TIMEOUT_MS : Fld := ⟨0xd20020, [0x100], 47, 32⟩
/-- COL_CDELAY.MODULE (R435). -/
def COL_CDELAY_MODULE : Fld := ⟨0xd20028, [0x100], 63, 48⟩
/-- COL_CDELAY.STACK (R435). -/
def COL_CDELAY_STACK : Fld := ⟨0xd20028, [0x100], 47, 44⟩
/-- COL_CDELAY.LEVEL (R435). -/
def COL_CDELAY_LEVEL : Fld := ⟨0xd20028, [0x100], 43, 41⟩
/-- COL_CDELAY.PRED_US (R435). -/
def COL_CDELAY_PRED_US : Fld := ⟨0xd20028, [0x100], 31, 0⟩
/-- COL_CDELAY_T.TIME (R435). -/
def COL_CDELAY_T_TIME : Fld := ⟨0xd20030, [0x100], 63, 0⟩
/-- CKP_CTL.INTERVAL (R580). -/
def CKP_CTL_INTERVAL : Fld := ⟨0xd100a0, [0x100], 63, 48⟩
/-- CKP_CTL.DEST (R580). -/
def CKP_CTL_DEST : Fld := ⟨0xd100a0, [0x100], 47, 46⟩
/-- CKP_CTL.BUDDY (R580). -/
def CKP_CTL_BUDDY : Fld := ⟨0xd100a0, [0x100], 45, 30⟩
/-- CKP_CMD.OP (R580). -/
def CKP_CMD_OP : Fld := ⟨0xd100c0, [0x100], 63, 60⟩
/-- CKP_CMD.SLOT (R580). -/
def CKP_CMD_SLOT : Fld := ⟨0xd100c0, [0x100], 59, 59⟩
/-- CKP_STATUS.STATE (R583). -/
def CKP_STATUS_STATE : Fld := ⟨0xd100c8, [0x100], 63, 62⟩
/-- CKP_STATUS.CODE (R583). -/
def CKP_STATUS_CODE : Fld := ⟨0xd100c8, [0x100], 61, 54⟩
/-- CKP_STATUS.VALID (R583). -/
def CKP_STATUS_VALID : Fld := ⟨0xd100c8, [0x100], 53, 52⟩
/-- CKP_STATUS.LAST (R583). -/
def CKP_STATUS_LAST : Fld := ⟨0xd100c8, [0x100], 51, 51⟩
/-- CKP_STATUS.SHADOW (R583). -/
def CKP_STATUS_SHADOW : Fld := ⟨0xd100c8, [0x100], 50, 50⟩
/-- CKP_STATUS.LAST_STEP (R583). -/
def CKP_STATUS_LAST_STEP : Fld := ⟨0xd100c8, [0x100], 31, 0⟩
/-- CKP_SHADOW.BASE (R579). -/
def CKP_SHADOW_BASE : Fld := ⟨0xd100a8, [0x100], 59, 30⟩
/-- CKP_SHADOW.PAGES (R579). -/
def CKP_SHADOW_PAGES : Fld := ⟨0xd100a8, [0x100], 29, 0⟩
/-- CKP_DEST.ADDR (R582). -/
def CKP_DEST_ADDR : Fld := ⟨0xd100b0, [0x100], 63, 12⟩
/-- CKP_DESTLEN.SLOT_MIB (R582). -/
def CKP_DESTLEN_SLOT_MIB : Fld := ⟨0xd100b8, [0x100], 63, 32⟩
/-- CKP_RECV.SENDER (R582). -/
def CKP_RECV_SENDER : Fld := ⟨0xd100d0, [0x100], 63, 48⟩
/-- CKP_RECV.BASE (R582). -/
def CKP_RECV_BASE : Fld := ⟨0xd100d0, [0x100], 47, 18⟩
/-- HIER_CFG.ROLE (R588). -/
def HIER_CFG_ROLE : Fld := ⟨0xd100e0, [0x100], 63, 62⟩
/-- HIER_CFG.MANAGER (R588). -/
def HIER_CFG_MANAGER : Fld := ⟨0xd100e0, [0x100], 61, 46⟩
/-- HIER_CFG.HB_US (R588). -/
def HIER_CFG_HB_US : Fld := ⟨0xd100e0, [0x100], 45, 30⟩
/-- HIER_CFG.MGR_TIMEOUT_MS (R588). -/
def HIER_CFG_MGR_TIMEOUT_MS : Fld := ⟨0xd100e0, [0x100], 29, 14⟩
/-- HIER_STAT.STATE (R590). -/
def HIER_STAT_STATE : Fld := ⟨0xd100e8, [0x100], 63, 62⟩
/-- HIER_STAT.CODE (R590). -/
def HIER_STAT_CODE : Fld := ⟨0xd100e8, [0x100], 61, 54⟩
/-- HIER_STAT.WORKERS (R590). -/
def HIER_STAT_WORKERS : Fld := ⟨0xd100e8, [0x100], 53, 41⟩
/-- HIER_STAT.EPOCH (R590). -/
def HIER_STAT_EPOCH : Fld := ⟨0xd100e8, [0x100], 31, 0⟩
/-- HIER_ROSTER.BASE (R588). -/
def HIER_ROSTER_BASE : Fld := ⟨0xd100f0, [0x100], 63, 40⟩
/-- HIER_ROSTER.COUNT (R588). -/
def HIER_ROSTER_COUNT : Fld := ⟨0xd100f0, [0x100], 39, 27⟩
/-- GRT_NOW.TIME (R515). -/
def GRT_NOW_TIME : Fld := ⟨0xe00000, [], 63, 0⟩
/-- GRT_STATUS.STATE (R512). -/
def GRT_STATUS_STATE : Fld := ⟨0xe00008, [], 63, 62⟩
/-- GRT_STATUS.ROOT (R512). -/
def GRT_STATUS_ROOT : Fld := ⟨0xe00008, [], 61, 61⟩
/-- GRT_STATUS.DISTANCE (R512). -/
def GRT_STATUS_DISTANCE : Fld := ⟨0xe00008, [], 60, 53⟩
/-- GRT_STATUS.ALIGN_NS (R512). -/
def GRT_STATUS_ALIGN_NS : Fld := ⟨0xe00008, [], 52, 45⟩
/-- GRT_STATUS.CODE (R512). -/
def GRT_STATUS_CODE : Fld := ⟨0xe00008, [], 44, 41⟩
/-- GRT_STATUS.OFFSET (R512). -/
def GRT_STATUS_OFFSET : Fld := ⟨0xe00008, [], 31, 0⟩
/-- GRT_SET.TIME (R510). -/
def GRT_SET_TIME : Fld := ⟨0xe00010, [], 63, 0⟩
/-- SRV_CBUF.SPACE (R518). -/
def SRV_CBUF_SPACE : Fld := ⟨0xf00000, [0x200], 63, 60⟩
/-- SRV_CBUF.BASE (R518). -/
def SRV_CBUF_BASE : Fld := ⟨0xf00000, [0x200], 47, 6⟩
/-- SRV_CCFG.ENABLE (R516). -/
def SRV_CCFG_ENABLE : Fld := ⟨0xf00008, [0x200], 63, 63⟩
/-- SRV_CCFG.INTERVAL_US (R516). -/
def SRV_CCFG_INTERVAL_US : Fld := ⟨0xf00008, [0x200], 62, 43⟩
/-- SRV_CCFG.SLOTS (R516). -/
def SRV_CCFG_SLOTS : Fld := ⟨0xf00008, [0x200], 42, 27⟩
/-- SRV_CSTAT.SEQ (R517). -/
def SRV_CSTAT_SEQ : Fld := ⟨0xf00010, [0x200], 63, 32⟩
/-- SRV_CSTAT.SKIPPED (R517). -/
def SRV_CSTAT_SKIPPED : Fld := ⟨0xf00010, [0x200], 31, 16⟩
/-- SRV_CSTAT.RECORD_BYTES (R517). -/
def SRV_CSTAT_RECORD_BYTES : Fld := ⟨0xf00010, [0x200], 15, 0⟩
/-- SRV_TREGION.SPACE (R523). -/
def SRV_TREGION_SPACE : Fld := ⟨0xf00020, [0x200], 63, 60⟩
/-- SRV_TREGION.BASE (R523). -/
def SRV_TREGION_BASE : Fld := ⟨0xf00020, [0x200], 59, 30⟩
/-- SRV_TREGION.PRE (R523). -/
def SRV_TREGION_PRE : Fld := ⟨0xf00020, [0x200], 29, 16⟩
/-- SRV_TREGION.SIZE (R523). -/
def SRV_TREGION_SIZE : Fld := ⟨0xf00020, [0x200], 13, 0⟩
/-- SRV_TCFG.LEVEL (R521). -/
def SRV_TCFG_LEVEL : Fld := ⟨0xf00028, [0x200], 63, 62⟩
/-- SRV_TCFG.LOSSLESS (R521). -/
def SRV_TCFG_LOSSLESS : Fld := ⟨0xf00028, [0x200], 61, 61⟩
/-- SRV_TCFG.STREAMS (R521). -/
def SRV_TCFG_STREAMS : Fld := ⟨0xf00028, [0x200], 60, 58⟩
/-- SRV_TFILT.LAYER (R522). -/
def SRV_TFILT_LAYER : Fld := ⟨0xf00030, [0x200], 63, 48⟩
/-- SRV_TFILT.LAYER_MASK (R522). -/
def SRV_TFILT_LAYER_MASK : Fld := ⟨0xf00030, [0x200], 47, 32⟩
/-- SRV_TFILT.OP (R522). -/
def SRV_TFILT_OP : Fld := ⟨0xf00030, [0x200], 31, 16⟩
/-- SRV_TFILT.OP_MASK (R522). -/
def SRV_TFILT_OP_MASK : Fld := ⟨0xf00030, [0x200], 15, 0⟩
/-- SRV_TTRIG.SOURCE (R525). -/
def SRV_TTRIG_SOURCE : Fld := ⟨0xf00038, [0x200], 63, 60⟩
/-- SRV_TTRIG.CODE (R525). -/
def SRV_TTRIG_CODE : Fld := ⟨0xf00038, [0x200], 59, 52⟩
/-- SRV_TTRIG.LAYER_ID (R525). -/
def SRV_TTRIG_LAYER_ID : Fld := ⟨0xf00038, [0x200], 47, 32⟩
/-- SRV_TTRIG.OP_ID (R525). -/
def SRV_TTRIG_OP_ID : Fld := ⟨0xf00038, [0x200], 31, 16⟩
/-- SRV_TTIME.TIME (R525). -/
def SRV_TTIME_TIME : Fld := ⟨0xf00040, [0x200], 63, 0⟩
/-- SRV_TCMD.OP (R524). -/
def SRV_TCMD_OP : Fld := ⟨0xf00048, [0x200], 63, 60⟩
/-- SRV_TSTAT.STATE (R524). -/
def SRV_TSTAT_STATE : Fld := ⟨0xf00050, [0x200], 63, 62⟩
/-- SRV_TSTAT.TRACE_FULL (R524). -/
def SRV_TSTAT_TRACE_FULL : Fld := ⟨0xf00050, [0x200], 61, 61⟩
/-- SRV_TSTAT.WRAPPED (R524). -/
def SRV_TSTAT_WRAPPED : Fld := ⟨0xf00050, [0x200], 60, 60⟩
/-- SRV_TSTAT.CODE (R524). -/
def SRV_TSTAT_CODE : Fld := ⟨0xf00050, [0x200], 59, 58⟩
/-- SRV_TSTAT.PRE_NEXT (R524). -/
def SRV_TSTAT_PRE_NEXT : Fld := ⟨0xf00050, [0x200], 57, 29⟩
/-- SRV_TSTAT.POST_COUNT (R524). -/
def SRV_TSTAT_POST_COUNT : Fld := ⟨0xf00050, [0x200], 28, 0⟩
/-- SRV_TTRIGT.TRIG_TIME (R524). -/
def SRV_TTRIGT_TRIG_TIME : Fld := ⟨0xf00058, [0x200], 63, 0⟩
/-- SRV_TLOST.LOST_POST (R527). -/
def SRV_TLOST_LOST_POST : Fld := ⟨0xf00060, [0x200], 63, 32⟩
/-- SRV_TLOST.DROPPED (R527). -/
def SRV_TLOST_DROPPED : Fld := ⟨0xf00060, [0x200], 31, 0⟩
/-- SRV_TPANE.PANES (R521). -/
def SRV_TPANE_PANES : Fld := ⟨0xf00070, [0x200, 0x8], 63, 0⟩
/-- SRV_WRING.SPACE (R532). -/
def SRV_WRING_SPACE : Fld := ⟨0xf00100, [0x200], 63, 60⟩
/-- SRV_WRING.BASE (R532). -/
def SRV_WRING_BASE : Fld := ⟨0xf00100, [0x200], 47, 6⟩
/-- SRV_WCFG.ENABLE (R532). -/
def SRV_WCFG_ENABLE : Fld := ⟨0xf00108, [0x200], 63, 63⟩
/-- SRV_WCFG.ENTRIES (R532). -/
def SRV_WCFG_ENTRIES : Fld := ⟨0xf00108, [0x200], 62, 43⟩
/-- SRV_WCFG.LOST (R532). -/
def SRV_WCFG_LOST : Fld := ⟨0xf00108, [0x200], 31, 0⟩
/-- SRV_WHEAD.HEAD (R532). -/
def SRV_WHEAD_HEAD : Fld := ⟨0xf00110, [0x200], 63, 0⟩
/-- SRV_WTAIL.TAIL (R532). -/
def SRV_WTAIL_TAIL : Fld := ⟨0xf00118, [0x200], 63, 0⟩
/-- SRV_WSLOT.VALID (R530). -/
def SRV_WSLOT_VALID : Fld := ⟨0xf00140, [0x200, 0x8], 63, 63⟩
/-- SRV_WSLOT.KINDS (R530). -/
def SRV_WSLOT_KINDS : Fld := ⟨0xf00140, [0x200, 0x8], 62, 60⟩
/-- SRV_WSLOT.LAYER_ID (R530). -/
def SRV_WSLOT_LAYER_ID : Fld := ⟨0xf00140, [0x200, 0x8], 59, 44⟩
/-- SRV_WSLOT.OP_ID (R530). -/
def SRV_WSLOT_OP_ID : Fld := ⟨0xf00140, [0x200, 0x8], 43, 28⟩
/-- SHT_CMD.OP (R538). -/
def SHT_CMD_OP : Fld := ⟨0x1000000, [], 63, 60⟩
/-- SHT_CMD.SCOPE (R538). -/
def SHT_CMD_SCOPE : Fld := ⟨0x1000000, [], 59, 58⟩
/-- SHT_CMD.NOSCAN (R538). -/
def SHT_CMD_NOSCAN : Fld := ⟨0x1000000, [], 57, 57⟩
/-- SHT_CMD.LEAD (R538). -/
def SHT_CMD_LEAD : Fld := ⟨0x1000000, [], 55, 32⟩
/-- SHT_CMD.PARTITION (R538). -/
def SHT_CMD_PARTITION : Fld := ⟨0x1000000, [], 31, 24⟩
/-- SHT_CMD.JOB (R538). -/
def SHT_CMD_JOB : Fld := ⟨0x1000000, [], 23, 8⟩
/-- SHT_STATUS.STATE (R556). -/
def SHT_STATUS_STATE : Fld := ⟨0x1000008, [], 63, 61⟩
/-- SHT_STATUS.CODE (R556). -/
def SHT_STATUS_CODE : Fld := ⟨0x1000008, [], 60, 53⟩
/-- SHT_STATUS.FLAGS (R556). -/
def SHT_STATUS_FLAGS : Fld := ⟨0x1000008, [], 52, 47⟩
/-- SHT_STATUS.SCOPE (R556). -/
def SHT_STATUS_SCOPE : Fld := ⟨0x1000008, [], 46, 45⟩
/-- SHT_STATUS.PARTITION (R556). -/
def SHT_STATUS_PARTITION : Fld := ⟨0x1000008, [], 44, 37⟩
/-- SHT_STATUS.IGNORED (R556). -/
def SHT_STATUS_IGNORED : Fld := ⟨0x1000008, [], 31, 16⟩
/-- SHT_TSTOP.TIME (R550). -/
def SHT_TSTOP_TIME : Fld := ⟨0x1000010, [], 63, 0⟩
/-- SHT_TCUT.TIME (R550). -/
def SHT_TCUT_TIME : Fld := ⟨0x1000018, [], 63, 0⟩
/-- SHT_TOPEN.TIME (R550). -/
def SHT_TOPEN_TIME : Fld := ⟨0x1000020, [], 63, 0⟩
/-- SHT_REQ.ORIGIN (R541). -/
def SHT_REQ_ORIGIN : Fld := ⟨0x1000028, [], 63, 48⟩
/-- SHT_REQ.REQ_ID (R541). -/
def SHT_REQ_REQ_ID : Fld := ⟨0x1000028, [], 31, 0⟩
/-- SHT_DEST.SPACE (R551). -/
def SHT_DEST_SPACE : Fld := ⟨0x1000030, [], 63, 60⟩
/-- SHT_DEST.ADDR (R551). -/
def SHT_DEST_ADDR : Fld := ⟨0x1000030, [], 59, 12⟩
/-- SHT_DESTLEN.MIB (R551). -/
def SHT_DESTLEN_MIB : Fld := ⟨0x1000038, [], 63, 32⟩
/-- SHT_PDEST.BASE (R551). -/
def SHT_PDEST_BASE : Fld := ⟨0x1001000, [0x40], 63, 44⟩
/-- SHT_PDEST.PAGES (R551). -/
def SHT_PDEST_PAGES : Fld := ⟨0x1001000, [0x40], 43, 30⟩
/-- SHT_PDEST.CAP_BASE (R551). -/
def SHT_PDEST_CAP_BASE : Fld := ⟨0x1001000, [0x40], 29, 6⟩
/-- SHT_PDEST.CAP_MIB (R551). -/
def SHT_PDEST_CAP_MIB : Fld := ⟨0x1001000, [0x40], 5, 0⟩
/-- SHT_PHRANGE.BASE (R553). -/
def SHT_PHRANGE_BASE : Fld := ⟨0x1001008, [0x40, 0x8], 63, 44⟩
/-- SHT_PHRANGE.PAGES (R553). -/
def SHT_PHRANGE_PAGES : Fld := ⟨0x1001008, [0x40, 0x8], 43, 24⟩
/-- ERR_LOG.WORD (R564). -/
def ERR_LOG_WORD : Fld := ⟨0x1100000, [0x40, 0x8], 63, 0⟩
/-- ERR_LSTAT.HEAD (R564). -/
def ERR_LSTAT_HEAD : Fld := ⟨0x1110000, [], 63, 32⟩
/-- ERR_LSTAT.OVERFLOW (R564). -/
def ERR_LSTAT_OVERFLOW : Fld := ⟨0x1110000, [], 31, 31⟩
/-- ERR_LSTAT.MAX_SEV (R564). -/
def ERR_LSTAT_MAX_SEV : Fld := ⟨0x1110000, [], 30, 28⟩
/-- ERR_LSTAT.LOST (R564). -/
def ERR_LSTAT_LOST : Fld := ⟨0x1110000, [], 27, 16⟩
/-- ERR_LSTAT.HANDLER (R564). -/
def ERR_LSTAT_HANDLER : Fld := ⟨0x1110000, [], 15, 13⟩
/-- ERR_LTAIL.TAIL (R564). -/
def ERR_LTAIL_TAIL : Fld := ⟨0x1110008, [], 63, 32⟩
/-- ERR_MSTATE.STATE (R599). -/
def ERR_MSTATE_STATE : Fld := ⟨0x1110010, [], 63, 62⟩
/-- ERR_MSTATE.CAUSE (R599). -/
def ERR_MSTATE_CAUSE : Fld := ⟨0x1110010, [], 61, 46⟩
/-- ERR_FLUSH.VALID (R601). -/
def ERR_FLUSH_VALID : Fld := ⟨0x1110018, [], 63, 63⟩
/-- ERR_FLUSH.BANK (R601). -/
def ERR_FLUSH_BANK : Fld := ⟨0x1110018, [], 62, 62⟩
/-- ERR_FLUSH.GEN (R601). -/
def ERR_FLUSH_GEN : Fld := ⟨0x1110018, [], 31, 0⟩
/-- ERR_FLUSH_T.TIME (R601). -/
def ERR_FLUSH_T_TIME : Fld := ⟨0x1110020, [], 63, 0⟩
/-- ERR_FLUSH_CKP.VALID (R601). -/
def ERR_FLUSH_CKP_VALID : Fld := ⟨0x1110100, [0x8], 63, 63⟩
/-- ERR_FLUSH_CKP.SLOT (R601). -/
def ERR_FLUSH_CKP_SLOT : Fld := ⟨0x1110100, [0x8], 62, 62⟩
/-- ERR_FLUSH_CKP.LAST_STEP (R601). -/
def ERR_FLUSH_CKP_LAST_STEP : Fld := ⟨0x1110100, [0x8], 31, 0⟩
/-- ERR_QREC.WORD (R564). -/
def ERR_QREC_WORD : Fld := ⟨0x1120000, [0x800, 0x40, 0x8], 63, 0⟩
/-- ERR_QSTAT.HEAD (R564). -/
def ERR_QSTAT_HEAD : Fld := ⟨0x1120400, [0x800], 63, 32⟩
/-- ERR_QSTAT.OVERFLOW (R564). -/
def ERR_QSTAT_OVERFLOW : Fld := ⟨0x1120400, [0x800], 31, 31⟩
/-- ERR_QSTAT.MAX_SEV (R564). -/
def ERR_QSTAT_MAX_SEV : Fld := ⟨0x1120400, [0x800], 30, 28⟩
/-- ERR_QSTAT.LOST (R564). -/
def ERR_QSTAT_LOST : Fld := ⟨0x1120400, [0x800], 27, 16⟩
/-- ERR_QSTAT.HANDLER (R564). -/
def ERR_QSTAT_HANDLER : Fld := ⟨0x1120400, [0x800], 15, 13⟩
/-- ERR_QTAIL.TAIL (R564). -/
def ERR_QTAIL_TAIL : Fld := ⟨0x1120408, [0x800], 63, 32⟩
/-- SEC_LC.STATE (R617). -/
def SEC_LC_STATE : Fld := ⟨0x1200000, [], 63, 61⟩
/-- SEC_LC.PENDING (R617). -/
def SEC_LC_PENDING : Fld := ⟨0x1200000, [], 60, 60⟩
/-- SEC_LC.OWNER_SLOT (R617). -/
def SEC_LC_OWNER_SLOT : Fld := ⟨0x1200000, [], 59, 57⟩
/-- SEC_LC.SLOTS_USED (R617). -/
def SEC_LC_SLOTS_USED : Fld := ⟨0x1200000, [], 56, 53⟩
/-- SEC_LC.TRANSITIONS (R617). -/
def SEC_LC_TRANSITIONS : Fld := ⟨0x1200000, [], 52, 48⟩
/-- SEC_LC.DEBUG (R617). -/
def SEC_LC_DEBUG : Fld := ⟨0x1200000, [], 47, 47⟩
/-- SEC_LC.MARGIN (R617). -/
def SEC_LC_MARGIN : Fld := ⟨0x1200000, [], 46, 46⟩
/-- SEC_LC.DIRECT (R617). -/
def SEC_LC_DIRECT : Fld := ⟨0x1200000, [], 45, 45⟩
/-- SEC_FLOOR.IMG_FLOOR (R612). -/
def SEC_FLOOR_IMG_FLOOR : Fld := ⟨0x1200008, [], 63, 56⟩
/-- SEC_FLOOR.FW_FLOOR (R612). -/
def SEC_FLOOR_FW_FLOOR : Fld := ⟨0x1200008, [], 55, 48⟩
/-- SEC_FLOOR.FW_SVN (R612). -/
def SEC_FLOOR_FW_SVN : Fld := ⟨0x1200008, [], 47, 16⟩
/-- SEC_FLOOR.FW_COPY (R612). -/
def SEC_FLOOR_FW_COPY : Fld := ⟨0x1200008, [], 15, 15⟩
/-- SEC_NONCE.WORD (R619). -/
def SEC_NONCE_WORD : Fld := ⟨0x1200010, [0x8], 63, 0⟩
/-- SEC_CMD.OP (R618). -/
def SEC_CMD_OP : Fld := ⟨0x1200040, [], 63, 60⟩
/-- SEC_CMD.TARGET (R618). -/
def SEC_CMD_TARGET : Fld := ⟨0x1200040, [], 59, 57⟩
/-- SEC_CMD.VALUE (R618). -/
def SEC_CMD_VALUE : Fld := ⟨0x1200040, [], 55, 48⟩
/-- SEC_CMDSTAT.BUSY (R618). -/
def SEC_CMDSTAT_BUSY : Fld := ⟨0x1200048, [], 63, 63⟩
/-- SEC_CMDSTAT.OP (R618). -/
def SEC_CMDSTAT_OP : Fld := ⟨0x1200048, [], 62, 59⟩
/-- SEC_CMDSTAT.CODE (R618). -/
def SEC_CMDSTAT_CODE : Fld := ⟨0x1200048, [], 58, 51⟩
/-- SEC_TOKBUF.WORD (R619). -/
def SEC_TOKBUF_WORD : Fld := ⟨0x1201000, [0x8], 63, 0⟩
/-- SEC_CERT.WORD (R607). -/
def SEC_CERT_WORD : Fld := ⟨0x1202000, [0x8], 63, 0⟩
/-- SEC_REPORT.WORD (R614). -/
def SEC_REPORT_WORD : Fld := ⟨0x1203000, [0x8], 63, 0⟩
/-- SEC_RNONCE.WORD (R614). -/
def SEC_RNONCE_WORD : Fld := ⟨0x1203400, [0x8], 63, 0⟩
/-- SEC_MR.WORD (R613). -/
def SEC_MR_WORD : Fld := ⟨0x1204000, [0x20, 0x8], 63, 0⟩
/-- ATT_NONCE.WORD (R614). -/
def ATT_NONCE_WORD : Fld := ⟨0x10500000, [0x4000000, 0x8], 63, 0⟩
/-- ATT_CMD.OP (R614). -/
def ATT_CMD_OP : Fld := ⟨0x10500020, [0x4000000], 63, 60⟩
/-- ATT_STAT.BUSY (R616). -/
def ATT_STAT_BUSY : Fld := ⟨0x10500028, [0x4000000], 63, 63⟩
/-- ATT_STAT.CODE (R616). -/
def ATT_STAT_CODE : Fld := ⟨0x10500028, [0x4000000], 62, 55⟩
/-- ATT_DATA.WORD (R613). -/
def ATT_DATA_WORD : Fld := ⟨0x10500040, [0x4000000, 0x8], 63, 0⟩
/-- ATT_REPORT.WORD (R615). -/
def ATT_REPORT_WORD : Fld := ⟨0x10500100, [0x4000000, 0x8], 63, 0⟩
/-- ATT_CERT.WORD (R607). -/
def ATT_CERT_WORD : Fld := ⟨0x10500400, [0x4000000, 0x8], 63, 0⟩
/-- PNE_ID.ISLAND (R91). -/
def PNE_ID_ISLAND : Fld := ⟨0x2000000, [0x10000], 63, 48⟩
/-- PNE_ID.PANE (R91). -/
def PNE_ID_PANE : Fld := ⟨0x2000000, [0x10000], 47, 36⟩
/-- PNE_ID.DIE (R91). -/
def PNE_ID_DIE : Fld := ⟨0x2000000, [0x10000], 35, 33⟩
/-- PNE_ID.SLOT (R91). -/
def PNE_ID_SLOT : Fld := ⟨0x2000000, [0x10000], 32, 27⟩
/-- PNE_ID.PRESENT (R91). -/
def PNE_ID_PRESENT : Fld := ⟨0x2000000, [0x10000], 26, 26⟩
/-- PNE_ID.MIGRATED (R91). -/
def PNE_ID_MIGRATED : Fld := ⟨0x2000000, [0x10000], 25, 25⟩
/-- PNE_CLOCK.LIMIT (R91). -/
def PNE_CLOCK_LIMIT : Fld := ⟨0x2000008, [0x10000], 43, 40⟩
/-- PNE_CLOCK.ACTUAL_MHZ (R91). -/
def PNE_CLOCK_ACTUAL_MHZ : Fld := ⟨0x2000008, [0x10000], 39, 28⟩
/-- PNE_CLOCK.TARGET_MHZ (R91). -/
def PNE_CLOCK_TARGET_MHZ : Fld := ⟨0x2000008, [0x10000], 27, 16⟩
/-- PNE_CVT_SAT.COUNT (R91). -/
def PNE_CVT_SAT_COUNT : Fld := ⟨0x2000100, [0x10000], 47, 0⟩
/-- PNE_CVT_FLUSH.COUNT (R91). -/
def PNE_CVT_FLUSH_COUNT : Fld := ⟨0x2000108, [0x10000], 47, 0⟩
/-- PNE_CVT_NONFINITE.COUNT (R91). -/
def PNE_CVT_NONFINITE_COUNT : Fld := ⟨0x2000110, [0x10000], 47, 0⟩
/-- PNE_MX_TRUNC.COUNT (R91). -/
def PNE_MX_TRUNC_COUNT : Fld := ⟨0x2000118, [0x10000], 47, 0⟩
/-- PNE_MX_NONFINITE.COUNT (R91). -/
def PNE_MX_NONFINITE_COUNT : Fld := ⟨0x2000120, [0x10000], 47, 0⟩
/-- PNE_MX_OVF.DRAIN_FLUSH (R91). -/
def PNE_MX_OVF_DRAIN_FLUSH : Fld := ⟨0x2000128, [0x10000], 47, 32⟩
/-- PNE_MX_OVF.OVF (R91). -/
def PNE_MX_OVF_OVF : Fld := ⟨0x2000128, [0x10000], 31, 0⟩
/-- PNE_VX_COUNT.SINGULAR_FALLBACK (R91). -/
def PNE_VX_COUNT_SINGULAR_FALLBACK : Fld := ⟨0x2000130, [0x10000], 63, 48⟩
/-- PNE_VX_COUNT.SHIFT_TRIES (R91). -/
def PNE_VX_COUNT_SHIFT_TRIES : Fld := ⟨0x2000130, [0x10000], 47, 32⟩
/-- PNE_VX_COUNT.NONFINITE (R91). -/
def PNE_VX_COUNT_NONFINITE : Fld := ⟨0x2000130, [0x10000], 31, 0⟩
/-- PNE_STREAM_PRIO.FIRST (R91). -/
def PNE_STREAM_PRIO_FIRST : Fld := ⟨0x2000218, [0x10000], 5, 4⟩
/-- PNE_STREAM_PRIO.SECOND (R91). -/
def PNE_STREAM_PRIO_SECOND : Fld := ⟨0x2000218, [0x10000], 3, 2⟩
/-- PNE_STREAM_PRIO.THIRD (R91). -/
def PNE_STREAM_PRIO_THIRD : Fld := ⟨0x2000218, [0x10000], 1, 0⟩
/-- PNE_EXC.VALID (R91). -/
def PNE_EXC_VALID : Fld := ⟨0x2000220, [0x10000], 63, 61⟩
/-- PNE_EXC.STREAM (R91). -/
def PNE_EXC_STREAM : Fld := ⟨0x2000220, [0x10000], 60, 59⟩
/-- PNE_EXC.OVERRUN (R91). -/
def PNE_EXC_OVERRUN : Fld := ⟨0x2000220, [0x10000], 58, 58⟩
/-- PNE_EXC.CODE (R91). -/
def PNE_EXC_CODE : Fld := ⟨0x2000220, [0x10000], 57, 50⟩
/-- PNE_EXC.PC (R91). -/
def PNE_EXC_PC : Fld := ⟨0x2000220, [0x10000], 49, 36⟩
/-- PNE_EXC.INFO (R91). -/
def PNE_EXC_INFO : Fld := ⟨0x2000220, [0x10000], 35, 12⟩
/-- PNE_QUEUE.VECTOR (R91). -/
def PNE_QUEUE_VECTOR : Fld := ⟨0x2000228, [0x10000], 21, 16⟩
/-- PNE_QUEUE.MATRIX (R91). -/
def PNE_QUEUE_MATRIX : Fld := ⟨0x2000228, [0x10000], 12, 8⟩
/-- PNE_QUEUE.COPY (R91). -/
def PNE_QUEUE_COPY : Fld := ⟨0x2000228, [0x10000], 4, 0⟩
/-- PNE_STREAM.STATE (R155). -/
def PNE_STREAM_STATE : Fld := ⟨0x2000200, [0x10000, 0x8], 63, 61⟩
/-- PNE_STREAM.WAIT_ON (R155). -/
def PNE_STREAM_WAIT_ON : Fld := ⟨0x2000200, [0x10000, 0x8], 60, 57⟩
/-- PNE_STREAM.TOKEN (R155). -/
def PNE_STREAM_TOKEN : Fld := ⟨0x2000200, [0x10000, 0x8], 56, 51⟩
/-- PNE_STREAM.PC (R155). -/
def PNE_STREAM_PC : Fld := ⟨0x2000200, [0x10000, 0x8], 45, 32⟩
/-- PNE_STREAM.ISSUED (R155). -/
def PNE_STREAM_ISSUED : Fld := ⟨0x2000200, [0x10000, 0x8], 31, 0⟩

end R

/-- Register arrays of block PRT. -/
def regMapPrt0 : List RegArr := [
  -- PRT_ID
  ⟨0x0, [], [⟨63, 48, .ro, 20304⟩, ⟨47, 32, .ro, 24928⟩, ⟨31, 28, .ro, 1⟩, ⟨27, 24, .ro, 1⟩, ⟨23, 20, .ro, 1⟩]⟩,
  -- PRT_SERIAL
  ⟨0x8, [], [⟨63, 0, .ro, 0⟩]⟩,
  -- PRT_CAP_MAP
  ⟨0x10, [], [⟨63, 0, .ro, 0⟩]⟩,
  -- PRT_STATUS
  ⟨0x18, [], [⟨63, 60, .ro, 0⟩, ⟨59, 57, .ro, 0⟩, ⟨56, 56, .ro, 0⟩, ⟨55, 52, .ro, 0⟩, ⟨51, 49, .ro, 0⟩, ⟨48, 48, .ro, 0⟩, ⟨3, 2, .ro, 0⟩, ⟨1, 1, .ro, 0⟩, ⟨0, 0, .ro, 0⟩]⟩,
  -- PRT_LAYOUT
  ⟨0x20, [], [⟨63, 52, .ro, 0⟩, ⟨51, 48, .ro, 0⟩, ⟨47, 36, .ro, 0⟩, ⟨35, 22, .ro, 0⟩]⟩,
  -- PRT_BRIDGE_STATUS
  ⟨0x28, [], [⟨55, 0, .ro, 0⟩]⟩,
  -- PRT_PANE_MAP
  ⟨0x40, [⟨0, 8, 0x8⟩], [⟨51, 48, .ro, 0⟩, ⟨47, 0, .ro, 0⟩]⟩,
  -- PRT_CAP_MAPW
  ⟨0x80, [⟨0, 3, 0x8⟩], [⟨63, 0, .ro, 0⟩]⟩,
  -- PRT_CAP_ENTRY
  ⟨0x100, [⟨0, 256, 0x8⟩], [⟨47, 32, .ro, 0⟩, ⟨31, 16, .ro, 0⟩, ⟨15, 8, .ro, 0⟩, ⟨0, 0, .ro, 0⟩]⟩,
  -- PRT_HOSTERR
  ⟨0xa00, [⟨0, 3, 0x8⟩], [⟨63, 32, .ro, 0⟩, ⟨31, 16, .rc, 0⟩, ⟨15, 0, .rc, 0⟩]⟩,
  -- PRT_POWER
  ⟨0xc00, [], [⟨63, 48, .ro, 0⟩, ⟨47, 34, .ro, 0⟩, ⟨33, 20, .rc, 0⟩, ⟨19, 19, .ro, 0⟩]⟩,
  -- PRT_PWRCAP
  ⟨0xc08, [], [⟨63, 50, .rw, 3200⟩, ⟨49, 38, .rw, 3300⟩]⟩]

/-- Register arrays of block PRT. -/
def regMapPrt1 : List RegArr := [
  -- PRT_THERM
  ⟨0xc40, [⟨0, 12, 0x8⟩], [⟨63, 56, .ro, 0⟩, ⟨55, 48, .rc, 0⟩, ⟨47, 47, .ro, 0⟩]⟩,
  -- PRT_HP_LINK
  ⟨0xd00, [⟨0, 2, 0x8⟩], [⟨63, 63, .ro, 0⟩, ⟨62, 62, .ro, 0⟩, ⟨61, 59, .ro, 0⟩, ⟨58, 54, .ro, 0⟩]⟩,
  -- PRT_MARGIN_CMD
  ⟨0xe00, [], [⟨63, 60, .wo, 0⟩, ⟨59, 51, .wo, 0⟩, ⟨50, 49, .wo, 0⟩]⟩,
  -- PRT_MARGIN_STAT
  ⟨0xe08, [], [⟨63, 63, .ro, 0⟩, ⟨62, 55, .ro, 0⟩, ⟨54, 46, .ro, 0⟩, ⟨45, 34, .ro, 0⟩, ⟨33, 22, .ro, 0⟩]⟩]

/-- Register arrays of block CFG. -/
def regMapCfg0 : List RegArr := [
  -- CFG_RUN_ID
  ⟨0x100000, [], [⟨63, 0, .ro, 0⟩]⟩,
  -- CFG_RUN
  ⟨0x100008, [], [⟨63, 62, .ro, 0⟩, ⟨61, 61, .ro, 0⟩, ⟨60, 60, .ro, 0⟩, ⟨59, 59, .ro, 0⟩, ⟨55, 48, .ro, 0⟩, ⟨47, 40, .ro, 0⟩, ⟨39, 0, .ro, 0⟩]⟩,
  -- CFG_STATUS
  ⟨0x100010, [], [⟨63, 56, .ro, 0⟩, ⟨55, 48, .ro, 0⟩, ⟨47, 32, .ro, 0⟩, ⟨31, 8, .ro, 0⟩]⟩,
  -- CFG_CHART
  ⟨0x100020, [⟨0, 4, 0x8⟩], [⟨63, 63, .ro, 0⟩, ⟨62, 62, .ro, 0⟩, ⟨61, 61, .ro, 0⟩, ⟨31, 0, .ro, 0⟩]⟩,
  -- CFG_CHART_CMD
  ⟨0x100040, [], [⟨63, 60, .wo, 0⟩, ⟨59, 58, .wo, 0⟩, ⟨57, 57, .wo, 0⟩]⟩,
  -- CFG_CHART_ADDR
  ⟨0x100048, [], [⟨63, 12, .rw, 0⟩]⟩,
  -- CFG_CHART_LEN
  ⟨0x100050, [], [⟨25, 0, .rw, 0⟩]⟩,
  -- CFG_CHART_STATUS
  ⟨0x100058, [], [⟨63, 63, .ro, 0⟩, ⟨62, 59, .ro, 0⟩, ⟨58, 51, .ro, 0⟩, ⟨31, 0, .ro, 0⟩]⟩,
  -- CFG_PEPOCH
  ⟨0x100100, [⟨0, 33, 0x8⟩], [⟨31, 0, .ro, 0⟩]⟩,
  -- CFG_TXN_BEGIN
  ⟨0x101000, [⟨0, 33, 0x100⟩], [⟨63, 0, .wo, 0⟩]⟩,
  -- CFG_TXN_COMMIT
  ⟨0x101008, [⟨0, 33, 0x100⟩], [⟨19, 0, .wo, 0⟩]⟩,
  -- CFG_TXN_ABORT
  ⟨0x101010, [⟨0, 33, 0x100⟩], [⟨63, 0, .wo, 0⟩]⟩]

/-- Register arrays of block CFG. -/
def regMapCfg1 : List RegArr := [
  -- CFG_TXN_WADDR
  ⟨0x101018, [⟨0, 33, 0x100⟩], [⟨63, 0, .rw, 0⟩]⟩,
  -- CFG_TXN_WDATA
  ⟨0x101020, [⟨0, 33, 0x100⟩], [⟨63, 0, .wo, 0⟩]⟩,
  -- CFG_TXN_DELTA_ADDR
  ⟨0x101028, [⟨0, 33, 0x100⟩], [⟨63, 6, .rw, 0⟩]⟩,
  -- CFG_TXN_DELTA_LEN
  ⟨0x101030, [⟨0, 33, 0x100⟩], [⟨24, 0, .wo, 0⟩]⟩,
  -- CFG_TXN_STATUS
  ⟨0x101038, [⟨0, 33, 0x100⟩], [⟨63, 61, .ro, 0⟩, ⟨60, 53, .ro, 0⟩, ⟨52, 40, .ro, 0⟩, ⟨39, 39, .ro, 0⟩, ⟨38, 38, .ro, 0⟩]⟩,
  -- CFG_TXN_APPLIED
  ⟨0x101040, [⟨0, 33, 0x100⟩], [⟨63, 0, .ro, 0⟩]⟩]

/-- Register arrays of block PTN. -/
def regMapPtn0 : List RegArr := [
  -- PTN_PSTATE
  ⟨0x200000, [⟨1, 32, 0x100⟩], [⟨63, 61, .ro, 0⟩, ⟨60, 53, .ro, 0⟩, ⟨52, 45, .ro, 0⟩, ⟨44, 44, .ro, 0⟩]⟩,
  -- PTN_PCMD
  ⟨0x200008, [⟨1, 32, 0x100⟩], [⟨63, 60, .wo, 0⟩]⟩,
  -- PTN_PTIME
  ⟨0x200010, [⟨1, 32, 0x100⟩], [⟨63, 0, .ro, 0⟩]⟩,
  -- PTN_PSLICE
  ⟨0x200018, [⟨1, 32, 0x100⟩], [⟨63, 44, .ro, 0⟩, ⟨43, 24, .ro, 0⟩, ⟨23, 0, .rc, 0⟩]⟩,
  -- PTN_PSMAP
  ⟨0x200040, [⟨1, 32, 0x100⟩, ⟨0, 8, 0x8⟩], [⟨63, 63, .rw, 0⟩, ⟨62, 57, .rw, 0⟩, ⟨56, 37, .rw, 0⟩]⟩,
  -- PTN_PANE_TICKS
  ⟨0x210000, [⟨1, 32, 0x100⟩], [⟨63, 0, .ro, 0⟩]⟩,
  -- PTN_EXEMPT_TICKS
  ⟨0x210008, [⟨1, 32, 0x100⟩], [⟨63, 0, .ro, 0⟩]⟩,
  -- PTN_HOLD_TICKS
  ⟨0x210010, [⟨1, 32, 0x100⟩], [⟨63, 0, .ro, 0⟩]⟩,
  -- PTN_OVERRUN_TICKS
  ⟨0x210018, [⟨1, 32, 0x100⟩], [⟨63, 0, .ro, 0⟩]⟩,
  -- PTN_HBM_RD_BYTES
  ⟨0x210020, [⟨1, 32, 0x100⟩], [⟨63, 0, .ro, 0⟩]⟩,
  -- PTN_HBM_WR_BYTES
  ⟨0x210028, [⟨1, 32, 0x100⟩], [⟨63, 0, .ro, 0⟩]⟩,
  -- PTN_FAR_BYTES
  ⟨0x210030, [⟨1, 32, 0x100⟩], [⟨63, 0, .ro, 0⟩]⟩]

/-- Register arrays of block PTN. -/
def regMapPtn1 : List RegArr := [
  -- PTN_LINK_TX_BYTES
  ⟨0x210038, [⟨1, 32, 0x100⟩], [⟨63, 0, .ro, 0⟩]⟩,
  -- PTN_LINK_RX_BYTES
  ⟨0x210040, [⟨1, 32, 0x100⟩], [⟨63, 0, .ro, 0⟩]⟩,
  -- PTN_HOST_BYTES
  ⟨0x210048, [⟨1, 32, 0x100⟩], [⟨63, 0, .ro, 0⟩]⟩,
  -- PTN_HATCH_CMDS
  ⟨0x210050, [⟨1, 32, 0x100⟩], [⟨63, 0, .ro, 0⟩]⟩,
  -- PTN_REQUESTS
  ⟨0x210058, [⟨1, 32, 0x100⟩], [⟨63, 0, .ro, 0⟩]⟩,
  -- PTN_STEPS
  ⟨0x210060, [⟨1, 32, 0x100⟩], [⟨63, 0, .ro, 0⟩]⟩,
  -- PTN_PROMPT_TOKENS
  ⟨0x210068, [⟨1, 32, 0x100⟩], [⟨63, 0, .ro, 0⟩]⟩,
  -- PTN_GEN_TOKENS
  ⟨0x210070, [⟨1, 32, 0x100⟩], [⟨63, 0, .ro, 0⟩]⟩,
  -- PTN_MSNAP
  ⟨0x210078, [⟨1, 32, 0x100⟩], [⟨63, 0, .wo, 0⟩]⟩,
  -- PTN_SNAP_TIME
  ⟨0x210080, [⟨1, 32, 0x100⟩], [⟨63, 0, .ro, 0⟩]⟩,
  -- PTN_SREG
  ⟨0x204000, [⟨0, 64, 0x20⟩], [⟨63, 61, .ro, 0⟩, ⟨60, 58, .wo, 0⟩, ⟨57, 56, .rw, 0⟩, ⟨55, 48, .ro, 0⟩, ⟨47, 28, .rw, 0⟩, ⟨27, 12, .rw, 0⟩]⟩,
  -- PTN_SREG_ADDR
  ⟨0x204008, [⟨0, 64, 0x20⟩], [⟨63, 12, .rw, 0⟩]⟩]

/-- Register arrays of block PTN. -/
def regMapPtn2 : List RegArr := [
  -- PTN_SREG_MAPS
  ⟨0x204010, [⟨0, 64, 0x20⟩], [⟨63, 58, .ro, 0⟩]⟩,
  -- PTN_GROUP
  ⟨0x206000, [⟨0, 32, 0x8⟩], [⟨63, 58, .ro, 0⟩, ⟨57, 52, .ro, 0⟩, ⟨47, 0, .rc, 0⟩]⟩]

/-- Register arrays of block HTC. -/
def regMapHtc0 : List RegArr := [
  -- HTC_BASE
  ⟨0x300000, [⟨1, 32, 0x1000⟩, ⟨0, 4, 0x100⟩, ⟨0, 8, 0x8⟩], [⟨63, 0, .rw, 0⟩]⟩,
  -- HTC_TARGET
  ⟨0x300040, [⟨1, 32, 0x1000⟩, ⟨0, 4, 0x100⟩], [⟨63, 63, .rw, 0⟩, ⟨62, 51, .rw, 0⟩, ⟨50, 43, .ro, 0⟩]⟩,
  -- HTC_CREDIT
  ⟨0x300048, [⟨1, 32, 0x1000⟩, ⟨0, 4, 0x100⟩], [⟨63, 32, .ro, 0⟩, ⟨31, 21, .ro, 0⟩, ⟨20, 10, .ro, 0⟩]⟩,
  -- HTC_STAT
  ⟨0x300050, [⟨1, 32, 0x1000⟩, ⟨0, 4, 0x100⟩], [⟨63, 63, .w1c, 0⟩, ⟨62, 62, .w1c, 0⟩, ⟨47, 32, .rc, 0⟩, ⟨31, 16, .rc, 0⟩, ⟨15, 0, .rc, 0⟩]⟩,
  -- HTC_CRING
  ⟨0x300058, [⟨1, 32, 0x1000⟩, ⟨0, 4, 0x100⟩], [⟨63, 12, .rw, 0⟩]⟩,
  -- HTC_CRCFG
  ⟨0x300060, [⟨1, 32, 0x1000⟩, ⟨0, 4, 0x100⟩], [⟨63, 44, .rw, 0⟩, ⟨43, 28, .rw, 0⟩, ⟨27, 20, .rw, 0⟩]⟩,
  -- HTC_CHEAD
  ⟨0x300070, [⟨1, 32, 0x1000⟩, ⟨0, 4, 0x100⟩], [⟨63, 0, .ro, 0⟩]⟩,
  -- HTC_CTAIL
  ⟨0x300078, [⟨1, 32, 0x1000⟩, ⟨0, 4, 0x100⟩], [⟨63, 0, .rw, 0⟩]⟩,
  -- HTC_HOSTERR
  ⟨0x10050400, [⟨1, 32, 0x4000000⟩], [⟨63, 32, .ro, 0⟩, ⟨31, 16, .rc, 0⟩, ⟨15, 0, .rc, 0⟩]⟩]

/-- Register arrays of block GZT. -/
def regMapGzt0 : List RegArr := [
  -- GZT_PQUOTA
  ⟨0x500000, [⟨1, 32, 0x8⟩], [⟨63, 50, .rw, 0⟩, ⟨49, 35, .rw, 0⟩, ⟨34, 22, .rw, 0⟩, ⟨21, 11, .rw, 0⟩]⟩,
  -- GZT_PATLAS
  ⟨0x500200, [⟨1, 32, 0x8⟩], [⟨63, 0, .rw, 0⟩]⟩,
  -- GZT_PCFG
  ⟨0x501000, [⟨1, 32, 0x100⟩], [⟨63, 63, .rw, 0⟩, ⟨62, 48, .rw, 0⟩, ⟨47, 24, .rw, 0⟩, ⟨23, 16, .rw, 0⟩]⟩,
  -- GZT_PSTAGE
  ⟨0x501008, [⟨1, 32, 0x100⟩], [⟨63, 40, .rw, 0⟩, ⟨39, 16, .rw, 0⟩, ⟨15, 0, .rw, 0⟩]⟩,
  -- GZT_PKV
  ⟨0x501010, [⟨1, 32, 0x100⟩], [⟨59, 30, .rw, 0⟩, ⟨29, 13, .rw, 0⟩, ⟨12, 5, .rw, 0⟩]⟩,
  -- GZT_PPLIST
  ⟨0x501018, [⟨1, 32, 0x100⟩], [⟨63, 16, .rw, 0⟩, ⟨15, 0, .rw, 0⟩]⟩,
  -- GZT_POUT
  ⟨0x501020, [⟨1, 32, 0x100⟩], [⟨63, 12, .rw, 0⟩]⟩,
  -- GZT_POUTCFG
  ⟨0x501028, [⟨1, 32, 0x100⟩], [⟨63, 44, .rw, 0⟩, ⟨43, 28, .rw, 0⟩]⟩,
  -- GZT_PSTAT
  ⟨0x501040, [⟨1, 32, 0x100⟩], [⟨63, 48, .rc, 0⟩, ⟨47, 32, .rc, 0⟩, ⟨31, 16, .rc, 0⟩, ⟨15, 0, .rc, 0⟩]⟩,
  -- GZT_PSPACE
  ⟨0x501048, [⟨1, 32, 0x100⟩], [⟨63, 47, .ro, 0⟩, ⟨46, 30, .ro, 0⟩, ⟨29, 15, .ro, 0⟩]⟩,
  -- GZT_PAIRCFG
  ⟨0x501080, [⟨1, 32, 0x100⟩], [⟨63, 63, .rw, 0⟩, ⟨62, 62, .rw, 0⟩, ⟨61, 46, .rw, 65535⟩]⟩,
  -- GZT_PAIRSTAT
  ⟨0x501098, [⟨1, 32, 0x100⟩], [⟨63, 62, .ro, 0⟩, ⟨61, 54, .ro, 0⟩, ⟨53, 50, .ro, 0⟩, ⟨49, 46, .ro, 0⟩, ⟨45, 32, .ro, 0⟩, ⟨31, 16, .rc, 0⟩, ⟨15, 0, .rc, 0⟩]⟩]

/-- Register arrays of block GZT. -/
def regMapGzt1 : List RegArr := [
  -- GZT_POUT_HEAD
  ⟨0x501030, [⟨1, 32, 0x100⟩], [⟨63, 0, .ro, 0⟩]⟩,
  -- GZT_POUT_TAIL
  ⟨0x501038, [⟨1, 32, 0x100⟩], [⟨63, 0, .rw, 0⟩]⟩,
  -- GZT_PAIRSTBY
  ⟨0x501088, [⟨1, 32, 0x100⟩], [⟨63, 40, .rw, 0⟩]⟩,
  -- GZT_PAIRSTORE
  ⟨0x501090, [⟨1, 32, 0x100⟩], [⟨63, 34, .rw, 0⟩, ⟨33, 8, .rw, 0⟩]⟩,
  -- GZT_PIPECTL
  ⟨0x504000, [⟨0, 32, 0x40⟩], [⟨63, 63, .rw, 0⟩, ⟨62, 55, .rw, 0⟩, ⟨54, 43, .rw, 0⟩, ⟨42, 38, .rw, 0⟩, ⟨37, 35, .rw, 0⟩, ⟨34, 27, .rw, 0⟩, ⟨26, 19, .rw, 0⟩, ⟨18, 5, .rw, 0⟩]⟩,
  -- GZT_PIPECFG
  ⟨0x504008, [⟨0, 32, 0x40⟩], [⟨63, 53, .rw, 0⟩, ⟨52, 45, .rw, 0⟩, ⟨44, 29, .rw, 0⟩, ⟨28, 5, .rw, 0⟩, ⟨4, 3, .rw, 0⟩]⟩,
  -- GZT_PIPESTAT
  ⟨0x504010, [⟨0, 32, 0x40⟩], [⟨63, 62, .ro, 0⟩, ⟨61, 61, .ro, 0⟩, ⟨60, 55, .ro, 0⟩, ⟨54, 54, .ro, 0⟩, ⟨53, 40, .ro, 0⟩, ⟨39, 32, .ro, 0⟩, ⟨31, 0, .ro, 0⟩]⟩,
  -- GZT_PIPETIME
  ⟨0x504018, [⟨0, 32, 0x40⟩], [⟨63, 32, .ro, 0⟩, ⟨31, 0, .ro, 0⟩]⟩,
  -- GZT_ATLAS_DESC
  ⟨0x510000, [⟨0, 64, 0x100⟩, ⟨0, 32, 0x8⟩], [⟨63, 0, .rw, 0⟩]⟩,
  -- GZT_ATLAS
  ⟨0x518000, [⟨0, 64, 0x8⟩], [⟨63, 62, .ro, 0⟩, ⟨61, 60, .wo, 0⟩, ⟨59, 52, .ro, 0⟩]⟩]

/-- Register arrays of block SMP. -/
def regMapSmp0 : List RegArr := [
  -- SMP_COUNT
  ⟨0x600000, [⟨0, 8, 0x8⟩], [⟨63, 32, .rc, 0⟩, ⟨31, 16, .rc, 0⟩, ⟨15, 8, .rc, 0⟩, ⟨7, 0, .rc, 0⟩]⟩]

/-- Register arrays of block LVR. -/
def regMapLvr0 : List RegArr := [
  -- LVR_STATUS
  ⟨0x700000, [⟨0, 8, 0x8⟩], [⟨55, 48, .ro, 0⟩, ⟨47, 40, .ro, 0⟩, ⟨39, 36, .ro, 0⟩, ⟨35, 32, .ro, 0⟩, ⟨31, 0, .rc, 0⟩]⟩,
  -- LVR_CCTL
  ⟨0x701000, [⟨0, 64, 0x80⟩], [⟨63, 53, .rw, 0⟩, ⟨52, 37, .rw, 0⟩, ⟨36, 16, .rw, 0⟩, ⟨15, 15, .rw, 0⟩, ⟨14, 14, .rw, 0⟩]⟩,
  -- LVR_CWEIGHT
  ⟨0x701008, [⟨0, 64, 0x80⟩], [⟨63, 32, .rw, 0⟩, ⟨31, 0, .rw, 0⟩]⟩,
  -- LVR_CLRING
  ⟨0x701010, [⟨0, 64, 0x80⟩], [⟨63, 40, .rw, 0⟩, ⟨39, 20, .rw, 0⟩]⟩,
  -- LVR_CREMOTE
  ⟨0x701018, [⟨0, 64, 0x80⟩], [⟨63, 63, .rw, 0⟩, ⟨55, 40, .rw, 0⟩, ⟨39, 34, .rw, 0⟩]⟩,
  -- LVR_CCMD
  ⟨0x701020, [⟨0, 64, 0x80⟩], [⟨63, 60, .wo, 0⟩]⟩,
  -- LVR_CSTATE
  ⟨0x701028, [⟨0, 64, 0x80⟩], [⟨63, 61, .ro, 0⟩, ⟨60, 53, .ro, 0⟩, ⟨52, 37, .ro, 0⟩, ⟨36, 21, .ro, 0⟩]⟩,
  -- LVR_CROWS
  ⟨0x701030, [⟨0, 64, 0x80⟩], [⟨63, 32, .ro, 0⟩, ⟨31, 0, .ro, 0⟩]⟩,
  -- LVR_CCOUNT
  ⟨0x701038, [⟨0, 64, 0x80⟩], [⟨63, 48, .rc, 0⟩, ⟨47, 32, .rc, 0⟩, ⟨31, 16, .rc, 0⟩, ⟨15, 0, .rc, 0⟩]⟩,
  -- LVR_CPACE
  ⟨0x701040, [⟨0, 64, 0x80⟩], [⟨63, 32, .rc, 0⟩, ⟨31, 0, .rc, 0⟩]⟩,
  -- LVR_CQUEUE
  ⟨0x701048, [⟨0, 64, 0x80⟩], [⟨63, 48, .ro, 0⟩, ⟨47, 32, .ro, 0⟩]⟩,
  -- LVR_TAP
  ⟨0x704000, [⟨0, 64, 0x40⟩, ⟨0, 8, 0x8⟩], [⟨63, 63, .rw, 0⟩, ⟨62, 51, .rw, 0⟩, ⟨50, 43, .rw, 0⟩, ⟨42, 30, .rw, 0⟩, ⟨29, 14, .rw, 0⟩]⟩]

/-- Register arrays of block MEM. -/
def regMapMem0 : List RegArr := [
  -- MEM_CHAN
  ⟨0x800000, [⟨0, 512, 0x8⟩], [⟨63, 61, .ro, 0⟩, ⟨60, 58, .ro, 0⟩, ⟨31, 16, .rc, 0⟩, ⟨15, 0, .rc, 0⟩]⟩,
  -- MEM_STACK
  ⟨0x801000, [⟨0, 16, 0x8⟩], [⟨63, 56, .ro, 0⟩, ⟨55, 48, .rc, 0⟩, ⟨47, 45, .ro, 0⟩, ⟨44, 44, .ro, 0⟩, ⟨43, 43, .ro, 0⟩, ⟨31, 0, .ro, 0⟩]⟩,
  -- MEM_STACKCMD
  ⟨0x801100, [], [⟨63, 60, .wo, 0⟩, ⟨59, 56, .wo, 0⟩, ⟨55, 48, .ro, 0⟩]⟩,
  -- MEM_STATUS
  ⟨0x801108, [], [⟨63, 44, .ro, 0⟩, ⟨43, 24, .ro, 0⟩, ⟨23, 14, .ro, 0⟩, ⟨13, 4, .ro, 0⟩]⟩,
  -- MEM_PREG
  ⟨0x802000, [⟨0, 33, 0x8⟩], [⟨63, 48, .ro, 0⟩, ⟨31, 0, .rc, 0⟩]⟩,
  -- MEM_PPLACE
  ⟨0x804000, [⟨1, 32, 0x40⟩, ⟨0, 8, 0x8⟩], [⟨63, 45, .rw, 0⟩, ⟨44, 25, .rw, 0⟩, ⟨24, 9, .rw, 0⟩]⟩,
  -- MEM_GOLD_CTL
  ⟨0x808000, [⟨0, 64, 0x20⟩], [⟨63, 61, .ro, 0⟩, ⟨60, 59, .rw, 0⟩, ⟨58, 58, .rw, 0⟩, ⟨57, 56, .wo, 0⟩, ⟨55, 48, .ro, 0⟩, ⟨47, 28, .rw, 0⟩]⟩,
  -- MEM_GOLD_ADDR
  ⟨0x808008, [⟨0, 64, 0x20⟩], [⟨63, 12, .rw, 0⟩]⟩,
  -- MEM_GOLD_DIG
  ⟨0x808010, [⟨0, 64, 0x20⟩], [⟨63, 6, .rw, 0⟩]⟩]

/-- Register arrays of block TRN. -/
def regMapTrn0 : List RegArr := [
  -- TRN_DIE
  ⟨0xa00000, [⟨0, 8, 0x8⟩], [⟨63, 55, .ro, 0⟩, ⟨54, 43, .ro, 0⟩, ⟨31, 16, .rc, 0⟩, ⟨15, 0, .rc, 0⟩]⟩,
  -- TRN_PPLACE
  ⟨0xa00100, [⟨1, 32, 0x8⟩], [⟨63, 0, .rw, 0⟩]⟩]

/-- Register arrays of block FAR. -/
def regMapFar0 : List RegArr := [
  -- FAR_PORT
  ⟨0xb00000, [⟨0, 2, 0x8⟩], [⟨63, 61, .ro, 0⟩, ⟨60, 56, .ro, 0⟩, ⟨55, 43, .ro, 0⟩, ⟨31, 16, .rc, 0⟩, ⟨15, 0, .rc, 0⟩]⟩,
  -- FAR_CTL
  ⟨0xb00040, [], [⟨63, 63, .rw, 0⟩]⟩,
  -- FAR_PQUOTA
  ⟨0xb00100, [⟨0, 33, 0x8⟩], [⟨63, 41, .rw, 0⟩, ⟨40, 39, .rw, 0⟩]⟩]

/-- Register arrays of block MRD. -/
def regMapMrd0 : List RegArr := [
  -- MRD_ID
  ⟨0xc00000, [], [⟨47, 32, .rw, 65535⟩, ⟨31, 16, .rw, 0⟩, ⟨15, 12, .ro, 1⟩, ⟨11, 8, .ro, 1⟩, ⟨7, 7, .rw, 0⟩]⟩,
  -- MRD_STAT
  ⟨0xc00100, [], [⟨63, 48, .rc, 0⟩, ⟨47, 32, .rc, 0⟩, ⟨31, 16, .rc, 0⟩, ⟨15, 0, .rc, 0⟩]⟩,
  -- MRD_LSTATE
  ⟨0xc01000, [⟨0, 10, 0x100⟩], [⟨63, 61, .ro, 0⟩, ⟨60, 56, .ro, 0⟩, ⟨55, 52, .ro, 0⟩, ⟨51, 44, .ro, 0⟩, ⟨43, 26, .ro, 0⟩, ⟨25, 8, .ro, 0⟩]⟩,
  -- MRD_LCMD
  ⟨0xc01008, [⟨0, 10, 0x100⟩], [⟨63, 60, .wo, 0⟩]⟩,
  -- MRD_LPEER
  ⟨0xc01010, [⟨0, 10, 0x100⟩], [⟨63, 48, .ro, 65535⟩, ⟨47, 32, .ro, 0⟩, ⟨31, 28, .ro, 0⟩, ⟨27, 24, .ro, 0⟩, ⟨23, 16, .ro, 255⟩, ⟨15, 15, .ro, 0⟩, ⟨14, 14, .ro, 0⟩]⟩,
  -- MRD_LSERIAL
  ⟨0xc01018, [⟨0, 10, 0x100⟩], [⟨63, 0, .ro, 0⟩]⟩,
  -- MRD_LERR
  ⟨0xc01020, [⟨0, 10, 0x100⟩], [⟨63, 32, .rc, 0⟩, ⟨31, 16, .rc, 0⟩, ⟨15, 0, .rc, 0⟩]⟩,
  -- MRD_LVIOL
  ⟨0xc01028, [⟨0, 10, 0x100⟩], [⟨63, 56, .ro, 0⟩, ⟨55, 53, .ro, 0⟩, ⟨52, 41, .ro, 0⟩, ⟨31, 16, .ro, 0⟩, ⟨15, 0, .rc, 0⟩]⟩,
  -- MRD_LCFG
  ⟨0xc01030, [⟨0, 10, 0x100⟩], [⟨63, 56, .rw, 0⟩]⟩,
  -- MRD_ROUTE
  ⟨0xc10000, [⟨0, 4096, 0x8⟩], [⟨63, 63, .rw, 0⟩, ⟨62, 53, .rw, 0⟩]⟩]

/-- Register arrays of block COL. -/
def regMapCol0 : List RegArr := [
  -- COL_CJOB
  ⟨0xd00100, [⟨1, 32, 0x8⟩], [⟨63, 48, .rw, 0⟩]⟩,
  -- COL_TCTL
  ⟨0xd10000, [⟨1, 32, 0x100⟩], [⟨63, 63, .rw, 0⟩, ⟨62, 61, .rw, 0⟩, ⟨60, 53, .rw, 0⟩, ⟨52, 45, .rw, 224⟩, ⟨44, 37, .rw, 32⟩, ⟨36, 21, .rw, 0⟩]⟩,
  -- COL_TCMD
  ⟨0xd10008, [⟨1, 32, 0x100⟩], [⟨63, 60, .wo, 0⟩, ⟨59, 58, .wo, 0⟩, ⟨31, 0, .wo, 0⟩]⟩,
  -- COL_TSTATE
  ⟨0xd10010, [⟨1, 32, 0x100⟩], [⟨63, 62, .ro, 0⟩, ⟨61, 54, .ro, 0⟩, ⟨31, 0, .ro, 4294967295⟩]⟩,
  -- COL_TSCALE
  ⟨0xd10018, [⟨1, 32, 0x100⟩], [⟨63, 56, .ro, 0⟩, ⟨55, 40, .ro, 0⟩, ⟨39, 32, .ro, 0⟩, ⟨31, 0, .ro, 0⟩]⟩,
  -- COL_TTABLE
  ⟨0xd10020, [⟨1, 32, 0x100⟩], [⟨63, 40, .rw, 0⟩, ⟨39, 24, .rw, 0⟩]⟩,
  -- COL_TAUX
  ⟨0xd10028, [⟨1, 32, 0x100⟩], [⟨63, 40, .rw, 0⟩, ⟨39, 16, .rw, 0⟩, ⟨15, 0, .rw, 0⟩]⟩,
  -- COL_TSTAGE
  ⟨0xd10030, [⟨1, 32, 0x100⟩], [⟨63, 40, .rw, 0⟩, ⟨39, 24, .rw, 0⟩]⟩,
  -- COL_TSUMRING
  ⟨0xd10038, [⟨1, 32, 0x100⟩], [⟨63, 12, .rw, 0⟩]⟩,
  -- COL_TSUMCFG
  ⟨0xd10040, [⟨1, 32, 0x100⟩], [⟨63, 48, .rw, 0⟩, ⟨47, 40, .rw, 0⟩, ⟨31, 0, .ro, 0⟩]⟩,
  -- COL_TDEADLINE
  ⟨0xd10048, [⟨1, 32, 0x100⟩], [⟨63, 32, .rw, 0⟩, ⟨31, 19, .rw, 0⟩]⟩,
  -- COL_TEXPORT_ADDR
  ⟨0xd10088, [⟨1, 32, 0x100⟩], [⟨63, 12, .rw, 0⟩]⟩]

/-- Register arrays of block COL. -/
def regMapCol1 : List RegArr := [
  -- COL_TEXPORT_STATUS
  ⟨0xd10090, [⟨1, 32, 0x100⟩], [⟨63, 61, .ro, 0⟩, ⟨60, 59, .ro, 0⟩, ⟨58, 0, .ro, 0⟩]⟩,
  -- COL_TARENA
  ⟨0xd10050, [⟨1, 32, 0x100⟩, ⟨0, 2, 0x8⟩], [⟨63, 60, .rw, 0⟩, ⟨59, 30, .rw, 0⟩, ⟨29, 0, .rw, 0⟩]⟩,
  -- COL_TAXIS
  ⟨0xd10060, [⟨1, 32, 0x100⟩, ⟨0, 5, 0x8⟩], [⟨63, 51, .rw, 0⟩, ⟨50, 38, .rw, 0⟩, ⟨37, 28, .rw, 0⟩]⟩,
  -- COL_CRING
  ⟨0xd20000, [⟨1, 32, 0x100⟩], [⟨63, 40, .rw, 0⟩, ⟨39, 24, .rw, 0⟩]⟩,
  -- COL_CSTAT
  ⟨0xd20008, [⟨1, 32, 0x100⟩], [⟨63, 32, .ro, 0⟩, ⟨31, 16, .ro, 0⟩]⟩,
  -- COL_CSTAGE
  ⟨0xd20010, [⟨1, 32, 0x100⟩], [⟨63, 60, .rw, 0⟩, ⟨59, 28, .rw, 0⟩, ⟨27, 8, .rw, 0⟩]⟩,
  -- COL_CMEMBERS
  ⟨0xd20018, [⟨1, 32, 0x100⟩], [⟨63, 40, .rw, 0⟩]⟩,
  -- COL_CCFG
  ⟨0xd20020, [⟨1, 32, 0x100⟩], [⟨63, 48, .rw, 65535⟩, ⟨47, 32, .rw, 0⟩]⟩,
  -- COL_CDELAY
  ⟨0xd20028, [⟨1, 32, 0x100⟩], [⟨63, 48, .ro, 0⟩, ⟨47, 44, .ro, 0⟩, ⟨43, 41, .ro, 0⟩, ⟨31, 0, .ro, 0⟩]⟩,
  -- COL_CDELAY_T
  ⟨0xd20030, [⟨1, 32, 0x100⟩], [⟨63, 0, .ro, 0⟩]⟩]

/-- Register arrays of block CKP. -/
def regMapCkp0 : List RegArr := [
  -- CKP_CTL
  ⟨0xd100a0, [⟨1, 32, 0x100⟩], [⟨63, 48, .rw, 0⟩, ⟨47, 46, .rw, 0⟩, ⟨45, 30, .rw, 65535⟩]⟩,
  -- CKP_CMD
  ⟨0xd100c0, [⟨1, 32, 0x100⟩], [⟨63, 60, .wo, 0⟩, ⟨59, 59, .wo, 0⟩]⟩,
  -- CKP_STATUS
  ⟨0xd100c8, [⟨1, 32, 0x100⟩], [⟨63, 62, .ro, 0⟩, ⟨61, 54, .ro, 0⟩, ⟨53, 52, .ro, 0⟩, ⟨51, 51, .ro, 0⟩, ⟨50, 50, .ro, 0⟩, ⟨31, 0, .ro, 4294967295⟩]⟩,
  -- CKP_SHADOW
  ⟨0xd100a8, [⟨1, 32, 0x100⟩], [⟨59, 30, .rw, 0⟩, ⟨29, 0, .rw, 0⟩]⟩,
  -- CKP_DEST
  ⟨0xd100b0, [⟨1, 32, 0x100⟩], [⟨63, 12, .rw, 0⟩]⟩,
  -- CKP_DESTLEN
  ⟨0xd100b8, [⟨1, 32, 0x100⟩], [⟨63, 32, .rw, 0⟩]⟩,
  -- CKP_RECV
  ⟨0xd100d0, [⟨1, 32, 0x100⟩], [⟨63, 48, .rw, 0⟩, ⟨47, 18, .rw, 0⟩]⟩]

/-- Register arrays of block HIER. -/
def regMapHier0 : List RegArr := [
  -- HIER_CFG
  ⟨0xd100e0, [⟨1, 32, 0x100⟩], [⟨63, 62, .rw, 0⟩, ⟨61, 46, .rw, 65535⟩, ⟨45, 30, .rw, 0⟩, ⟨29, 14, .rw, 0⟩]⟩,
  -- HIER_STAT
  ⟨0xd100e8, [⟨1, 32, 0x100⟩], [⟨63, 62, .ro, 0⟩, ⟨61, 54, .ro, 0⟩, ⟨53, 41, .ro, 0⟩, ⟨31, 0, .ro, 0⟩]⟩,
  -- HIER_ROSTER
  ⟨0xd100f0, [⟨1, 32, 0x100⟩], [⟨63, 40, .rw, 0⟩, ⟨39, 27, .rw, 0⟩]⟩]

/-- Register arrays of block GRT. -/
def regMapGrt0 : List RegArr := [
  -- GRT_NOW
  ⟨0xe00000, [], [⟨63, 0, .ro, 0⟩]⟩,
  -- GRT_STATUS
  ⟨0xe00008, [], [⟨63, 62, .ro, 0⟩, ⟨61, 61, .ro, 0⟩, ⟨60, 53, .ro, 255⟩, ⟨52, 45, .ro, 255⟩, ⟨44, 41, .ro, 0⟩, ⟨31, 0, .ro, 0⟩]⟩,
  -- GRT_SET
  ⟨0xe00010, [], [⟨63, 0, .wo, 0⟩]⟩]

/-- Register arrays of block SRV. -/
def regMapSrv0 : List RegArr := [
  -- SRV_CBUF
  ⟨0xf00000, [⟨0, 33, 0x200⟩], [⟨63, 60, .rw, 0⟩, ⟨47, 6, .rw, 0⟩]⟩,
  -- SRV_CCFG
  ⟨0xf00008, [⟨0, 33, 0x200⟩], [⟨63, 63, .rw, 0⟩, ⟨62, 43, .rw, 0⟩, ⟨42, 27, .rw, 0⟩]⟩,
  -- SRV_CSTAT
  ⟨0xf00010, [⟨0, 33, 0x200⟩], [⟨63, 32, .ro, 0⟩, ⟨31, 16, .rc, 0⟩, ⟨15, 0, .ro, 0⟩]⟩,
  -- SRV_TREGION
  ⟨0xf00020, [⟨0, 33, 0x200⟩], [⟨63, 60, .rw, 0⟩, ⟨59, 30, .rw, 0⟩, ⟨29, 16, .rw, 0⟩, ⟨13, 0, .rw, 0⟩]⟩,
  -- SRV_TCFG
  ⟨0xf00028, [⟨0, 33, 0x200⟩], [⟨63, 62, .rw, 0⟩, ⟨61, 61, .rw, 0⟩, ⟨60, 58, .rw, 0⟩]⟩,
  -- SRV_TFILT
  ⟨0xf00030, [⟨0, 33, 0x200⟩], [⟨63, 48, .rw, 0⟩, ⟨47, 32, .rw, 0⟩, ⟨31, 16, .rw, 0⟩, ⟨15, 0, .rw, 0⟩]⟩,
  -- SRV_TTRIG
  ⟨0xf00038, [⟨0, 33, 0x200⟩], [⟨63, 60, .rw, 0⟩, ⟨59, 52, .rw, 0⟩, ⟨47, 32, .rw, 0⟩, ⟨31, 16, .rw, 0⟩]⟩,
  -- SRV_TTIME
  ⟨0xf00040, [⟨0, 33, 0x200⟩], [⟨63, 0, .rw, 0⟩]⟩,
  -- SRV_TCMD
  ⟨0xf00048, [⟨0, 33, 0x200⟩], [⟨63, 60, .wo, 0⟩]⟩,
  -- SRV_TSTAT
  ⟨0xf00050, [⟨0, 33, 0x200⟩], [⟨63, 62, .ro, 0⟩, ⟨61, 61, .ro, 0⟩, ⟨60, 60, .ro, 0⟩, ⟨59, 58, .ro, 0⟩, ⟨57, 29, .ro, 0⟩, ⟨28, 0, .ro, 0⟩]⟩,
  -- SRV_TTRIGT
  ⟨0xf00058, [⟨0, 33, 0x200⟩], [⟨63, 0, .ro, 0⟩]⟩,
  -- SRV_TLOST
  ⟨0xf00060, [⟨0, 33, 0x200⟩], [⟨63, 32, .rc, 0⟩, ⟨31, 0, .rc, 0⟩]⟩]

/-- Register arrays of block SRV. -/
def regMapSrv1 : List RegArr := [
  -- SRV_TPANE
  ⟨0xf00070, [⟨0, 33, 0x200⟩, ⟨0, 6, 0x8⟩], [⟨63, 0, .rw, 0⟩]⟩,
  -- SRV_WRING
  ⟨0xf00100, [⟨0, 33, 0x200⟩], [⟨63, 60, .rw, 0⟩, ⟨47, 6, .rw, 0⟩]⟩,
  -- SRV_WCFG
  ⟨0xf00108, [⟨0, 33, 0x200⟩], [⟨63, 63, .rw, 0⟩, ⟨62, 43, .rw, 0⟩, ⟨31, 0, .rc, 0⟩]⟩,
  -- SRV_WHEAD
  ⟨0xf00110, [⟨0, 33, 0x200⟩], [⟨63, 0, .ro, 0⟩]⟩,
  -- SRV_WTAIL
  ⟨0xf00118, [⟨0, 33, 0x200⟩], [⟨63, 0, .rw, 0⟩]⟩,
  -- SRV_WSLOT
  ⟨0xf00140, [⟨0, 33, 0x200⟩, ⟨0, 16, 0x8⟩], [⟨63, 63, .rw, 0⟩, ⟨62, 60, .rw, 0⟩, ⟨59, 44, .rw, 0⟩, ⟨43, 28, .rw, 0⟩]⟩]

/-- Register arrays of block SHT. -/
def regMapSht0 : List RegArr := [
  -- SHT_CMD
  ⟨0x1000000, [], [⟨63, 60, .wo, 0⟩, ⟨59, 58, .wo, 0⟩, ⟨57, 57, .wo, 0⟩, ⟨55, 32, .wo, 0⟩, ⟨31, 24, .wo, 0⟩, ⟨23, 8, .wo, 0⟩]⟩,
  -- SHT_STATUS
  ⟨0x1000008, [], [⟨63, 61, .ro, 0⟩, ⟨60, 53, .ro, 0⟩, ⟨52, 47, .ro, 0⟩, ⟨46, 45, .ro, 0⟩, ⟨44, 37, .ro, 0⟩, ⟨31, 16, .rc, 0⟩]⟩,
  -- SHT_TSTOP
  ⟨0x1000010, [], [⟨63, 0, .ro, 0⟩]⟩,
  -- SHT_TCUT
  ⟨0x1000018, [], [⟨63, 0, .ro, 0⟩]⟩,
  -- SHT_TOPEN
  ⟨0x1000020, [], [⟨63, 0, .ro, 0⟩]⟩,
  -- SHT_REQ
  ⟨0x1000028, [], [⟨63, 48, .ro, 0⟩, ⟨31, 0, .ro, 0⟩]⟩,
  -- SHT_DEST
  ⟨0x1000030, [], [⟨63, 60, .rw, 0⟩, ⟨59, 12, .rw, 0⟩]⟩,
  -- SHT_DESTLEN
  ⟨0x1000038, [], [⟨63, 32, .rw, 0⟩]⟩,
  -- SHT_PDEST
  ⟨0x1001000, [⟨1, 32, 0x40⟩], [⟨63, 44, .rw, 0⟩, ⟨43, 30, .rw, 0⟩, ⟨29, 6, .rw, 0⟩, ⟨5, 0, .rw, 0⟩]⟩,
  -- SHT_PHRANGE
  ⟨0x1001008, [⟨1, 32, 0x40⟩, ⟨0, 4, 0x8⟩], [⟨63, 44, .rw, 0⟩, ⟨43, 24, .rw, 0⟩]⟩]

/-- Register arrays of block ERR. -/
def regMapErr0 : List RegArr := [
  -- ERR_LOG
  ⟨0x1100000, [⟨0, 1024, 0x40⟩, ⟨0, 8, 0x8⟩], [⟨63, 0, .ro, 0⟩]⟩,
  -- ERR_LSTAT
  ⟨0x1110000, [], [⟨63, 32, .ro, 0⟩, ⟨31, 31, .w1c, 0⟩, ⟨30, 28, .rc, 0⟩, ⟨27, 16, .rc, 0⟩, ⟨15, 13, .ro, 0⟩]⟩,
  -- ERR_LTAIL
  ⟨0x1110008, [], [⟨63, 32, .rw, 0⟩]⟩,
  -- ERR_MSTATE
  ⟨0x1110010, [], [⟨63, 62, .ro, 0⟩, ⟨61, 46, .ro, 0⟩]⟩,
  -- ERR_FLUSH
  ⟨0x1110018, [], [⟨63, 63, .ro, 0⟩, ⟨62, 62, .ro, 0⟩, ⟨31, 0, .ro, 0⟩]⟩,
  -- ERR_FLUSH_T
  ⟨0x1110020, [], [⟨63, 0, .ro, 0⟩]⟩,
  -- ERR_FLUSH_CKP
  ⟨0x1110100, [⟨1, 32, 0x8⟩], [⟨63, 63, .ro, 0⟩, ⟨62, 62, .ro, 0⟩, ⟨31, 0, .ro, 0⟩]⟩,
  -- ERR_QREC
  ⟨0x1120000, [⟨1, 32, 0x800⟩, ⟨0, 16, 0x40⟩, ⟨0, 8, 0x8⟩], [⟨63, 0, .ro, 0⟩]⟩,
  -- ERR_QSTAT
  ⟨0x1120400, [⟨1, 32, 0x800⟩], [⟨63, 32, .ro, 0⟩, ⟨31, 31, .w1c, 0⟩, ⟨30, 28, .rc, 0⟩, ⟨27, 16, .rc, 0⟩, ⟨15, 13, .ro, 0⟩]⟩,
  -- ERR_QTAIL
  ⟨0x1120408, [⟨1, 32, 0x800⟩], [⟨63, 32, .rw, 0⟩]⟩]

/-- Register arrays of block SEC. -/
def regMapSec0 : List RegArr := [
  -- SEC_LC
  ⟨0x1200000, [], [⟨63, 61, .ro, 0⟩, ⟨60, 60, .ro, 0⟩, ⟨59, 57, .ro, 0⟩, ⟨56, 53, .ro, 0⟩, ⟨52, 48, .ro, 0⟩, ⟨47, 47, .ro, 0⟩, ⟨46, 46, .ro, 0⟩, ⟨45, 45, .ro, 0⟩]⟩,
  -- SEC_FLOOR
  ⟨0x1200008, [], [⟨63, 56, .ro, 0⟩, ⟨55, 48, .ro, 0⟩, ⟨47, 16, .ro, 0⟩, ⟨15, 15, .ro, 0⟩]⟩,
  -- SEC_NONCE
  ⟨0x1200010, [⟨0, 4, 0x8⟩], [⟨63, 0, .ro, 0⟩]⟩,
  -- SEC_CMD
  ⟨0x1200040, [], [⟨63, 60, .wo, 0⟩, ⟨59, 57, .wo, 0⟩, ⟨55, 48, .wo, 0⟩]⟩,
  -- SEC_CMDSTAT
  ⟨0x1200048, [], [⟨63, 63, .ro, 0⟩, ⟨62, 59, .ro, 0⟩, ⟨58, 51, .ro, 0⟩]⟩,
  -- SEC_TOKBUF
  ⟨0x1201000, [⟨0, 64, 0x8⟩], [⟨63, 0, .rw, 0⟩]⟩,
  -- SEC_CERT
  ⟨0x1202000, [⟨0, 32, 0x8⟩], [⟨63, 0, .ro, 0⟩]⟩,
  -- SEC_REPORT
  ⟨0x1203000, [⟨0, 64, 0x8⟩], [⟨63, 0, .ro, 0⟩]⟩,
  -- SEC_RNONCE
  ⟨0x1203400, [⟨0, 4, 0x8⟩], [⟨63, 0, .rw, 0⟩]⟩,
  -- SEC_MR
  ⟨0x1204000, [⟨0, 5, 0x20⟩, ⟨0, 4, 0x8⟩], [⟨63, 0, .ro, 0⟩]⟩]

/-- Register arrays of block ATT. -/
def regMapAtt0 : List RegArr := [
  -- ATT_NONCE
  ⟨0x10500000, [⟨1, 32, 0x4000000⟩, ⟨0, 4, 0x8⟩], [⟨63, 0, .rw, 0⟩]⟩,
  -- ATT_CMD
  ⟨0x10500020, [⟨1, 32, 0x4000000⟩], [⟨63, 60, .wo, 0⟩]⟩,
  -- ATT_STAT
  ⟨0x10500028, [⟨1, 32, 0x4000000⟩], [⟨63, 63, .ro, 0⟩, ⟨62, 55, .ro, 0⟩]⟩,
  -- ATT_DATA
  ⟨0x10500040, [⟨1, 32, 0x4000000⟩, ⟨0, 4, 0x8⟩], [⟨63, 0, .rw, 0⟩]⟩,
  -- ATT_REPORT
  ⟨0x10500100, [⟨1, 32, 0x4000000⟩, ⟨0, 64, 0x8⟩], [⟨63, 0, .ro, 0⟩]⟩,
  -- ATT_CERT
  ⟨0x10500400, [⟨1, 32, 0x4000000⟩, ⟨0, 32, 0x8⟩], [⟨63, 0, .ro, 0⟩]⟩]

/-- Register arrays of block PNE. -/
def regMapPne0 : List RegArr := [
  -- PNE_ID
  ⟨0x2000000, [⟨0, 384, 0x10000⟩], [⟨63, 48, .ro, 0⟩, ⟨47, 36, .ro, 0⟩, ⟨35, 33, .ro, 0⟩, ⟨32, 27, .ro, 0⟩, ⟨26, 26, .ro, 0⟩, ⟨25, 25, .ro, 0⟩]⟩,
  -- PNE_CLOCK
  ⟨0x2000008, [⟨0, 384, 0x10000⟩], [⟨43, 40, .ro, 0⟩, ⟨39, 28, .ro, 0⟩, ⟨27, 16, .ro, 0⟩]⟩,
  -- PNE_CVT_SAT
  ⟨0x2000100, [⟨0, 384, 0x10000⟩], [⟨47, 0, .rc, 0⟩]⟩,
  -- PNE_CVT_FLUSH
  ⟨0x2000108, [⟨0, 384, 0x10000⟩], [⟨47, 0, .rc, 0⟩]⟩,
  -- PNE_CVT_NONFINITE
  ⟨0x2000110, [⟨0, 384, 0x10000⟩], [⟨47, 0, .rc, 0⟩]⟩,
  -- PNE_MX_TRUNC
  ⟨0x2000118, [⟨0, 384, 0x10000⟩], [⟨47, 0, .rc, 0⟩]⟩,
  -- PNE_MX_NONFINITE
  ⟨0x2000120, [⟨0, 384, 0x10000⟩], [⟨47, 0, .rc, 0⟩]⟩,
  -- PNE_MX_OVF
  ⟨0x2000128, [⟨0, 384, 0x10000⟩], [⟨47, 32, .rc, 0⟩, ⟨31, 0, .rc, 0⟩]⟩,
  -- PNE_VX_COUNT
  ⟨0x2000130, [⟨0, 384, 0x10000⟩], [⟨63, 48, .rc, 0⟩, ⟨47, 32, .rc, 0⟩, ⟨31, 0, .rc, 0⟩]⟩,
  -- PNE_STREAM_PRIO
  ⟨0x2000218, [⟨0, 384, 0x10000⟩], [⟨5, 4, .ro, 0⟩, ⟨3, 2, .ro, 0⟩, ⟨1, 0, .ro, 0⟩]⟩,
  -- PNE_EXC
  ⟨0x2000220, [⟨0, 384, 0x10000⟩], [⟨63, 61, .w1c, 0⟩, ⟨60, 59, .ro, 0⟩, ⟨58, 58, .w1c, 0⟩, ⟨57, 50, .ro, 0⟩, ⟨49, 36, .ro, 0⟩, ⟨35, 12, .ro, 0⟩]⟩,
  -- PNE_QUEUE
  ⟨0x2000228, [⟨0, 384, 0x10000⟩], [⟨21, 16, .ro, 0⟩, ⟨12, 8, .ro, 0⟩, ⟨4, 0, .ro, 0⟩]⟩]

/-- Register arrays of block PNE. -/
def regMapPne1 : List RegArr := [
  -- PNE_STREAM
  ⟨0x2000200, [⟨0, 384, 0x10000⟩, ⟨0, 3, 0x8⟩], [⟨63, 61, .ro, 0⟩, ⟨60, 57, .ro, 0⟩, ⟨56, 51, .ro, 0⟩, ⟨45, 32, .ro, 0⟩, ⟨31, 0, .ro, 0⟩]⟩]

/-- Register arrays of block VPTN. -/
def regMapVptn0 : List RegArr := [
  -- VPTN_PANE_TICKS
  ⟨0x10401000, [⟨1, 32, 0x4000000⟩], [⟨63, 0, .ro, 0⟩]⟩,
  -- VPTN_EXEMPT_TICKS
  ⟨0x10401008, [⟨1, 32, 0x4000000⟩], [⟨63, 0, .ro, 0⟩]⟩,
  -- VPTN_HOLD_TICKS
  ⟨0x10401010, [⟨1, 32, 0x4000000⟩], [⟨63, 0, .ro, 0⟩]⟩,
  -- VPTN_OVERRUN_TICKS
  ⟨0x10401018, [⟨1, 32, 0x4000000⟩], [⟨63, 0, .ro, 0⟩]⟩,
  -- VPTN_HBM_RD_BYTES
  ⟨0x10401020, [⟨1, 32, 0x4000000⟩], [⟨63, 0, .ro, 0⟩]⟩,
  -- VPTN_HBM_WR_BYTES
  ⟨0x10401028, [⟨1, 32, 0x4000000⟩], [⟨63, 0, .ro, 0⟩]⟩,
  -- VPTN_FAR_BYTES
  ⟨0x10401030, [⟨1, 32, 0x4000000⟩], [⟨63, 0, .ro, 0⟩]⟩,
  -- VPTN_LINK_TX_BYTES
  ⟨0x10401038, [⟨1, 32, 0x4000000⟩], [⟨63, 0, .ro, 0⟩]⟩,
  -- VPTN_LINK_RX_BYTES
  ⟨0x10401040, [⟨1, 32, 0x4000000⟩], [⟨63, 0, .ro, 0⟩]⟩,
  -- VPTN_HOST_BYTES
  ⟨0x10401048, [⟨1, 32, 0x4000000⟩], [⟨63, 0, .ro, 0⟩]⟩,
  -- VPTN_HATCH_CMDS
  ⟨0x10401050, [⟨1, 32, 0x4000000⟩], [⟨63, 0, .ro, 0⟩]⟩,
  -- VPTN_REQUESTS
  ⟨0x10401058, [⟨1, 32, 0x4000000⟩], [⟨63, 0, .ro, 0⟩]⟩]

/-- Register arrays of block VPTN. -/
def regMapVptn1 : List RegArr := [
  -- VPTN_STEPS
  ⟨0x10401060, [⟨1, 32, 0x4000000⟩], [⟨63, 0, .ro, 0⟩]⟩,
  -- VPTN_PROMPT_TOKENS
  ⟨0x10401068, [⟨1, 32, 0x4000000⟩], [⟨63, 0, .ro, 0⟩]⟩,
  -- VPTN_GEN_TOKENS
  ⟨0x10401070, [⟨1, 32, 0x4000000⟩], [⟨63, 0, .ro, 0⟩]⟩,
  -- VPTN_MSNAP
  ⟨0x10401078, [⟨1, 32, 0x4000000⟩], [⟨63, 0, .wo, 0⟩]⟩,
  -- VPTN_SNAP_TIME
  ⟨0x10401080, [⟨1, 32, 0x4000000⟩], [⟨63, 0, .ro, 0⟩]⟩]

/-- The register map (R12). -/
def regMap : List RegArr :=
  regMapPrt0 ++ regMapPrt1 ++ regMapCfg0 ++ regMapCfg1 ++ regMapPtn0 ++ regMapPtn1 ++ regMapPtn2 ++ regMapHtc0 ++ regMapGzt0 ++ regMapGzt1 ++ regMapSmp0 ++ regMapLvr0 ++ regMapMem0 ++ regMapTrn0 ++ regMapFar0 ++ regMapMrd0 ++ regMapCol0 ++ regMapCol1 ++ regMapCkp0 ++ regMapHier0 ++ regMapGrt0 ++ regMapSrv0 ++ regMapSrv1 ++ regMapSht0 ++ regMapErr0 ++ regMapSec0 ++ regMapAtt0 ++ regMapPne0 ++ regMapPne1 ++ regMapVptn0 ++ regMapVptn1

/-- The register array that occupies an address, if any (R50). -/
def regAt (a : Nat) : Option RegArr := regMap.find? (fun r => (r.at a).isSome)

/-- The non-zero reset words of the register map, one array after another. -/
def regsResetOfMap : Regs :=
  (regMap.filter (fun r => r.resetWord != 0)).foldl
    (fun rs r => r.addrs.foldl (fun t a => Regs.setWord t a r.resetWord) rs) []

/-- The register file after RESET_N is released: every numeric reset value of the register tables (R18), in rising
address order. Laws/RegMap.lean shows that it is regsResetOfMap. -/
def regsReset : Regs :=

  [(0x0, 0x4f50616011100000)] ++
  [(0xc08, 0x3203390000000000)] ++
  (List.range 32).flatMap (fun i => [(0x501180 + i * 0x100, 0x3fffc00000000000)]) ++
  [(0xc00000, 0xffff00001100)] ++
  (List.range 10).flatMap (fun i => [(0xc01010 + i * 0x100, 0xffff000000ff0000)]) ++
  (List.range 32).flatMap (fun i => [(0xd10100 + i * 0x100, 0x1c040000000000), (0xd10110 + i * 0x100, 0xffffffff), (0xd101a0 + i * 0x100, 0x3fffc0000000), (0xd101c8 + i * 0x100, 0xffffffff), (0xd101e0 + i * 0x100, 0x3fffc00000000000)]) ++
  (List.range 32).flatMap (fun i => [(0xd20120 + i * 0x100, 0xffff000000000000)]) ++
  [(0xe00008, 0x1fffe00000000000)]

end Sys2Proof.Machine
end

