-- ==== Sys2Proof/Machine/State.lean ====
section
/-! DEFINITION. The state of the module as plain data: non-volatile memory, pins and power, everything volatile, the queue of waiting commands; the faults and refusals; the state after reset. -/

namespace Sys2Proof.Machine

/-- Why the machine stops with a fault. -/
inductive Fault where
  /-- Raised by a meaning whose operand no event of the hardware can carry (WellFormed refuses the same term), such as
  a flit that is not 256 bytes or lies in no codeword. Safe: the hardware never receives the command. -/
  | illFormed
deriving DecidableEq, Repr

/-- Why the model has no next state for a command. -/
inductive Refusal where
  /-- Raised by an arm of Dispatch whose command has no meaning yet, named by its mnemonic. Safe. -/
  | notModelled (mnemonic : String)
deriving DecidableEq, Repr

/-- What leaves the module (log entry 4). -/
inductive Out where
  /-- An MSI-X message of function fn (0 the PF) of host port port (R472): its vector, and the address and data of that vector's table entry. -/
  | msix (port fn vector addr data : Nat)
  /-- An output pin changes: 0 ALERT_N, 1 THERMTRIP_N, 2 PWR_GOOD (R628). -/
  | pin (name : Nat) (level : Bool)
  /-- A flit or link frame on a link (R415, R423): link, bytes. -/
  | flit (link : Nat) (bytes : List Byte)
  /-- An MCTP answer (R478): medium, answer bytes. -/
  | mctp (medium : Nat) (bytes : List Byte)
  /-- A PCIe completion with Unsupported Request (R474), on a port. -/
  | unsupported (port : Nat)
  /-- An event that PCIe AER reports (R474), on a port. -/
  | aer (port : Nat)
  /-- The data of a host read (R14, R17): port, function, offset, value. -/
  | readData (port fn offset : Nat) (value : Word)
deriving DecidableEq, Repr

/-- The input side of the module: pins and power, which no reset of the module changes (R625, R629). -/
structure Ext where
  /-- 48 V input above the turn-on threshold (R629). -/
  power : Bool
  /-- RESET_N level. -/
  resetN : Bool
  /-- PWRFAIL_N level. -/
  pwrfailN : Bool
  /-- SYS_REFCLK present (R635). -/
  refclk : Bool
  /-- THERMTRIP latched until the input power is removed (R639). -/
  tripped : Bool
  /-- The input power has come up and RESET_N has not been released since (R637). -/
  cold : Bool
  /-- CHART_SEL as sampled at the last release of RESET_N (R212, R627). -/
  chartSel : Nat
deriving DecidableEq, Repr

/-- A command descriptor: eight words (R156). -/
structure Desc where
  w0 : Word
  w1 : Word
  w2 : Word
  w3 : Word
  w4 : Word
  w5 : Word
  w6 : Word
  w7 : Word
deriving DecidableEq, Repr

/-- Who issued a command: a stream of the core with the PC of its CMD, or a hatch of a partition with the count of its FLRs (R158, R465, R475). -/
inductive CmdSrc where
  | core (stream : Nat) (pc : Nat)
  | hatch (part hatch epoch : Nat)
deriving DecidableEq, Repr

/-- A command in a queue of a pane, its references resolved (R157) to partition addresses in the form of R146. -/
structure QCmd where
  desc : Desc
  src : CmdSrc
  /-- Partition the command belongs to. -/
  part : Nat
  a : Option Word
  b : Option Word
  c : Option Word
  d : Option Word
  /-- Progress in bytes of a copy that a boundary stopped, or of a command that back-pressure held at a stop (R184, R185), and whether what it
  has moved so far carried poison (R377). -/
  progress : Nat
  poisoned : Bool
  /-- It was started before a boundary stopped it: its WAIT token is consumed (R163, R184, R185). -/
  resumed : Bool
  /-- The watch slots that watched it when it started, none before that (R530, R532). -/
  watched : Option (List Nat) := none
  /-- What the watch unit has read of a watched copy: 64-byte units by their offset (R530). -/
  seen : List (Nat × List Byte) := []
deriving DecidableEq, Repr

/-- A write a command has still to make: first key of memory, bytes, and whether its lines are poisoned. -/
structure Chunk where
  key : Nat
  bytes : List Byte
  poisoned : Bool
deriving DecidableEq, Repr

/-- A command that an engine has started. Its results are held until its last write (R127, R165, R166). -/
structure Run where
  cmd : QCmd
  /-- Cycles of its island that the slice watchdog has counted, in thousandths (R35, R497). -/
  ran : Nat
  /-- Declared bound in cycles (R102, R174). -/
  bound : Nat
  /-- Results of the first destination as FP32 codes, row by row. -/
  vals : List Nat
  /-- Unpadded row length of vals. -/
  width : Nat
  /-- Results of the second destination C as FP32 codes (R168). -/
  vals2 : List Nat
  /-- Source formats decoded with saturations and flushes (R82). -/
  decSat : Nat
  decFlush : Nat
  /-- Vector counts: NONFINITE, SHIFT_TRIES, FALLBACK set by this command (R179). -/
  nonfinite : Nat
  tries : Nat
  /-- Key of the FALLBACK word to set, where a block fell back (R179). -/
  fallback : Option Nat
  /-- Matrix counts: truncations, overflows, drain flushes (R134). -/
  trunc : Nat
  ovf : Nat
  flush : Nat
  /-- The common maximum of a CURRENT conversion, once its reduction is done (R71), as an FP32 code. -/
  amax : Option Nat
  /-- The command read a poisoned line (R377). -/
  poisoned : Bool
  /-- The results have been drained and wait for the reduction of R71, or for their split-K tile (R142). -/
  drained : Bool
  /-- The results are the reduced tile of a split-K tile, which waits for the reduction of R71 (R96, R117). -/
  reduced : Bool
  /-- A transfer of the command has landed: it has written (R36, R166). -/
  landed : Bool
deriving DecidableEq, Repr

/-- The registers of one Lintel stream beside its PNE_STREAM register (R143). -/
structure Stream where
  /-- s1 to s31; s0 reads 0. -/
  s : List (Nat × Word)
  /-- a0 to a7 (R146). -/
  a : List (Nat × Word)
  /-- p1 to p7 as bits; p0 reads 1. -/
  p : Nat
  /-- Graticule time at which the stream last began to wait (R154). -/
  since : Nat
  /-- Return addresses of calls in progress (log entry 7). -/
  calls : List Nat
  /-- STEP, LAYER_ID and OP_ID of the launch that started the stream (R522). -/
  lstep : Nat
  llayer : Nat
  lop : Nat
deriving DecidableEq, Repr

/-- A token: its count and its poison bit (R164, R165). -/
structure Tok where
  count : Nat
  poison : Bool
deriving DecidableEq, Repr

/-- The contents of one pane beside its pane store and its registers: what a slice switch saves (R185). -/
structure Pane where
  /-- The instructions the image placed (R145). -/
  code : List InsnWord
  f : Stream
  b : Stream
  u : Stream
  /-- Tokens 0 to 63 by number (R164). -/
  tok : List (Nat × Tok)
  /-- Command queues in queue order (R162). -/
  mq : List QCmd
  vq : List QCmd
  cq : List QCmd
  /-- The commands in flight (R162). The matrix engine has two accumulator banks (R99): mrun is the command that sums, or the only one;
  mdrain the command before it, in the other bank, whose drain overlaps its sums (R126). -/
  mrun : Option Run
  mdrain : Option Run
  vrun : Option Run
  cruns : List Run
  /-- Vector input queue: FP32 codes with their poison marks (R165, R377). -/
  vin : List (Nat × Bool)
  /-- Split-K slices that have drained and wait for their tile (R142). -/
  split : List Run
deriving DecidableEq, Repr

/-- A transfer in flight on a route (R36): the command that sent it, the destination offset and its bytes. -/
structure Xfer where
  part : Nat
  pane : Nat
  queue : Nat
  src : CmdSrc
  sealNo : Nat
  offset : Nat
  bytes : List Byte
  /-- Another piece of the same transfer follows: the copy engine sends 64 KiB at a time (R164, R185). -/
  more : Bool
  poisoned : Bool
  /-- Units of 64 bytes of it that carry poison, for a copy (R377). -/
  tags : List Nat
  /-- CRC mismatches since the wire test by direction (edge × 2 + direction) (R42). -/
  retries : List (Nat × Nat)
deriving DecidableEq, Repr

/-- The running configuration: the entries of each section of the image as bytes (R192), empty where absent. -/
structure Cfg where
  stageMap : List (List Byte)
  routes : List (List Byte)
  partitions : List (List Byte)
  fabric : List (List Byte)
  islands : List (List Byte)
  code : List (List Byte)
  conduit : List (List Byte)
  schedule : List (List Byte)
  /-- Section types of the running image (R202), in the order of its section table; sections that a delta adds follow. -/
  types : List Nat
deriving DecidableEq, Repr

/-- A delta held by a transaction (R203): its IMAGE_ID, its sections by type, its PATCH entries. -/
structure Delta where
  imageId : Nat
  /-- Its check digest (R206, R613). -/
  digest : Nat
  cfg : Cfg
  patch : List (Word × Word)
  /-- REQ_HBM_GIB, REQ_TRANSOM_MIB and REQ_SPARES of its header (R189). -/
  req : Nat × Nat × Nat
deriving DecidableEq, Repr

/-- What a transaction window holds beside its registers (R220, R224, R226). -/
structure Txn where
  /-- Held writes, setting address and value, in the order they took their places. -/
  writes : List (Word × Word)
  delta : Option Delta
  /-- PEPOCH values recorded at BEGIN: scope and value. -/
  epochs : List (Nat × Nat)
  /-- Graticule time of the COMMIT write, and the hold limit in ticks. -/
  commitAt : Nat
  limit : Nat
  /-- Graticule time at which the hold began. -/
  holdAt : Nat
  /-- Partitions it affects, once validated. -/
  affected : List Nat
  /-- Length of the delta whose fetch is in progress. -/
  fetchLen : Nat
  /-- Port of the provider's delta fetch; whether validation has passed. -/
  port : Nat
  valid : Bool
deriving DecidableEq, Repr

/-- A chart command in progress (R216): op, chart, force, and force. -/
structure ChartOp where
  op : Nat
  chart : Nat
  force : Bool
deriving DecidableEq, Repr

/-- An error record before its placement (R561). -/
structure ErrRec where
  sev : Nat
  part : Nat
  code : Nat
  source : Nat
  step : Nat
  layer : Nat
  opId : Nat
  addr : Nat
  /-- The address in the terms of the provider log. -/
  paddr : Nat
  info0 : Nat
  info1 : Nat
  flags : Nat
deriving DecidableEq, Repr

/-- The handlers of one owner (R566 to R568): running first, then suspended and queued ones, each a severity and code. -/
structure Handlers where
  running : List (Nat × Nat)
  queued : List (Nat × Nat)
deriving DecidableEq, Repr

/-- A rate limit in force (R373, R474): key, time of the last record, events merged since. -/
structure Rate where
  key : Nat
  last : Nat
  merged : Nat
deriving DecidableEq, Repr

/-- A page of a partition's HBM space: its frame, and the shared region it belongs to if any (R399, R502). -/
structure PageEnt where
  frame : Nat
  region : Option Nat
deriving DecidableEq, Repr

/-- A hatch (R462 to R471): slot words, sealed slots, DISP, records waiting for ring room, when the oldest unannounced
record became visible and how many are unannounced. -/
structure Hatch where
  slots : List (Nat × Word)
  /-- Slots that hold a sealed descriptor, with its sequence number. -/
  isSealed : List (Nat × Nat)
  disp : Nat
  holding : List (List Byte)
  /-- Records of commands that ended in the present tick, by SEAL (R470). -/
  fresh : List (List Byte)
  /-- The pane queue that its next descriptor waits for, and since when (R466). -/
  waitOn : Option (Nat × Nat × Nat)
  unannounced : Nat
  since : Nat
  /-- FLRs of the function so far: commands dispatched before the last one leave no record (R470, R475). -/
  epoch : Nat
deriving DecidableEq, Repr

/-- Panes, cores, engines and the fabric between them (01, 03, 04). -/
structure CoreSt where
  panes : Tbl Pane
  /-- Transfers in flight per route, oldest first (R36). -/
  xfers : Tbl (List Xfer)
  /-- Good slots of each die as a bitmap of 52 (R27), less the slots that failed since (R29). -/
  goodSlots : Tbl Nat
  /-- Routes whose transfer in front has had a wire test, with its direction: (route × 32 + edge × 2 + direction) × 2, plus 1 where no half
  could be completed; and those whose transfer asked for a test that has not ended: route × 32 + edge × 2 + direction (R42). -/
  tested : List Nat
  asked : List Nat
  /-- Failed data wires of a direction (R38). -/
  badWires : Tbl (List Nat)
  /-- CRC mismatches since the wire test of the access in front on a route whose accesses are no held transfers: a memory route, or that of
  a conduit's records (R42), by route × 32 + edge × 2 + direction. -/
  retries : Tbl Nat
  /-- Directions of bridges whose wires are being tested (R42). -/
  testing : List Nat
  /-- Scale records used by open steps: partition, SREC, step (R76). -/
  usedRecs : List (Nat × Nat × Nat)
  /-- Panes that have failed and await repair or stay failed (R571, R572). -/
  failed : List Nat
  /-- Islands of panes that the Shutter holds stopped (R544). -/
  stopped : List Nat
deriving DecidableEq, Repr

/-- Charts, the running configuration and its transactions (05). -/
structure ConfSt where
  cfg : Cfg
  /-- REQ_HBM_GIB, REQ_TRANSOM_MIB and REQ_SPARES of the running image (R189, R225). -/
  req : Nat × Nat × Nat
  chartOp : Option ChartOp
  /-- The image a chart WRITE has fetched (R216). -/
  chartImage : List Byte
  txns : Tbl Txn
deriving DecidableEq, Repr

/-- What a power-fail flush holds (R600): the generation of its commit record, T_FAIL, whether it was UNANNOUNCED, the provider log and
the partition error queues as owner and record, the latched metering (p × 16 + k), per owner the STATE, WRITES, DELTA and HOLDING word of its
transaction with the partitions held, CKP_STATUS per partition, ERR_MSTATE and PRT_STATUS. -/
structure Flush where
  gen : Nat
  failAt : Nat
  unannounced : Bool
  records : List (Nat × List Byte)
  meters : Tbl Nat
  txns : List (Nat × Word × List Nat)
  ckpts : Tbl Word
  mstate : Word
  status : Word
deriving DecidableEq, Repr

/-- Error handling (15). -/
structure ErrSt where
  handlers : Tbl Handlers
  rates : List Rate
  /-- Records raised since reset per queue (R561): 0 the provider log. -/
  seqs : Tbl Nat
  /-- The flush that is being programmed (R599). -/
  flushing : Option Flush
deriving DecidableEq, Repr

/-- Memory tiers (09): the owners and mappings of frames, slices and far frames. -/
structure TierSt where
  /-- Page of a partition (p × 2^24 + v) to its frame (R399). -/
  pages : Tbl (Option PageEnt)
  /-- Owner of a frame: 0 partition 0, p a partition, 64 + r a shared region. -/
  frameOwner : Tbl Nat
  /-- Frames retired (R379). -/
  retired : List Nat
  /-- Slice k of a partition's Transom space (p × 2^12 + k) to slice + 1 (R392). -/
  slices : Tbl Nat
  /-- Owner of a global slice; save slices belong to their partition too (R493). -/
  sliceOwner : Tbl Nat
  /-- Slices withheld since self-test (R391). -/
  withheld : List Nat
  /-- Save slice of a member for a pane (p × 2^12 + pane) to slice + 1 (R493). -/
  saves : Tbl Nat
  /-- Far page of a partition (p × 2^24 + v) to far frame + 1 (R401), and the owner of a far frame. -/
  farPages : Tbl Nat
  farOwner : Tbl Nat
  /-- Failed pins of a channel as a bitmap of 72 (R375). -/
  failedPins : Tbl Nat
  /-- Lines corrected per pin (g × 128 + pin) and uncorrectable lines per channel, with their times, in the last
  second (R375, R380). -/
  pinHits : Tbl (List Nat)
  uncorrHits : Tbl (List Nat)
  /-- Times of uncorrectable pane-store lines in the last millisecond, per pane (R571). -/
  paneHits : Tbl (List Nat)
  /-- Row map-outs under way: frame and line (R379). -/
  rowMoves : List Nat
  /-- Ticks of regulator wait of a partition below one unit of MEM_PREG.WAIT (R390). -/
  waitTicks : Tbl Nat
  /-- CXL ports enumerated since reset (R480, R481). -/
  enumerated : List Nat
  /-- Graticule time since which a stack's readings have stayed 2 °C below its bound (R383), plus one. -/
  coolSince : Tbl Nat
  /-- Latest reading of a stack in tenths of a °C (R382). -/
  readings : Tbl Int
  /-- Partitions that held frames on a stack at its shutdown, as a bitmap (R388). -/
  atShutdown : Tbl Nat
  /-- Times of CXL violations in the last second, per port (R408). -/
  farViol : Tbl (List Nat)
  /-- SM4 keys (R604): owner to key number, and the count of key pairs made. -/
  keys : Tbl Nat
  keyGen : Nat
deriving DecidableEq, Repr

/-- An MSI-X vector of a function (R450, R473): its table entry and its bit of the PBA. -/
structure MsixVec where
  addr : Nat
  data : Nat
  masked : Bool
  pending : Bool
deriving DecidableEq, Repr

/-- Host attachment (11). -/
structure HostSt where
  /-- MSI-X vectors (R450, R472), by port, function and vector. -/
  msix : Tbl MsixVec
  /-- The count and the last offset of discarded writes of a VF that no partition names (R451), at port × 64 + VF: its HTC_HOSTERR. -/
  strays : Tbl (Nat × Nat)
  /-- Hatch h of partition p at p × 4 + h. -/
  hatches : Tbl Hatch
  /-- MCTP endpoint ID (R477), requests in progress (requester), message times in the last second per medium. -/
  endpoint : Nat
  mctpBusy : Tbl Nat
  mctpTimes : Tbl (List Nat)
deriving DecidableEq, Repr

/-- A launch on its way to the panes of a stage (R161, R465): who sent it, the panes left, the descriptor, whether one
refused it. -/
structure Launch where
  src : CmdSrc
  part : Nat
  desc : Desc
  left : List Nat
  busy : Bool
deriving DecidableEq, Repr

/-- Partitions (12). -/
structure PartSt where
  /-- Live metering counters (R505): p × 16 + k, k the order of R505. -/
  meters : Tbl Nat
  /-- Holds in force: partition and reason (0 to 32 a transaction's owner, 40 repair, 41 checkpoint, 42 rollback,
  43 hierarchy), oldest first. -/
  holds : List (Nat × Nat)
  /-- Loading step result of R487: the code it ends with, 0 OK, per partition in LOADING, plus one. -/
  loading : Tbl Nat
  /-- Partitions in TEARDOWN whose release is not complete (R490). -/
  tearing : List Nat
  /-- Hatch descriptors sealed before DRAIN: p × 4 + h to the NEXT of that tick plus one (R489). -/
  drainAt : Tbl Nat
  /-- Saved contexts of time-shared members: p × 512 + pane (R493, R495). -/
  saved : Tbl (Option Pane)
  /-- PNE_STREAM words saved with them: (p × 512 + pane) × 4 + stream. -/
  savedRegs : Tbl Word
  /-- Graticule time at which the slice of a group ends, and at which it began. -/
  sliceEnd : Tbl Nat
  sliceStart : Tbl Nat
  /-- Groups whose slice has ended and whose switch is pending (R495), with the time it ended. -/
  switching : Tbl Nat
  /-- Per group, the last tick of the overrun of the slice that has ended (R496). -/
  overrun : Tbl Nat
  /-- Groups whose CURRENT member has been torn down since its slice began (R507). -/
  left : List Nat
  /-- Debt of a member in ticks (R496). -/
  debt : Tbl Nat
  /-- Shared regions (R501): frames in page order, and the key of the region. -/
  regionFrames : Tbl (List Nat)
  /-- A fill in progress with its source (R501). -/
  filling : List Nat
  /-- Fetches that failed: regions (R501, R459). -/
  fillFailed : List Nat
  /-- Launches under way. -/
  launches : List Launch
  /-- Retried steps: partitions whose ticks count as EXEMPT (R575). -/
  exempt : List Nat
deriving DecidableEq, Repr

/-- Counters, trace and graticule time (13). -/
structure SrvSt where
  /-- Interval counts: ((owner × 2^16 + island) × 8 + k) (R519). -/
  counts : Tbl Nat
  /-- Records written since ENABLE, per owner (R518). -/
  seqs : Tbl Nat
  /-- Owners whose next record carries PARTIAL (R517), as a set. -/
  partials : List Nat
  /-- Samples merged so far into the next record (R517), per owner. -/
  merged : Tbl Nat
  /-- Trace ports: owner × 512 + pane to the records waiting, oldest first (R528). -/
  ports : Tbl (List (List Byte))
  /-- Stamp of the oldest ring record at the trigger (R526), per owner, plus one. -/
  ringOldest : Tbl Nat
  /-- Bookkeeping of R511 and R512: parent link plus one, good exchanges in a row, time of the last exchange, the path delay it
  measured in 1/16 tick (R432), the offsets of the last 8 exchanges within 10 µs, the rate estimate made of them in parts of 10^9 and
  what it has added up to since the last whole tick, and the ticks of HOLDOVER since its last full millisecond. -/
  parent : Nat
  good : Nat
  lastExch : Nat
  pathDelay : Int
  rate : List Int
  rateEst : Int
  rateAcc : Int
  heldTicks : Nat
  /-- Correction still to be slewed, in 1/16 tick (R511), ticks of the reference clock since reset, and the one of the last slewed
  tick. -/
  slew : Int
  refTick : Nat
  slewAt : Nat
  /-- SYNC_REQ in flight: link and its t1 plus one. -/
  syncT1 : Tbl Nat
deriving DecidableEq, Repr

/-- A flit before its acknowledgement fields are filled in (R416), with the job of its sender, 0 for module traffic and forwarded flits, and
the number by which this module tells the messages of a class apart. -/
structure Flit where
  cls : Nat
  som : Bool
  eom : Bool
  poison : Bool
  seqNo : Nat
  len : Nat
  dst : Nat
  payload : List Byte
  job : Nat
  msg : Nat
  /-- The link whose receive slot a forwarded flit still holds, plus one; 0 for none (R419). -/
  inp : Nat
  /-- Replays in a row without acknowledgement (R421). -/
  tries : Nat
deriving DecidableEq, Repr

/-- One class of one link (R419 to R421). -/
structure LinkCls where
  /-- SEQ of the next new flit, and the SEQ expected. -/
  txSeq : Nat
  rxSeq : Nat
  /-- Credits held, and credits the partner holds. -/
  credits : Nat
  rxCredit : Nat
  /-- Slots freed and not yet reported. -/
  freed : Nat
  /-- Sent and unacknowledged, oldest first; waiting. -/
  unacked : List Flit
  txq : List Flit
  /-- The message whose first flit has left and whose last has not, 0 for none. -/
  txOpen : Nat
  /-- A NAK is out and flits are discarded until the expected SEQ. -/
  nakOut : Bool
  /-- Last progress of ACK. -/
  ackAt : Nat
  /-- Received messages that their unit has not taken: their last flits still hold slots; the SEQ of each of these flits, oldest first. -/
  waiting : Nat
  seqs : List Nat
  /-- The message being received: its bytes so far, and where it is forwarded: 0 here, 1 + n link n, 11 discarded, 12 discarded because its way
  out is its way in; its number there and the bytes of it still to come. -/
  rx : List Byte
  rxOpen : Bool
  fwd : Nat
  fwdMsg : Nat
  fwdLeft : Nat
deriving DecidableEq, Repr

/-- One link beside its registers (R413 to R430). -/
structure LinkSt where
  cls : Tbl LinkCls
  enabled : Bool
  /-- Graticule time at which the present state was entered. -/
  since : Nat
  /-- Serial of the last partner plus one. -/
  lastSerial : Nat
  /-- Good lanes as trained, as a bitmap of 18. -/
  good : Nat
  /-- Logical lanes in order, as physical lanes. -/
  lanes : List Nat
  viols : List Nat
  violFrame : Nat
  /-- Time of the last HELLO heard, and HELLOs missed since. -/
  helloAt : Nat
  missed : Nat
  /-- How often the link has left UP and DEGRADED (R276). -/
  downs : Nat
  /-- The partner of the last negotiation still is the partner: no new one has been agreed since (R423). -/
  known : Bool
  /-- The codeword in which the last flit ended could not be corrected (R415). -/
  cwBad : Bool
  /-- The last VIOLATION received: its code, class and SEQ (R429). -/
  told : Option (Nat × Nat × Nat)
  /-- Flits of each owner in the present round of shares, and the class of its last one, plus one (R422). -/
  spent : Tbl Nat
  turn : Tbl Nat
deriving DecidableEq, Repr

/-- Meridian (10). -/
structure MrdSt where
  links : Tbl LinkSt
  /-- SHUTTER_REQ pairs already seen: origin and request ID (R433). -/
  seenReq : List (Nat × Nat)
  /-- Messages numbered so far: the model's own. -/
  msgs : Nat
deriving DecidableEq, Repr

/-- A class with nothing sent. -/
def LinkCls.init : LinkCls :=
  { txSeq := 0, rxSeq := 0, credits := 0, rxCredit := 0, freed := 0, unacked := [], txq := [], txOpen := 0, nakOut := false, ackAt := 0,
    waiting := 0, seqs := [], rx := [], rxOpen := false, fwd := 0, fwdMsg := 0, fwdLeft := 0 }
/-- A link at reset. -/
def LinkSt.init : LinkSt :=
  { cls := [], enabled := false, since := 0, lastSerial := 0, good := 0, lanes := [], viols := [], violFrame := 0, helloAt := 0, missed := 0, downs := 0, known := false,
    cwBad := false, told := none, spent := [], turn := [] }


/-- A logit shard held by a half (R242): index, vocabulary range, FP32 codes, hard label, gradient route and offset. -/
structure Shard where
  idx : Nat
  base : Nat
  label : Nat
  route : Nat
  offset : Nat
  codes : List Nat
  poisoned : Bool
deriving DecidableEq, Repr

/-- An open row of a half (R244). -/
structure LRow where
  step : Nat
  seqId : Nat
  pos : Nat
  shards : Nat
  got : List Shard
deriving DecidableEq, Repr

/-- A record: its bytes, and whether they are poisoned (R253, R271). -/
structure Rec where
  bytes : List Byte
  poisoned : Bool
deriving DecidableEq, Repr

/-- A tap of a conduit (R256, R257): tap credits in use at the emit half, frames put into the queue and delivered from it
since OPEN, landing slots occupied. -/
structure TapSt where
  used : Nat
  queued : Nat
  delivered : Nat
  occupied : Nat
deriving DecidableEq, Repr

/-- A message of the peer that came while the partition's pause or stop froze a conduit (R277): a tap frame, tap credits, or the answer to its
OPEN. It takes effect once the conduit runs again. -/
inductive CdMsg where
  | tap (t : Nat) (bytes : List Byte) (poisoned : Bool)
  | credit (t n : Nat)
  | reply (r : PeerReply)
  | reset
deriving DecidableEq, Repr

/-- A conduit beside its registers (R244 to R283). -/
structure Cond where
  trows : List LRow
  ready : List Rec
  /-- Records on their way from the emit half to the loss half. -/
  flight : List Rec
  /-- Credits on their way back. -/
  crets : Nat
  rbuf : List Rec
  /-- Index of the oldest queued record's slot. -/
  qhead : Nat
  srows : List LRow
  /-- The loss entry of the row in pass 2 (R265). -/
  pass : Option (List Byte)
  taps : Tbl TapSt
  /-- K, TEMP, NF_POLICY and CREDITS in force (R275). -/
  k : Nat
  temp : Nat
  nf : Bool
  limit : Nat
  /-- RESET waits for the step boundary (R277). -/
  resetReq : Bool
  openedAt : Nat
  /-- Ticks of stall and wait below one unit of R280. -/
  stall : Nat
  wait : Nat
  /-- Messages that wait for the end of a freeze, oldest first. -/
  held : List CdMsg
  /-- How often the conduit's link had left UP and DEGRADED when it opened (R276). -/
  downs : Nat
deriving DecidableEq, Repr

/-- A conduit with nothing held. -/
def Cond.init : Cond :=
  { trows := [], ready := [], flight := [], crets := 0, rbuf := [], qhead := 0, srows := [], pass := none, taps := [], k := 0, temp := 0,
    nf := false, limit := 0, resetReq := false, openedAt := 0, stall := 0, wait := 0, held := [], downs := 0 }
/-- A tap with nothing held. -/
def TapSt.init : TapSt := { used := 0, queued := 0, delivered := 0, occupied := 0 }


/-- One chunk of an update entry (R302): 1 staged by pass 1, 2 computed by pass 2, 3 written; its new values. -/
structure ChunkSt where
  phase : Nat
  pane : Nat
  m1 : List Nat
  m2 : List Nat
  /-- New master words (R297). -/
  master : List Nat
  wsq : Nat
  usq : Nat
  lost : Nat
  kept : Nat
  poisoned : Bool
deriving DecidableEq, Repr

/-- One update entry in one step (R295, R303, R305): FP32 codes. -/
structure EntrySt where
  gsq : Nat
  nonfinite : Nat
  a : Nat
  lr : Nat
  b1 : Nat
  b2 : Nat
  eps : Nat
  wd : Nat
  c1 : Nat
  c2 : Nat
  gnorm : Nat
  k : Nat
  clipped : Bool
  fell : Bool
  ended : Bool
  /-- The copy of its hyperparameter set, read when the gate opened (R300). -/
  hp : List Byte
  chunks : Tbl ChunkSt
deriving DecidableEq, Repr

/-- The state of a layer over steps (R304): whether a step has been applied, k, RATIO, WNORM and GNORM as FP32 codes. -/
structure LayerSt where
  applied : Bool
  k : Nat
  ratio : Nat
  wnorm : Nat
  gnorm : Nat
deriving DecidableEq, Repr

/-- One open step (R285, R286). -/
structure TStep where
  step : Nat
  /-- GEXP in force, as 8 bits (R294). -/
  gexp : Nat
  closeReq : Bool
  /-- Buckets handed off, and ended, as sets (R295). -/
  handed : List Nat
  done : List Nat
  entries : Tbl EntrySt
  /-- The verdict has gone to the manager; its answer, 1 CLEAN, 2 OVERFLOW (R301, R588). -/
  asked : Bool
  answer : Nat
  gated : Bool
  skipped : Bool
  floor : Bool
  present : Nat
  late : Nat
  folded : Nat
  faulted : Nat
  /-- READY has gone to the manager; RELEASE has come back (R589). -/
  ready : Bool
  released : Bool
  /-- The step read a poisoned line of a shared region (R576). -/
  marked : Bool
  /-- A command or launch of the step has ended: STOP waits for such a step (R288). -/
  used : Bool
  /-- FLOOR_RUN and UPDATES as its gate left them (R288, R307, R309). -/
  floorRun : Nat
  updates : Nat
  /-- Of a skipped step, the layers as the last applied step before it left them (R307). -/
  old : Tbl LayerSt
deriving DecidableEq, Repr

/-- The training window of a partition beside its registers (07). -/
structure Train where
  first : Nat
  table : List (List Byte)
  steps : List TStep
  /-- Slots launched since START, per stage (R290). -/
  slots : Tbl Nat
  layers : Tbl LayerSt
  tprev : Nat
  /-- Graticule time up to which the phases have been counted. -/
  phAt : Nat
  /-- Pane ticks of the interval in phases F, B, U, C, I (R311). -/
  phF : Nat
  phB : Nat
  phU : Nat
  phC : Nat
  phI : Nat
deriving DecidableEq, Repr

/-- A chunk not begun. -/
def ChunkSt.init : ChunkSt :=
  { phase := 0, pane := 0, m1 := [], m2 := [], master := [], wsq := 0, usq := 0, lost := 0, kept := 0, poisoned := false }
/-- An entry not measured. -/
def EntrySt.init : EntrySt :=
  { gsq := 0, nonfinite := 0, a := 0, lr := 0, b1 := 0, b2 := 0, eps := 0, wd := 0, c1 := 0, c2 := 0, gnorm := 0, k := 0, clipped := false,
    fell := false, ended := false, hp := [], chunks := [] }
/-- A step just opened. -/
def TStep.init (s g : Nat) : TStep :=
  { step := s, gexp := g, closeReq := false, handed := [], done := [], entries := [], asked := false, answer := 0, gated := false,
    skipped := false, floor := false, present := 0, late := 0, folded := 0, faulted := 0, ready := false, released := false, marked := false,
    used := false, floorRun := 0, updates := 0, old := [] }
/-- A layer before any step. -/
def LayerSt.init : LayerSt := { applied := false, k := 0, ratio := 0, wnorm := 0, gnorm := 0 }
/-- A window that has never started. -/
def Train.init : Train :=
  { first := 0, table := [], steps := [], slots := [], layers := [], tprev := 0, phAt := 0, phF := 0, phB := 0, phU := 0, phC := 0, phI := 0 }

/-- The admission window of a partition (R335): slot words, sealed slots with their sequence numbers, the arrival time of each SEAL
word, NEXT and DISP, and what it has turned away. -/
structure AdmWin where
  slots : Tbl Word
  isSealed : List (Nat × Nat)
  stamps : Tbl Nat
  next : Nat
  disp : Nat
  overruns : Nat
  badSeals : Nat
  refused : Nat
  /-- Slots whose line holds poison that a posted write with EP set stored (R460). -/
  poison : List Nat
deriving DecidableEq, Repr

/-- An entry of the Gazetteer (R332) and what the module keeps of it beside its 64 bytes. -/
structure GEnt where
  tag : Nat
  st : Nat
  prio : Nat
  rebind : Bool
  pin : Bool
  pipe : Nat
  model : Nat
  ver : Nat
  ovl : Nat
  ovlVer : Nat
  sprof : Nat
  endc : Nat
  length : Nat
  promptLen : Nat
  generated : Nat
  deadline : Nat
  tLast : Nat
  ttft : Nat
  tbtMax : Nat
  misses : Nat
  /-- Group (R340), copied profile (R336), SEED, GMASK, MAX_NEW, length of the handle's part of the context. -/
  group : Nat
  profile : List Byte
  seed : Nat
  gmask : Nat
  maxNew : Nat
  hlen : Nat
  /-- KV units in page-list order, and units reserved and not yet used (R355). -/
  units : List Nat
  reserved : Nat
  /-- Prompt staging: byte offset in Transom plus one, and bytes (R337). -/
  stage : Nat
  stageLen : Nat
  /-- Admission stamp, order of admission, time of the end, stamps of the CANCELs that wait for a seal, target pipeline plus one, last token. -/
  stamp : Nat
  order : Nat
  endAt : Nat
  cancels : List Nat
  target : Nat
  lastTok : Nat
  /-- Tokens of a promoted entry still to be rebuilt to: 0 none (R596). -/
  rebuild : Nat
  /-- Tokens of its prefix and prompt, and tokens sealed so far (R594, R596). -/
  prompt : List Nat
  tokens : List Nat
deriving DecidableEq, Repr

/-- An admission whose prompt is being fetched (R337): the local index it takes and the entry it makes. -/
structure Fetch where
  idx : Nat
  addr : Nat
  ent : GEnt
deriving DecidableEq, Repr

/-- An overlay fetch (R359): tag, ID, model, host address, bytes, units taken. -/
structure OvlFetch where
  tag : Nat
  id : Nat
  model : Nat
  addr : Nat
  bytes : Nat
  units : List Nat
deriving DecidableEq, Repr

/-- A live overlay version (R359, R360). -/
structure OvlVer where
  id : Nat
  model : Nat
  version : Nat
  units : List Nat
  current : Bool
deriving DecidableEq, Repr

/-- A prefix handle (R357). -/
structure Handle where
  serial : Nat
  model : Nat
  ver : Nat
  ovl : Nat
  ovlVer : Nat
  hlen : Nat
  units : List Nat
  /-- The tokens of the prefix (R594, R596). -/
  toks : List Nat
deriving DecidableEq, Repr

/-- A row of an open step (R342): entry, flags, tokens, position, context after it, and its sample: 0 none yet or no logits, else
1 token, 2 NONFINITE, 3 MASK_EMPTY. -/
structure SRow where
  idx : Nat
  flags : Nat
  count : Nat
  pos : Nat
  ctx : Nat
  wants : Bool
  sampled : Nat
  tok : Nat
  lp : Nat
  poisoned : Bool
deriving DecidableEq, Repr

/-- An open step of a pipeline (R340). -/
structure SStep where
  n : Nat
  group : Nat
  openAt : Nat
  rows : List SRow
  retry : Bool
  /-- The pane of a stage failed during it: it does not seal for its entries (R574). -/
  broken : Bool
deriving DecidableEq, Repr

/-- A pipeline beside its registers (R326, R340, R363). -/
structure Pipe where
  /-- Number of the next step, and the open steps, oldest first. -/
  next : Nat
  opened : List SStep
  /-- Time of the last seal plus one, per group and of the pipeline. -/
  sealAt : Tbl Nat
  lastSeal : Nat
  overs : Nat
  under : Nat
  /-- The groups whose next step is a retry (R367). -/
  retry : List Nat
deriving DecidableEq, Repr

/-- A row at a sampler (R343, R348). -/
structure SmpRow where
  pipe : Nat
  row : LRow
deriving DecidableEq, Repr

/-- A batch that waits for the output ring (R345, R347): mark is the number of mirror messages that must be acknowledged. -/
structure Batch where
  t : Nat
  step : Nat
  pipe : Nat
  retried : Bool
  waited : Bool
  tokens : List (List Byte)
  events : List (List Byte)
  mark : Nat
deriving DecidableEq, Repr

/-- A standby entry of a pair (R595): prompt and sealed tokens, and the entry as mirrored. -/
structure Standby where
  idx : Nat
  ent : GEnt
  prompt : List Nat
deriving DecidableEq, Repr

/-- A serving pair beside its registers (R592 to R596): messages mirrored and acknowledged, when the
unacknowledged ones left, when ENABLE was answered or asked, heartbeats missed in a row, last heartbeat heard. -/
structure Pair where
  sent : Nat
  acked : Nat
  waits : List Nat
  asked : Nat
  misses : Nat
  heard : Nat
  standby : List Standby
deriving DecidableEq, Repr

/-- Serving (08). -/
structure GztSt where
  adms : Tbl AdmWin
  /-- Entries by global index (R331). -/
  ents : Tbl GEnt
  fetches : Tbl (List Fetch)
  ovlFetches : Tbl (List OvlFetch)
  /-- Live overlay versions per partition; highest version made per partition and ID (p × 2^16 + ID). -/
  ovls : Tbl (List OvlVer)
  ovlTop : Tbl Nat
  /-- Handles (p × 4096 + slot) and handles made so far per partition. -/
  handles : Tbl (Option Handle)
  serials : Tbl Nat
  pipes : Tbl Pipe
  samplers : Tbl (List SmpRow)
  /-- Batches waiting per partition, oldest first; events waiting per partition: time, mark, bytes. -/
  batches : Tbl (List Batch)
  events : Tbl (List (Nat × Nat × List Byte))
  /-- Admissions so far, for their order. -/
  order : Nat
  pairs : Tbl Pair
deriving DecidableEq, Repr

/-- A window with nothing written. -/
def AdmWin.init : AdmWin := { slots := [], isSealed := [], stamps := [], next := 0, disp := 0, overruns := 0, badSeals := 0, refused := 0, poison := [] }
/-- A FREE entry: every field zero (R333). -/
def GEnt.init : GEnt :=
  { tag := 0, st := 0, prio := 0, rebind := false, pin := false, pipe := 0, model := 0, ver := 0, ovl := 0, ovlVer := 0, sprof := 0, endc := 0,
    length := 0, promptLen := 0, generated := 0, deadline := 0, tLast := 0, ttft := 0, tbtMax := 0, misses := 0, group := 0, profile := [],
    seed := 0, gmask := 0, maxNew := 0, hlen := 0, units := [], reserved := 0, stage := 0, stageLen := 0, stamp := 0, order := 0, endAt := 0,
    cancels := [], target := 0, lastTok := 0, rebuild := 0, prompt := [], tokens := [] }
/-- A pipeline that never ran. -/
def Pipe.init : Pipe := { next := 0, opened := [], sealAt := [], lastSeal := 0, overs := 0, under := 0, retry := [] }
/-- A pair never enabled. -/
def Pair.init : Pair := { sent := 0, acked := 0, waits := [], asked := 0, misses := 0, heard := 0, standby := [] }
/-- No request. -/
def GztSt.init : GztSt :=
  { adms := [], ents := [], fetches := [], ovlFetches := [], ovls := [], ovlTop := [], handles := [], serials := [], pipes := [], samplers := [],
    batches := [], events := [], order := 0, pairs := [] }

/-- A message of the collective engine (R418, R438 to R446): MTYPE, axis, collective, rank of its sender, numbers, data. -/
structure CMsg where
  kind : Nat
  axis : Nat
  k : Nat
  /-- The sender's own number of the collective: another one than k in what a RECV or a SEND sends (R443). -/
  own : Nat
  rank : Nat
  nums : List Nat
  bytes : List Byte
  poisoned : Bool
deriving DecidableEq, Repr

/-- Room granted in staging to the part of a rank (R438), and whether the part has arrived, and poisoned. -/
structure CPart where
  rank : Nat
  off : Nat
  len : Nat
  /-- Bytes of it that have come, in messages of at most 2^26 bytes (R417). -/
  got : Nat
  here : Bool
  poisoned : Bool
deriving DecidableEq, Repr

/-- The figures of an update entry over the share of an owner (R440): owner, entry, sum of squares, non-finite elements. -/
structure CFig where
  owner : Nat
  entry : Nat
  gsq : Nat
  nonfinite : Nat
deriving DecidableEq, Repr

/-- A collective in flight (R435 to R447). -/
structure Coll where
  /-- Its index in the ring, its 64 bytes, its axis and its number on it. -/
  slot : Nat
  ent : List Byte
  axis : Nat
  k : Nat
  start : Nat
  /-- For SEND and RECV: its number between this rank and the peer. -/
  nth : Nat
  /-- Owners whose GRANT has come, to whom this rank's part went, and who acknowledged it. -/
  granted : List Nat
  acked : List Nat
  /-- As an owner: granted parts. -/
  parts : List CPart
  doneSent : Bool
  /-- As the coordinator: contributions counted, T_dl plus one (R441). -/
  dones : List Nat
  deadline : Nat
  /-- Counted ranks, stale ranks and n that SET named (R439, R318). -/
  verdict : Option (List Nat × List Nat × Nat)
  /-- Bytes that have come in place from each rank, in messages of at most 2^26 bytes (R417). -/
  got : Tbl Nat
  /-- Owners or sources whose data have come; figures; poison. -/
  results : List Nat
  figs : List CFig
  poisoned : Bool
  /-- As the coordinator of a BARRIER: ranks heard. -/
  heard : List Nat
deriving DecidableEq, Repr

/-- A stale contribution held by an owner (R318): bucket, step, rank, its bytes. -/
structure CStale where
  bucket : Nat
  step : Nat
  rank : Nat
  bytes : List Byte
  poisoned : Bool
deriving DecidableEq, Repr

/-- Parts still to come for an ended collective of an owner (R318). -/
structure CLate where
  axis : Nat
  k : Nat
  bucket : Nat
  step : Nat
  ranks : List Nat
  /-- Bytes of one part, and what has come so far of the parts that are late. -/
  len : Nat
  got : Tbl (List Byte)
deriving DecidableEq, Repr

/-- The collective engine of a partition (R435). -/
structure CollSt where
  /-- Entries submitted and not started: slot and bytes; how many of them were submitted before DRAIN, plus one (R489). -/
  fifo : List (Nat × List Byte)
  drain : Nat
  runs : List Coll
  /-- Collectives so far per axis; SENDs and RECVs so far per axis × 4,096 + peer. -/
  counts : Tbl Nat
  sends : Tbl Nat
  recvs : Tbl Nat
  /-- Messages for collectives this rank has not started. -/
  early : List CMsg
  stale : List CStale
  lates : List CLate
  /-- Late contributions known to the coordinator: bucket, step, rank; and the ranks whose DONE is still to come for a collective that has ended
here (R318). -/
  lateDones : List (Nat × Nat × Nat)
  dueDones : List CLate
  /-- Steps that ended OVERFLOW (R318). -/
  overs : List Nat
deriving DecidableEq, Repr

/-- An engine with no entry. -/
def CollSt.init : CollSt :=
  { fifo := [], drain := 0, runs := [], counts := [], sends := [], recvs := [], early := [], stale := [], lates := [], lateDones := [], dueDones := [], overs := [] }


/-- The checkpoints of a partition beside its registers (R579 to R587): NOW asked for, the step being copied or drained, the step of
the shadow, the step of each slot plus one, a rollback asked for (target plus one), the last step open when it began, the source of a
restore (0 the shadow, n + 1 slot n), the step up to which ticks are EXEMPT plus one (R575), what a slot is being fetched for from another
module (1 RESTORE, 2 a rollback, 3 the place of a failed worker), its bytes in all plus one once known, and those that have come; of the last
EXPORT the slot and step it reads, and the bytes of a slot kept on another module in all plus one, and those that have come (R320). -/
structure Ckpt where
  nowReq : Bool
  step : Nat
  shadowStep : Nat
  slots : Tbl Nat
  rollTo : Nat
  rollLast : Nat
  source : Nat
  exemptTo : Nat
  why : Nat
  total : Nat
  got : Nat
  expSlot : Nat
  expStep : Nat
  expTotal : Nat
  expGot : Nat
deriving DecidableEq, Repr

/-- The training hierarchy of a partition beside its registers (R588 to R591). As the manager: GATE and READY messages held (module,
step, overflow), drained steps plus one, times heard, modules declared failed, replacements under way (failed, spare) and whether the
rollback has been sent. As a worker: the checkpoint step named plus one, when the manager was last heard, whether its loss holds the
partition, verdicts and releases received since the last checkpoint, a rollback that waits for RESUME (epoch plus one). As a spare: the
module it replaces, the epoch and the buddy. As the manager too: DEST and BUDDY of every module, as 0x10000 × DEST + BUDDY plus one. -/
structure Hier where
  gates : List (Nat × Nat × Bool)
  readies : List (Nat × Nat)
  drained : Tbl Nat
  heard : Tbl Nat
  lost : List Nat
  joining : List (Nat × Nat)
  rolled : Bool
  named : Nat
  mgrHeard : Nat
  orphan : Bool
  verdicts : List (Nat × Nat)
  releases : List Nat
  rolling : Nat
  epoch : Nat
  buddy : Nat
  replaces : Nat
  homes : Tbl Nat
deriving DecidableEq, Repr

/-- A page repair of a shared region (R576): region, page, poisoned frame and line, steps marked (partition, step). -/
structure RegionFix where
  region : Nat
  page : Nat
  frame : Nat
  line : Nat
  marked : List (Nat × Nat)
deriving DecidableEq, Repr

/-- Repairs under way: panes of partitions that wait for their quiet point (R573), pages of shared regions in order (R578). -/
structure FixSt where
  panes : List (Nat × Nat)
  regions : List RegionFix
deriving DecidableEq, Repr

/-- No checkpoint. -/
def Ckpt.init : Ckpt :=
  { nowReq := false, step := 0, shadowStep := 0, slots := [], rollTo := 0, rollLast := 0, source := 0, exemptTo := 0, why := 0, total := 0, got := 0,
    expSlot := 0, expStep := 0, expTotal := 0, expGot := 0 }
/-- No hierarchy. -/
def Hier.init : Hier :=
  { gates := [], readies := [], drained := [], heard := [], lost := [], joining := [], rolled := false, named := 0, mgrHeard := 0,
    orphan := false, verdicts := [], releases := [], rolling := 0, epoch := 0, buddy := 0, replaces := 0, homes := [] }


/-- One flash bank (R209): per chart slot the image bytes and the commit records in its commit sector, oldest first; the flush area, whose
commit record is there or not; the firmware copy with its SVN and whether it verifies; the owner public key of the security area and its
CRC-32 (R610). -/
structure Bank where
  images : Tbl (List Byte)
  commits : Tbl (List (List Byte))
  flush : Option Flush
  fwSvn : Nat
  fwValid : Bool
  fwImage : List Byte
  ownerKey : List Byte
  ownerCrc : Nat
deriving DecidableEq, Repr

/-- Everything that reset and power loss keep. -/
structure Nv where
  bankA : Bank
  bankB : Bank
  /-- The factory region: factory image and module certificate (R211, R607). -/
  factory : List Byte
  cert : List Byte
  /-- Fuses: PRT_SERIAL; transitions of the life cycle, each its target and whether its done bit is burned (R617); the digests of the maker
  keys and of the owner slots with their revoke fuses (R604); the floors (R612). -/
  serial : Word
  trans : List (Nat × Bool)
  makers : List (Nat × Bool)
  owners : List (Nat × Bool)
  imgFloor : Nat
  fwFloor : Nat
  /-- The private identity scalar (R604), every bit 1 once destroyed (R618). It has no read path (R605). -/
  idKey : Nat
  /-- Digest of the identity public key. -/
  idDigest : Nat
  /-- Rows that the Porter has recorded as mapped out, by the line that asked for it (frame × 2^15 + line), and rows repaired permanently at a
  reset since (R379). -/
  rows : List Nat
  repaired : List Nat
deriving DecidableEq, Repr


/-- Identity and attestation (16) beside the SEC and ATT registers: the latched SVN and the check digest of what runs, whether the module
nonce is current, PMR and UMR per partition, the SM3 digest of each shared region as computed at FILL, key pairs made per partition since
reset, reports in progress (owner and the 384 bytes latched at T) in arrival order, the target plus one of the accepted transition whose
wipe is still to end, the firmware copy plus one that this boot selected (R609 to R621). -/
structure SecSt where
  imgSvn : Nat
  nonceOk : Bool
  pmr : Tbl Nat
  umr : Tbl Nat
  regionSm3 : Tbl Nat
  keyGens : Tbl Nat
  reports : List (Nat × List Byte)
  target : Nat
  fwRun : Nat
deriving DecidableEq, Repr

/-- Power, temperature and margining beside the PRT registers (17): the input readings of the last 10 ms in W and mV, newest first; the
clock in MHz plus one at which the power limit holds a pane, and heat, none where 0; the times plus one of the last power step down and of
the last step of any kind, and of a pane's last heat step; the latest reading of each sensor (die × 16 + sensor) in °C; since when, plus
one, a pane has been at or below 97 °C; the kind of a margining run (1 HBM, 2 link), its target, and what waits for its end: partitions to
activate, links to enable, regions to fill (R630, R639, R641, R642). -/
structure PwrSt where
  samples : List (Nat × Nat)
  level : Tbl Nat
  downAt : Nat
  stepAt : Nat
  heat : Tbl Nat
  heatAt : Tbl Nat
  sensors : Tbl Int
  coolAt : Tbl Nat
  margin : Nat
  target : Nat
  acts : List Nat
  enables : List Nat
  fills : List Nat
deriving DecidableEq, Repr

/-- The Shutter beside the SHT registers (14): NOSCAN, JOB and T_ARRIVE of the request in force, the partitions
its scope takes, teardowns that wait for SCANNED; flits of stopped owners that stay in
receive slots, oldest first, as (link, bytes); bytes of each partition's capture area in use; messages that wait in capture areas by
link × 8 + class (R541, R543, R546, R548, R559). -/
structure ShtSt where
  noscan : Bool
  job : Nat
  arrive : Nat
  parts : List Nat
  tears : List Nat
  flits : List (Nat × List Byte)
  capUsed : Tbl Nat
  captured : Tbl Nat
deriving DecidableEq, Repr

/-- No report, nonce or transition. -/
def SecSt.init : SecSt := { imgSvn := 0, nonceOk := false, pmr := [], umr := [], regionSm3 := [], keyGens := [], reports := [], target := 0, fwRun := 0 }
/-- No reading. -/
def PwrSt.init : PwrSt :=
  { samples := [], level := [], downAt := 0, stepAt := 0, heat := [], heatAt := [], sensors := [], coolAt := [], margin := 0, target := 0, acts := [],
    enables := [], fills := [] }
/-- OPEN. -/
def ShtSt.init : ShtSt := { noscan := false, job := 0, arrive := 0, parts := [], tears := [], flits := [], capUsed := [], captured := [] }


/-- Everything volatile: what RESET_N clears (R636). -/
structure Mach where
  /-- Graticule time in ticks (R508, R510). -/
  now : Nat
  /-- Counter behind the free values: the model's own (log entry 2). -/
  freeCtr : Nat
  /-- What has left the module, oldest first: the model's own (log entry 4). -/
  out : List Out
  /-- Output pins ALERT_N and PWR_GOOD (R628). -/
  alertN : Bool
  pwrGood : Bool
  /-- The register file. -/
  regs : Regs
  /-- The register file as the present tick found it, less what software has cleared since: what R15 and R16 ask of a write or a read
  that meets the module's own change in one tick. -/
  tickRegs : Regs
  /-- What the module itself has done to counters and W1C bits in the present tick, by address × 64 + lowest bit: the increments of a
  counter, the bits it set (R15, R16). -/
  moved : Tbl Nat
  /-- All addressed memory in one key space (Ops.memKey); an unlisted byte reads 0 (log entry 3). -/
  mem : List Host.Cell
  /-- Poisoned 64-byte lines by key / 64, strictly rising (R376, R377). -/
  poison : List Nat
  core : CoreSt
  conf : ConfSt
  errs : ErrSt
  tier : TierSt
  host : HostSt
  part : PartSt
  srv : SrvSt
  mrd : MrdSt
  /-- Conduits by number (06). -/
  conds : Tbl Cond
  /-- Training windows by partition (07). -/
  trains : Tbl Train
  /-- Serving (08). -/
  gzt : GztSt
  /-- Collective engines by partition (10). -/
  colls : Tbl CollSt
  /-- Checkpoints and hierarchies by partition, repairs (15). -/
  ckpts : Tbl Ckpt
  hiers : Tbl Hier
  fix : FixSt
  /-- Identity and attestation (16), power and margining (17), the Shutter (14). -/
  sec : SecSt
  pwr : PwrSt
  sht : ShtSt
deriving DecidableEq, Repr

/-- The state of the machine. -/
structure State where
  /-- Flash, factory region and fuses: kept through reset and power loss. -/
  nv : Nv
  /-- Power and input pins. -/
  ext : Ext
  /-- Everything volatile. -/
  m : Mach
  /-- Commands waiting, first in first out: the model's own. -/
  pending : List Instr
deriving DecidableEq, Repr

/-- A stream as the image leaves it (R144): registers 0, p0 = 1. -/
def Stream.init : Stream := { s := [], a := [], p := 0, since := 0, calls := [], lstep := 0, llayer := 0, lop := 0 }
/-- A pane with no code and nothing queued. -/
def Pane.init : Pane :=
  { code := [], f := Stream.init, b := Stream.init, u := Stream.init, tok := [], mq := [], vq := [], cq := [],
    mrun := none, mdrain := none, vrun := none, cruns := [], vin := [], split := [] }
/-- An empty configuration. -/
def Cfg.empty : Cfg :=
  { stageMap := [], routes := [], partitions := [], fabric := [], islands := [], code := [], conduit := [],
    schedule := [], types := [] }
/-- A transaction window with nothing held. -/
def Txn.init : Txn :=
  { writes := [], delta := none, epochs := [], commitAt := 0, limit := 0, holdAt := 0, affected := [], fetchLen := 0, port := 0,
    valid := false }
/-- A hatch with no slot written. -/
def Hatch.init : Hatch :=
  { slots := [], isSealed := [], disp := 0, holding := [], fresh := [], waitOn := none, unannounced := 0, since := 0, epoch := 0 }
/-- An MSI-X vector after reset (PRESUMED, log entry 93). -/
def MsixVec.init : MsixVec := { addr := 0, data := 0, masked := true, pending := false }
/-- No handler. -/
def Handlers.init : Handlers := { running := [], queued := [] }

/-- A bank as manufactured: no chart, no flush, firmware valid with SVN 0 (log entry 6). -/
def Bank.init : Bank :=
  { images := [], commits := [], flush := none, fwSvn := 0, fwValid := true, fwImage := [], ownerKey := [], ownerCrc := 0 }
/-- Flash and fuses as manufactured, in TEST: one maker key, no owner, floors 0, the factory chart of R211 (log entry 6). -/
def Nv.init : Nv :=
  { bankA := Bank.init, bankB := Bank.init, factory := factoryImage, cert := [], serial := 0, trans := [], makers := [(0, false), (0, false)], owners := [],
    imgFloor := 0, fwFloor := 0, idKey := 1, idDigest := 0, rows := [], repaired := [] }

/-- The volatile state that RESET_N leaves (R636): everything cleared, registers at their reset values (R18). -/
def Mach.init : Mach :=
  { now := 0, freeCtr := 0, out := [], alertN := true, pwrGood := true, regs := regsReset, tickRegs := regsReset, moved := [], mem := [], poison := [],
    core := { panes := [], xfers := [], goodSlots := [], tested := [], asked := [], badWires := [], retries := [], testing := [], usedRecs := [], failed := [], stopped := [] },
    conf := { cfg := Cfg.empty, req := (0, 0, 0), chartOp := none, chartImage := [], txns := [] },
    errs := { handlers := [], rates := [], seqs := [], flushing := none },
    tier := { pages := [], frameOwner := [], retired := [], slices := [], sliceOwner := [], withheld := [], saves := [],
              farPages := [], farOwner := [], failedPins := [], pinHits := [], uncorrHits := [], paneHits := [], rowMoves := [],
              waitTicks := [], enumerated := [], coolSince := [], readings := [], atShutdown := [], farViol := [], keys := [], keyGen := 0 },
    host := { msix := [], strays := [], hatches := [], endpoint := 0,
              mctpBusy := [], mctpTimes := [] },
    part := { meters := [], holds := [], loading := [], tearing := [], drainAt := [], saved := [],
              savedRegs := [], sliceEnd := [], sliceStart := [], switching := [], overrun := [], left := [], debt := [], regionFrames := [],
              filling := [], fillFailed := [], launches := [], exempt := [] },
    srv := { counts := [], seqs := [], partials := [], merged := [], ports := [], ringOldest := [], parent := 0,
             good := 0, lastExch := 0, pathDelay := 0, rate := [], rateEst := 0, rateAcc := 0, heldTicks := 0, slew := 0, refTick := 0, slewAt := 0, syncT1 := [] },
    mrd := { links := [], seenReq := [], msgs := 0 },
    conds := [], trains := [], gzt := GztSt.init, colls := [], ckpts := [], hiers := [], fix := { panes := [], regions := [] },
    sec := SecSt.init, pwr := PwrSt.init, sht := ShtSt.init }

/-- The module with input power good and RESET_N held low, as manufactured (log entries 1 and 6). -/
def State.reset : State :=
  { nv := Nv.init,
    ext := { power := true, resetN := false, pwrfailN := true, refclk := true, tripped := false, cold := true, chartSel := 0 },
    m := Mach.init, pending := [] }

end Sys2Proof.Machine
end

