-- ==== Sys2Proof/Machine/Ops.lean ====
section
/-! DEFINITION. The named operations over registers, memory, outputs, configuration entries and error records that every family uses. -/

namespace Sys2Proof.Machine

/-- The outcome of a meaning. -/
abbrev Res := Host.Outcome State Fault Refusal

/-- A next state that differs in the volatile state only. -/
def State.withM (s : State) (m : Mach) : Res := .next { s with m := m }

/-! ### Registers -/

/-- The value of a register field. -/
def Mach.fld (m : Mach) (f : Fld) (ix : List Nat) : Nat := m.regs.fld f ix
/-- The state with one register field replaced. -/
def Mach.setFld (m : Mach) (f : Fld) (ix : List Nat) (v : Nat) : Mach := { m with regs := m.regs.setFld f ix v }
/-- A field as a flag. -/
def Mach.flag (m : Mach) (f : Fld) (ix : List Nat) : Bool := m.fld f ix == 1
/-- The key of a field in the record of what the present tick has moved. -/
def Fld.key (f : Fld) (ix : List Nat) : Nat := f.addr ix * 64 + f.lo
/-- What the module has done to a field in the present tick (R15, R16). -/
def Mach.movedOf (m : Mach) (f : Fld) (ix : List Nat) : Nat := Tbl.get 0 m.moved (f.key ix)
/-- A counter field raised by n, stopping at its largest value; the tick remembers the increment (R16). -/
def Mach.addSat (m : Mach) (f : Fld) (ix : List Nat) (n : Nat) : Mach :=
  { m.setFld f ix (min (m.fld f ix + n) (2 ^ (f.hi + 1 - f.lo) - 1)) with moved := Tbl.set 0 m.moved (f.key ix) (m.movedOf f ix + n) }
/-- W1C bits of a field set by the module; the tick remembers them (R15). -/
def Mach.raise (m : Mach) (f : Fld) (ix : List Nat) (v : Nat) : Mach :=
  { m.setFld f ix (m.fld f ix ||| v) with moved := Tbl.set 0 m.moved (f.key ix) (m.movedOf f ix ||| v) }
/-- A counter field raised by n, wrapping. -/
def Mach.addWrap (m : Mach) (f : Fld) (ix : List Nat) (n : Nat) : Mach := m.setFld f ix (m.fld f ix + n)
/-- Several fields of one register array replaced at the same indices. -/
def Mach.setFlds (m : Mach) (ix : List Nat) (l : List (Fld × Nat)) : Mach :=
  l.foldl (fun m p => m.setFld p.1 ix p.2) m

/-- A value that the spec leaves open: nothing constrains it (log entry 2). -/
def Mach.free (m : Mach) : Word := Config.freeWord m.freeCtr
/-- The state after one free value has been drawn. -/
def Mach.drew (m : Mach) : Mach := { m with freeCtr := m.freeCtr + 1 }

/-! ### Outputs -/

/-- Append to what has left the module. -/
def Mach.emit (m : Mach) (o : Out) : Mach := { m with out := m.out ++ [o] }

/-! ### Memory -/

/-- The first of n numbers from i on that meets a test. -/
def firstFrom (p : Nat → Bool) : Nat → Nat → Option Nat
  | 0, _ => none
  | n + 1, i => if p i then some i else firstFrom p n (i + 1)
/-- The key of offset o in unit u of the one memory space (R146, R31): units 0 the pane stores, 1 Transom, 2 HBM frames,
3 far frames, 4 the module regions of Transom, 16 and up host memory by function. -/
def memKey (u o : Nat) : Nat := u * 2 ^ 72 + o
/-- The key of a byte of a pane store (4 MiB each). -/
def paneKey (pane off : Nat) : Nat := memKey 0 (pane * 2 ^ 22 + off)
/-- The key of a byte of a global Transom slice (4 MiB each). -/
def sliceKey (slice off : Nat) : Nat := memKey 1 (slice * 2 ^ 22 + off)
/-- The key of a byte of an HBM frame (2 MiB each). -/
def frameKey (frame off : Nat) : Nat := memKey 2 (frame * 2 ^ 21 + off)
/-- The key of a byte of a far frame (2 MiB each); frames of XP1 follow at 2^21. -/
def farKey (frame off : Nat) : Nat := memKey 3 (frame * 2 ^ 21 + off)
/-- The key of a byte of host memory as a function of a port addresses it (R457). -/
def hostKey (port fn off : Nat) : Nat := memKey (16 + port * 64 + fn) off

/-- One byte of memory; a byte that nothing has written reads 0 (log entry 3). -/
def readByte (mem : List Host.Cell) (k : Nat) : Byte := Tbl.get 0 mem k
/-- Memory with one byte written. -/
def writeByte (mem : List Host.Cell) (k : Nat) (v : Byte) : List Host.Cell := Tbl.set 0 mem k v
/-- n bytes of memory. -/
def readBytes (mem : List Host.Cell) (k n : Nat) : List Byte := (List.range n).map (fun i => readByte mem (k + i))
/-- Memory with a byte string written from key k. -/
def writeBytes : List Host.Cell → Nat → List Byte → List Host.Cell
  | mem, _, [] => mem
  | mem, k, b :: bs => writeBytes (writeByte mem k b) (k + 1) bs
/-- Memory in its canonical form. -/
def Memory.wf (mem : List Host.Cell) : Bool := Tbl.wf 0 mem

/-- The 64-byte lines that n bytes from key k touch. -/
def linesOf (k n : Nat) : List Nat := if n = 0 then [] else (List.range ((k + n - 1) / 64 - k / 64 + 1)).map (fun i => k / 64 + i)
/-- The lines that n bytes from key k cover wholly. -/
def fullLinesOf (k n : Nat) : List Nat := (linesOf k n).filter (fun l => decide (k ≤ l * 64) && decide (l * 64 + 64 ≤ k + n))
/-- A frame out of reach: its channel FAILED, or its stack in self-refresh. Reads of it return poison and writes are discarded
(R380, R387). -/
def Mach.frameGone (m : Mach) (f : Nat) : Bool :=
  m.fld R.MEM_CHAN_STATE [f % 512] == 3 || m.flag R.MEM_STACK_SHUTDOWN [f % 512 / 32]
/-- A far frame out of reach: its port, or with interleaving either port, DOWN (R407, R408). -/
def Mach.farGone (m : Mach) (f : Nat) : Bool :=
  if m.flag R.FAR_CTL_INTERLEAVE [] then m.fld R.FAR_PORT_STATE [0] == 2 || m.fld R.FAR_PORT_STATE [1] == 2
  else m.fld R.FAR_PORT_STATE [f / 2 ^ 21] == 2
/-- A key that lies out of reach. -/
def Mach.gone (m : Mach) (k : Nat) : Bool :=
  let o := k % 2 ^ 72 / 2 ^ 21
  if k / 2 ^ 72 = 2 then m.frameGone o else if k / 2 ^ 72 = 3 then m.farGone o else false
/-- The owner of the HBM frame of a key: 0 for any other key. -/
def Mach.frameOwnerAt (m : Mach) (k : Nat) : Nat := if k / 2 ^ 72 = 2 then Tbl.get 0 m.tier.frameOwner (k % 2 ^ 72 / 2 ^ 21) else 0
/-- A key in a shared region that has FAILED (R577). -/
def Mach.regionBad (m : Mach) (k : Nat) : Bool :=
  let o := m.frameOwnerAt k
  decide (64 ≤ o) && m.fld R.PTN_SREG_STATE [o - 64] == 3
/-- Whether a read of a range, which lies in one frame, meets poison (R376, R380, R387, R408, R577). -/
def Mach.poisonedAt (m : Mach) (k n : Nat) : Bool :=
  (linesOf k n).any (fun l => m.poison.contains l) || m.gone k || m.regionBad k
/-- Tag the lines of a range as poisoned (R376). -/
def Mach.poisonLines (m : Mach) (k n : Nat) : Mach :=
  { m with poison := (linesOf k n).foldl (fun p l => insertNat l p) m.poison }
/-- Clear the tags of the lines a clean write covers wholly (R378). -/
def Mach.cleanLines (m : Mach) (k n : Nat) : Mach :=
  { m with poison := (fullLinesOf k n).foldl (fun p l => eraseNat l p) m.poison }
/-- Clear every tag of a range. -/
def Mach.untag (m : Mach) (k n : Nat) : Mach :=
  { m with poison := m.poison.filter (fun l => !(decide (k / 64 ≤ l) && decide (l * 64 < k + n))) }

/-- A clean write of memory (R378), discarded where it lies out of reach. -/
def Mach.store (m : Mach) (k : Nat) (bs : List Byte) : Mach :=
  if m.gone k then m else ({ m with mem := writeBytes m.mem k bs }).cleanLines k bs.length
/-- A write whose lines are poisoned (R377, R378). -/
def Mach.storePoisoned (m : Mach) (k : Nat) (bs : List Byte) : Mach :=
  if m.gone k then m else ({ m with mem := writeBytes m.mem k bs }).poisonLines k bs.length
/-- The write a chunk stands for. -/
def Mach.putChunk (m : Mach) (c : Chunk) : Mach :=
  if c.poisoned then m.storePoisoned c.key c.bytes else m.store c.key c.bytes
/-- n bytes from a key. -/
def Mach.load (m : Mach) (k n : Nat) : List Byte := readBytes m.mem k n
/-- A little-endian number of n bytes at a key. -/
def Mach.loadLe (m : Mach) (k n : Nat) : Nat := ofLe (m.load k n)
/-- A little-endian number of n bytes written at a key. -/
def Mach.storeLe (m : Mach) (k n v : Nat) : Mach := m.store k (leBytes n v)
/-- A range set to zero with its tags cleared (R394, R404): every listed byte of it is dropped. -/
def Mach.zero (m : Mach) (k n : Nat) : Mach :=
  ({ m with mem := m.mem.filter (fun c => !(decide (k ≤ c.1) && decide (c.1 < k + n))) }).untag k n

/-! ### The running configuration (R194 to R201) -/

/-- Whether a PANES bitmap, at byte o of an entry, names a pane. -/
def bitmapHas (e : List Byte) (o pane : Nat) : Bool := bitAt ((e.getD (o + pane / 8) 0).toNat) (pane % 8)
/-- The panes a bitmap of 48 bytes at byte o names, in ascending order. -/
def bitmapPanes (e : List Byte) (o : Nat) : List Nat :=
  setBits 384 (leAt e o 48)
/-- The PARTITIONS entry of a partition, if the running configuration defines it. -/
def Cfg.part (c : Cfg) (p : Nat) : Option (List Byte) := c.partitions.find? (fun e => leAt e 0 1 == p)
/-- MODE of a partition is time-shared (R196). -/
def Cfg.shared (c : Cfg) (p : Nat) : Bool := ((c.part p).map (fun e => leAt e 1 1 == 1)).getD false
/-- The host port and VF of a partition (R451). -/
def Cfg.portOf (c : Cfg) (p : Nat) : Nat := ((c.part p).map (fun e => leAt e 2 1)).getD 0
/-- The VF number of a partition. -/
def Cfg.vfOf (c : Cfg) (p : Nat) : Nat := ((c.part p).map (fun e => leAt e 3 1)).getD 0
/-- HBM_PAGES of a partition. -/
def Cfg.hbmPages (c : Cfg) (p : Nat) : Nat := ((c.part p).map (fun e => leAt e 4 4)).getD 0
/-- TRANSOM_SLICES of a partition. -/
def Cfg.slices (c : Cfg) (p : Nat) : Nat := ((c.part p).map (fun e => leAt e 8 2)).getD 0
/-- SLICE_US of a partition. -/
def Cfg.sliceUs (c : Cfg) (p : Nat) : Nat := ((c.part p).map (fun e => leAt e 28 4)).getD 0
/-- The panes of a partition. -/
def Cfg.panes (c : Cfg) (p : Nat) : List Nat := ((c.part p).map (fun e => bitmapPanes e 32)).getD []
/-- The partition that VF fn of a port serves, 0 if none (R451). -/
def Cfg.vfPart (c : Cfg) (port fn : Nat) : Nat :=
  ((c.partitions.find? (fun e => leAt e 2 1 == port && leAt e 3 1 == fn)).map (fun e => leAt e 0 1)).getD 0
/-- The partitions the configuration defines, in ascending order. -/
def Cfg.parts (c : Cfg) : List Nat := (c.partitions.map (fun e => leAt e 0 1)).foldl (fun l p => insertNat p l) []
/-- The STAGE_MAP entry of a stage. -/
def Cfg.stage (c : Cfg) (n : Nat) : Option (List Byte) := c.stageMap.find? (fun e => leAt e 0 2 == n)
/-- The panes of a stage. -/
def Cfg.stagePanes (c : Cfg) (n : Nat) : List Nat := ((c.stage n).map (fun e => bitmapPanes e 8)).getD []
/-- The partition of a stage, 0 if there is none. -/
def Cfg.stagePart (c : Cfg) (n : Nat) : Nat := ((c.stage n).map (fun e => leAt e 2 1)).getD 0
/-- The stage of a partition that holds a pane, if any. -/
def Cfg.stageOf (c : Cfg) (p pane : Nat) : Option (List Byte) :=
  c.stageMap.find? (fun e => leAt e 2 1 == p && bitmapHas e 8 pane)
/-- The ROUTES entry of a route. -/
def Cfg.route (c : Cfg) (r : Nat) : Option (List Byte) := c.routes.find? (fun e => leAt e 0 2 == r)
/-- SRC of a route. -/
def routeSrc (e : List Byte) : Nat := leAt e 4 2
/-- DST of a route. -/
def routeDst (e : List Byte) : Nat := leAt e 6 2
/-- The bridge edges a route crosses, in order (R195). -/
def routeEdges (e : List Byte) : List Nat := (List.range (leAt e 8 1)).map (fun i => bits (leAt e 12 4) (4 * i + 3) (4 * i))
/-- The CODE entry of a pane for a partition. -/
def Cfg.codeOf (c : Cfg) (pane p : Nat) : Option (List Byte) := c.code.find? (fun e => leAt e 0 2 == pane && leAt e 2 1 == p)
/-- The CONDUIT entry of a conduit. -/
def Cfg.conduitOf (c : Cfg) (n : Nat) : Option (List Byte) := c.conduit.find? (fun e => leAt e 0 1 == n)
/-- The SCHEDULE entry of a stage. -/
def Cfg.scheduleOf (c : Cfg) (st : Nat) : Option (List Byte) := c.schedule.find? (fun e => leAt e 0 2 == st)

/-- The key of host memory that partition p addresses (R457). -/
def Mach.partHostKey (m : Mach) (p off : Nat) : Nat := hostKey (m.conf.cfg.portOf p) (m.conf.cfg.vfOf p) off

/-! ### Groups of time-shared partitions (R492, R494) -/

/-- The lowest member of the group of a time-shared partition. -/
def Cfg.groupFirst (c : Cfg) (p : Nat) : Nat :=
  ((c.parts.filter (fun q => c.shared q && c.panes q == c.panes p)).head?).getD p
/-- The lowest members of all groups, in ascending order: group g is element g (R495). -/
def Cfg.groups (c : Cfg) : List Nat := c.parts.filter (fun p => c.shared p && c.groupFirst p == p)
/-- The group of a partition. -/
def Cfg.groupOf (c : Cfg) (p : Nat) : Nat := (c.groups.idxOf (c.groupFirst p))
/-- The members of group g, in ascending order. -/
def Cfg.members (c : Cfg) (g : Nat) : List Nat :=
  match c.groups[g]? with
  | none => []
  | some f => c.parts.filter (fun q => c.shared q && c.panes q == c.panes f)

/-- The partition that owns a pane at present: its spatial owner, or the member of its group in its slice (R491,
R494); 0 where there is none. -/
def Mach.paneOwner (m : Mach) (pane : Nat) : Nat :=
  match m.conf.cfg.partitions.find? (fun e => bitmapHas e 32 pane) with
  | none => 0
  | some e =>
    if leAt e 1 1 = 1 then m.fld R.PTN_GROUP_CURRENT [m.conf.cfg.groupOf (leAt e 0 1)] else leAt e 0 1

/-! ### Module and partition states -/

/-- PRT_STATUS.PHASE values of R637 as the register holds them. -/
def phaseReady : Nat := 5
/-- The module runs (R570, R599, R638): boot has reached READY and no FATAL or POWER_FAIL state holds. -/
def Mach.running (m : Mach) : Bool := m.fld R.PRT_STATUS_PHASE [] == phaseReady && m.fld R.ERR_MSTATE_STATE [] == 0

/-- Host commands other than those of charts and of security are accepted: not in FATAL or POWER_FAIL (R570, R599), not without a
configuration (R214), not in SCRAPPED (R622). -/
def Mach.accepts (m : Mach) : Bool := m.running && !m.flag R.PRT_STATUS_CFG_NONE [] && m.fld R.SEC_LC_STATE [] != 4

/-- Partition states (R485). -/
def psDefined : Nat := 0
def psLoading : Nat := 1
def psActive : Nat := 2
def psPaused : Nat := 3
def psDraining : Nat := 4
def psFaulted : Nat := 5
def psTornDown : Nat := 6
def psNone : Nat := 7
/-- The state of a partition. -/
def Mach.pstate (m : Mach) (p : Nat) : Nat := m.fld R.PTN_PSTATE_STATE [p]
/-- The permissions of the life-cycle state in force (R622). -/
def Mach.lc (m : Mach) : Nat := m.fld R.SEC_LC_STATE []
/-- States of partitions that hold nothing (R216, R618). -/
def Mach.partIdle (m : Mach) (p : Nat) : Bool := m.pstate p == psDefined || m.pstate p == psTornDown || m.pstate p == psNone
/-- No partition is live. -/
def Mach.allIdle (m : Mach) : Bool := ((List.range 32).map (fun i => i + 1)).all (fun p => m.partIdle p)
/-- SEC_LC.MARGIN (R622): in DEPLOYED only while no partition is live, never in SCRAPPED. -/
def Mach.marginSync (m : Mach) : Mach :=
  m.setFld R.SEC_LC_MARGIN [] (b2n (m.lc != 4 && (m.lc != 2 || m.allIdle)))
/-- A margining run is in progress (R641). -/
def Mach.margining (m : Mach) : Bool := m.flag R.PRT_MARGIN_STAT_BUSY []
/-- A transition of a partition, with PTN_PTIME (R485) and the margin permission; its next counter sample is PARTIAL (R517). -/
def Mach.setPstate (m : Mach) (p st : Nat) : Mach :=
  let m := { m with srv := { m.srv with partials := insertNat p m.srv.partials } }
  ((m.setFld R.PTN_PSTATE_STATE [p] st).setFld R.PTN_PTIME_TIME [p] m.now).marginSync
/-- Whether a hold is in force on a partition (R226, R573, R580). -/
def Mach.held (m : Mach) (p : Nat) : Bool := m.part.holds.any (fun h => h.1 == p)
/-- A hold placed on a partition. -/
def Mach.hold (m : Mach) (p why : Nat) : Mach :=
  if m.part.holds.contains (p, why) then m else { m with part := { m.part with holds := m.part.holds ++ [(p, why)] } }
/-- A hold released. -/
def Mach.unhold (m : Mach) (p why : Nat) : Mach :=
  { m with part := { m.part with holds := m.part.holds.filter (fun h => h != (p, why)) } }
/-- Every hold of one reason released. -/
def Mach.unholdAll (m : Mach) (why : Nat) : Mach :=
  { m with part := { m.part with holds := m.part.holds.filter (fun h => h.2 != why) } }

/-- Hold reasons of the model: repair, checkpoint, rollback, hierarchy, teardown (R573, R580, R585, R591, R490). -/
def hdRepair : Nat := 40
def hdCkpt : Nat := 41
def hdRoll : Nat := 42
def hdHier : Nat := 43
def hdTear : Nat := 44
/-- The hold of a stop (R544): work of the partition neither starts nor moves on. -/
def hdShut : Nat := 45
/-- A partition that the Shutter has stopped. -/
def Mach.shut (m : Mach) (p : Nat) : Bool := m.part.holds.contains (p, hdShut)
/-- A member that takes slices: ACTIVE or DRAINING (R494), not being torn down (R507), not stopped by the Shutter, and not held by a provider
transaction, for which alone the rotation skips it. -/
def Mach.inRotation (m : Mach) (p : Nat) : Bool :=
  (m.pstate p == psActive || m.pstate p == psDraining) && !m.part.tearing.contains p && !m.part.holds.contains (p, 0) && !m.shut p
/-- Idle groups of members that may take slices again: their slice begins at the next SLICE_SWITCH (R494, R495). -/
def Mach.stirGroups (m : Mach) (ps : List Nat) : Mach :=
  ps.foldl (fun m p =>
    let g := m.conf.cfg.groupOf p
    if m.conf.cfg.shared p ∧ m.fld R.PTN_GROUP_CURRENT [g] = 0 ∧ Tbl.get 0 m.part.switching g = 0 ∧ m.inRotation p then
      { m with part := { m.part with switching := Tbl.set 0 m.part.switching g (max 1 m.now), overrun := Tbl.set 0 m.part.overrun g (max 1 m.now) } }
    else m) m
/-- Every hold of one reason released: the members it kept out of their rotation may run. -/
def Mach.release (m : Mach) (why : Nat) : Mach := (m.unholdAll why).stirGroups ((m.part.holds.filter (fun h => h.2 == why)).map (fun h => h.1))
/-- The scope in force is stopped, from STOPPING to REOPENING (R556). -/
def Mach.stopping (m : Mach) : Bool := decide (2 ≤ m.fld R.SHT_STATUS_STATE [])
/-- A stop of the whole module: scope MODULE or FABRIC (R538). -/
def Mach.fullStop (m : Mach) : Bool := m.stopping && (m.fld R.SHT_STATUS_SCOPE [] == 0 || m.fld R.SHT_STATUS_SCOPE [] == 2)

/-! ### Metering and interval counts (R505, R519) -/

/-- The order of the live counters (R505). -/
def meterReg : List Fld :=
  [R.PTN_PANE_TICKS_COUNT, R.PTN_EXEMPT_TICKS_COUNT, R.PTN_HOLD_TICKS_COUNT, R.PTN_OVERRUN_TICKS_COUNT,
   R.PTN_HBM_RD_BYTES_COUNT, R.PTN_HBM_WR_BYTES_COUNT, R.PTN_FAR_BYTES_COUNT, R.PTN_LINK_TX_BYTES_COUNT,
   R.PTN_LINK_RX_BYTES_COUNT, R.PTN_HOST_BYTES_COUNT, R.PTN_HATCH_CMDS_COUNT, R.PTN_REQUESTS_COUNT,
   R.PTN_STEPS_COUNT, R.PTN_PROMPT_TOKENS_COUNT, R.PTN_GEN_TOKENS_COUNT]
/-- Indices of the live counters. -/
def mPane : Nat := 0
def mExempt : Nat := 1
def mHold : Nat := 2
def mOverrun : Nat := 3
def mHbmRd : Nat := 4
def mHbmWr : Nat := 5
def mFar : Nat := 6
def mLinkTx : Nat := 7
def mLinkRx : Nat := 8
def mHost : Nat := 9
def mHatch : Nat := 10
def mRequests : Nat := 11
def mSteps : Nat := 12
def mPrompt : Nat := 13
def mGen : Nat := 14
/-- The island of a pane, a Louvre, and so on (R32). -/
def isl (cls i : Nat) : Nat := cls * 4096 + i
/-- The partition entry of a counter record (R518). -/
def islPart : Nat := 0xFFFF

/-- Count k of an island for one owner raised in the present interval (R517, R519). -/
def Mach.countFor (m : Mach) (o island k n : Nat) : Mach :=
  let key := (o * 65536 + island) * 8 + k
  { m with srv := { m.srv with counts := Tbl.set 0 m.srv.counts key (Tbl.get 0 m.srv.counts key + n) } }
/-- Count k of an island, for its partition and for the provider (R520). -/
def Mach.count (m : Mach) (p island k n : Nat) : Mach :=
  let m := m.countFor 0 island k n
  if p = 0 then m else m.countFor p island k n
/-- A peak count of an island. -/
def Mach.peakFor (m : Mach) (o island k n : Nat) : Mach :=
  let key := (o * 65536 + island) * 8 + k
  { m with srv := { m.srv with counts := Tbl.set 0 m.srv.counts key (max (Tbl.get 0 m.srv.counts key) n) } }

/-- The interval count of a partition entry that a live counter feeds (R519), in bytes until the record is written. -/
def meterCount (k : Nat) : Option Nat :=
  if k = mHbmRd then some 0 else if k = mHbmWr then some 1 else if k = mLinkTx ∨ k = mLinkRx then some 2 else if k = mHost then some 3 else none
/-- A live counter of a partition, wrapping at 2^64, and the interval count it feeds. Work of a retried step counts as EXEMPT_TICKS only
(R505, R519, R575). -/
def Mach.meter (m : Mach) (p k n : Nat) : Mach :=
  let m := match meterCount k with
    | some j => m.countFor p islPart j n
    | none => m
  if p = 0 ∨ (m.part.exempt.contains p ∧ k ≠ mExempt) then m
  else { m with part := { m.part with meters := Tbl.set 0 m.part.meters (p * 16 + k)
                                        ((Tbl.get 0 m.part.meters (p * 16 + k) + n) % 2 ^ 64) } }

/-- Bytes that a unit moves for a partition over pieces of memory, read or written: its metering and the counts of stacks and ports
(R389, R505, R519). -/
def Mach.traffic (m : Mach) (p : Nat) (write : Bool) (l : List (Nat × Nat)) : Mach :=
  l.foldl (fun m s =>
    let u := s.1 / 2 ^ 72
    let f := s.1 % 2 ^ 72 / 2 ^ 21
    if u = 2 then (m.meter p (if write then mHbmWr else mHbmRd) s.2).count p (isl 4 (f % 512 / 32 * 32)) (b2n write) s.2
    else if u = 3 then
      let m := m.meter p mFar s.2
      if m.flag R.FAR_CTL_INTERLEAVE [] then (m.count p (isl 6 2) (b2n (!write)) (s.2 / 2)).count p (isl 6 3) (b2n (!write)) (s.2 - s.2 / 2)
      else m.count p (isl 6 (2 + f / 2 ^ 21)) (b2n (!write)) s.2
    else if 16 ≤ u then (m.meter p mHost s.2).count p (isl 6 ((u - 16) / 64)) (b2n (!write)) s.2
    else m) m

/-! ### MSI-X (R472, R473) -/

/-- The link of a partition's host port is up; while it is down, what the partition would move over it waits (R476). -/
def Mach.portUp (m : Mach) (p : Nat) : Bool := m.flag R.PRT_HP_LINK_UP [m.conf.cfg.portOf p]
/-- A discarded write of a VF that no partition names, counted (R451). -/
def Mach.stray (m : Mach) (port fn off : Nat) : Mach :=
  let x := Tbl.get (0, 0) m.host.strays (port * 64 + fn)
  { m with host := { m.host with strays := Tbl.set (0, 0) m.host.strays (port * 64 + fn) (min 65535 (x.1 + 1), off % 2 ^ 32) } }
/-- A VF that a partition now names shows what it counted before (R451). -/
def Mach.adoptStrays (m : Mach) : Mach :=
  let part (k : Nat) : Nat := m.conf.cfg.vfPart (k / 64) (k % 64)
  let m' := m.host.strays.foldl (fun m (e : Nat × Nat × Nat) =>
    if part e.1 = 0 then m else m.setFlds [part e.1] [(R.HTC_HOSTERR_UNMAPPED, e.2.1), (R.HTC_HOSTERR_LAST_OFFSET, e.2.2)]) m
  { m' with host := { m'.host with strays := m'.host.strays.filter (fun (e : Nat × Nat × Nat) => part e.1 == 0) } }
/-- Where the vectors of a function of a port stand (fn 0 is the PF). -/
def msixKey (port fn v : Nat) : Nat := (port * 64 + fn) * 32 + v
/-- A vector of a function. -/
def Mach.msixVec (m : Mach) (port fn v : Nat) : MsixVec := Tbl.get MsixVec.init m.host.msix (msixKey port fn v)
/-- A vector replaced. -/
def Mach.setMsix (m : Mach) (port fn v : Nat) (x : MsixVec) : Mach :=
  { m with host := { m.host with msix := Tbl.set MsixVec.init m.host.msix (msixKey port fn v) x } }
/-- A vector fires: its message goes out, or its pending bit is set while it is masked (R473). -/
def Mach.fireVector (m : Mach) (port fn v : Nat) : Mach :=
  let x := m.msixVec port fn v
  if x.masked then m.setMsix port fn v { x with pending := true } else m.emit (.msix port fn v x.addr x.data)
/-- The MSI-X state of a function as its reset leaves it (R475). -/
def Mach.msixReset (m : Mach) (port fn : Nat) : Mach :=
  { m with host := { m.host with msix := m.host.msix.filter (fun e => e.1 / 32 != port * 64 + fn) } }
/-- An event vector of a partition's VF. -/
def Mach.vfVector (m : Mach) (p v : Nat) : Mach :=
  if p = 0 then m else m.fireVector (m.conf.cfg.portOf p) (m.conf.cfg.vfOf p) v
/-- An event vector of the PFs: the provider's vectors go to both ports (log entry 20). -/
def Mach.pfVector (m : Mach) (v : Nat) : Mach := (m.fireVector 0 0 v).fireVector 1 0 v
/-- The event vector of an owner's transactions (R472). -/
def Mach.ownerVector (m : Mach) (o vfv pfv : Nat) : Mach := if o = 0 then m.pfVector pfv else m.vfVector o vfv

/-! ### Lookups of the state's tables -/

/-- The contents of a pane. -/
def Mach.pane (m : Mach) (n : Nat) : Pane := Tbl.get Pane.init m.core.panes n
/-- The state with the contents of a pane replaced. -/
def Mach.setPane (m : Mach) (n : Nat) (p : Pane) : Mach :=
  { m with core := { m.core with panes := Tbl.set Pane.init m.core.panes n p } }
/-- A hatch of a partition. -/
def Mach.hatch (m : Mach) (p h : Nat) : Hatch := Tbl.get Hatch.init m.host.hatches (p * 4 + h)
/-- The state with a hatch replaced. -/
def Mach.setHatch (m : Mach) (p h : Nat) (x : Hatch) : Mach :=
  { m with host := { m.host with hatches := Tbl.set Hatch.init m.host.hatches (p * 4 + h) x } }
/-- The transaction window of an owner. -/
def Mach.txn (m : Mach) (o : Nat) : Txn := Tbl.get Txn.init m.conf.txns o
/-- The state with a transaction window replaced. -/
def Mach.setTxn (m : Mach) (o : Nat) (t : Txn) : Mach :=
  { m with conf := { m.conf with txns := Tbl.set Txn.init m.conf.txns o t } }
/-- The transfers in flight on a route. -/
def Mach.xfersOf (m : Mach) (r : Nat) : List Xfer := Tbl.get [] m.core.xfers r
/-- The state with the transfers of a route replaced. -/
def Mach.setXfers (m : Mach) (r : Nat) (l : List Xfer) : Mach :=
  { m with core := { m.core with xfers := Tbl.set [] m.core.xfers r l } }
/-- The die of a pane (R28). -/
def dieOf (pane : Nat) : Nat := pane / 48

end Sys2Proof.Machine
end

