-- ==== Sys2Proof/Machine/Xlate.lean ====
section
/-! DEFINITION. Partition addresses (R146) and their translation to memory keys: own pane store, Transom slices (R392, R393), HBM pages (R399, R402, R502), far pages (R401), host memory (R457, R458). -/

namespace Sys2Proof.Machine

/-- SPACE of a partition address (R146). -/
def adSpace (w : Word) : Nat := bits w.toNat 63 60
/-- ROUTE of a partition address. -/
def adRoute (w : Word) : Nat := bits w.toNat 59 48
/-- OFFSET of a partition address. -/
def adOffset (w : Word) : Nat := bits w.toNat 47 0
/-- ATOP of a space-1 destination (R395). -/
def adAtop (w : Word) : Nat := bits w.toNat 43 40
/-- Offset of a space-1 address below ATOP (R395). -/
def adOffset40 (w : Word) : Nat := bits w.toNat 39 0

/-! ### Dies, bridge directions and routes (R37, R38, R195) -/

/-- The die of an island: 0 to 7 CD0 to CD7, 8 TD0, 9 TD1 (R24, R25, R32). -/
def islandDie (i : Nat) : Nat :=
  let n := i % 4096
  match i / 4096 with
  | 0 => n / 48
  | 1 => n
  | 2 => n
  | 3 => n
  | 4 => n / 64
  | 5 => if n < 5 then 8 else 9
  | 6 => 8 + n % 2
  | 8 => 8 + n
  | _ => 8
/-- The dies that a bridge edge joins, in the order of R37. -/
def edgeEnds (e : Nat) : Nat × Nat :=
  ([(0, 1), (1, 2), (2, 3), (4, 5), (5, 6), (6, 7), (0, 4), (1, 5), (2, 6), (3, 7), (8, 0), (8, 4), (9, 3), (9, 7)] : List (Nat × Nat)).getD e (0, 0)
/-- The directions along a path of edges from a die, edge × 2 + 1 for the one from the higher-numbered die, and the die it ends at; none
where an edge does not leave the die reached. -/
def walkEdges : Nat → List Nat → Option (List Nat × Nat)
  | d, [] => some ([], d)
  | d, e :: l =>
    let x := edgeEnds e
    if d = x.1 ∨ d = x.2 then
      let far := if d = x.1 then x.2 else x.1
      (walkEdges far l).map (fun r => ((e * 2 + b2n (decide (far < d))) :: r.1, r.2))
    else none
/-- The directions that a ROUTES entry crosses. -/
def routeDirs (e : List Byte) : List Nat := ((walkEdges (islandDie (routeSrc e)) (routeEdges e)).map (fun r => r.1)).getD []
/-- The width code of a direction: 0 full, 1 half, 2 failed (PRT_BRIDGE_STATUS). -/
def Mach.dirWidth (m : Mach) (d : Nat) : Nat := bits (m.fld R.PRT_BRIDGE_STATUS_EDGE []) (2 * d + 1) (2 * d)
/-- A width code set. -/
def Mach.setDirWidth (m : Mach) (d w : Nat) : Mach :=
  m.setFld R.PRT_BRIDGE_STATUS_EDGE [] (putBits (m.fld R.PRT_BRIDGE_STATUS_EDGE []) (2 * d + 1) (2 * d) w)

/-- A direction that a route crosses has failed (R42): what is sent over it is discarded. -/
def Mach.routeDead (m : Mach) (e : List Byte) : Bool := (routeDirs e).any (fun d => m.dirWidth d == 2)
/-- A direction that a route crosses has its wires tested: it takes no transfers (R42). -/
def Mach.routeTested (m : Mach) (e : List Byte) : Bool := (routeDirs e).any (fun d => m.core.testing.contains d)
/-- The width code of a direction with failed wires (R38): the 64 spares serve all of it, else one half, the lower before the upper, else
none. -/
def wireWidth (bad : List Nat) : Nat :=
  let low := bad.filter (fun w => decide (w < 1024))
  if bad.length ≤ 64 then 0 else if low.length ≤ 64 ∨ bad.length - low.length ≤ 64 then 1 else 2
/-- The half that a direction at half width runs on, upper or not (R38). -/
def upperHalf (bad : List Nat) : Bool := decide (64 < (bad.filter (fun w => decide (w < 1024))).length)
/-- The failed wires of a direction noted, its width after them (R38). -/
def Mach.wiresFound (m : Mach) (d : Nat) (bad : List Nat) : Mach :=
  { m with core := { m.core with badWires := Tbl.set [] m.core.badWires d bad } }.setDirWidth d (wireWidth bad)

/-- The key of a byte of a partition's Transom space (R392). -/
def Mach.transomKey (m : Mach) (p off : Nat) : Option Nat :=
  match Tbl.get 0 m.tier.slices (p * 4096 + off / 2 ^ 22) with
  | 0 => none
  | s + 1 => if off / 2 ^ 22 < 4096 then some (sliceKey s (off % 2 ^ 22)) else none

/-- Whether a pane of partition p reaches a slice: its own die, or over the memory route of the die pair (R393). -/
def Cfg.memRoute (c : Cfg) (p srcDie dstDie : Nat) : Option Nat :=
  ((c.routes.filter (fun e => leAt e 2 1 == 2 && leAt e 3 1 == p && routeSrc e == isl 3 srcDie && routeDst e == isl 3 dstDie)).map
    (fun e => leAt e 0 2)).min?

/-- A route of the image that crosses a failed direction. -/
def Mach.deadRoute (m : Mach) (r : Nat) : Bool := (m.conf.cfg.route r).any (fun e => m.routeDead e)
/-- The key of a byte of Transom that a pane of partition p refers to (R392, R393); none where the direction of its memory route has failed
(R42). -/
def Mach.paneTransomKey (m : Mach) (p pane off : Nat) : Option Nat :=
  match Tbl.get 0 m.tier.slices (p * 4096 + off / 2 ^ 22) with
  | 0 => none
  | s + 1 =>
    if 4096 ≤ off / 2 ^ 22 then none
    else if s / 256 = dieOf pane then some (sliceKey s (off % 2 ^ 22))
    else match m.conf.cfg.memRoute p (dieOf pane) (s / 256) with
      | none => none
      | some r => if m.deadRoute r then none else some (sliceKey s (off % 2 ^ 22))

/-- The page entry of a partition's HBM page. -/
def Mach.pageOf (m : Mach) (p v : Nat) : Option PageEnt := if v < 2 ^ 24 then Tbl.get none m.tier.pages (p * 2 ^ 24 + v) else none

/-- The key of a byte of a partition's HBM space for a read. -/
def Mach.hbmKey (m : Mach) (p off : Nat) : Option Nat :=
  (m.pageOf p (off / 2 ^ 21)).map (fun e => frameKey e.frame (off % 2 ^ 21))

/-- The key for a write: a page of a shared region takes none (R402, R502). -/
def Mach.hbmWriteKey (m : Mach) (p off : Nat) : Option Nat :=
  match m.pageOf p (off / 2 ^ 21) with
  | some e => if e.region.isSome then none else some (frameKey e.frame (off % 2 ^ 21))
  | none => none

/-- The die of an HBM frame: that of its channel (R25, R399). -/
def frameDie (f : Nat) : Nat := f % 512 / 64
/-- The key of a byte of HBM that a pane refers to: a stack of another die lies over the memory route of the die pair (R26, R40), and none where
a direction of it has failed (R42). Where the image has no route for the pair the access goes on, the model's choice (log entry 84). -/
def Mach.paneHbmKey (m : Mach) (p pane : Nat) (write : Bool) (off : Nat) : Option Nat :=
  let far := (m.pageOf p (off / 2 ^ 21)).any (fun e => frameDie e.frame != dieOf pane &&
    (m.conf.cfg.memRoute p (dieOf pane) (frameDie e.frame)).any (fun r => m.deadRoute r))
  if far then none else if write then m.hbmWriteKey p off else m.hbmKey p off

/-- The far frame of a partition's far page (R401). The provider's pages are the first frames of its port (log
entry 9). -/
def Mach.farFrame (m : Mach) (p v : Nat) : Option Nat :=
  if p = 0 then
    (if v < m.fld R.FAR_PQUOTA_PAGES [0] then
      some ((if m.fld R.FAR_PQUOTA_PORT [0] = 1 then 2 ^ 21 else 0) + v) else none)
  else match Tbl.get 0 m.tier.farPages (p * 2 ^ 24 + v) with
    | 0 => none
    | f + 1 => if v < 2 ^ 24 then some f else none

/-- The key of a byte of a partition's far space. -/
def Mach.farKeyOf (m : Mach) (p off : Nat) : Option Nat :=
  (m.farFrame p (off / 2 ^ 21)).map (fun f => farKey f (off % 2 ^ 21))

/-- The pieces (key, length) of n bytes from an offset, for pages of a size and a translation of offsets; none where a
byte has no translation. -/
def segsOf (page : Nat) (tr : Nat → Option Nat) : Nat → Nat → Nat → Option (List (Nat × Nat))
  | 0, _, _ => some []
  | fuel + 1, off, n =>
    if n = 0 then some []
    else
      let len := min n (page - off % page)
      match tr off, segsOf page tr fuel (off + len) (n - len) with
      | some k, some l => some ((k, len) :: l)
      | _, _ => none

/-- Whether n bytes of a partition's Transom space touch a conduit queue region (R262). -/
def Cfg.inQueue (c : Cfg) (p off n : Nat) : Bool :=
  c.conduit.any (fun e => leAt e 1 1 == p && decide (off < (leAt e 12 4 + leAt e 10 2) * 2 ^ 20 ∧ leAt e 12 4 * 2 ^ 20 < off + n))

/-- The pieces of n bytes at a partition address, read or written by a unit of the given pane (none for a unit that is
no pane). -/
def Mach.segs (m : Mach) (p : Nat) (pane : Option Nat) (write : Bool) (w : Word) (n : Nat) : Option (List (Nat × Nat)) :=
  let off := adOffset w
  match adSpace w with
  | 0 => match pane with
         | some q => if off + n ≤ 2 ^ 22 then some [(paneKey q off, n)] else none
         | none => none
  | 1 => if write ∧ bits w.toNat 47 44 ≠ 0 then none else
         let o := if write then adOffset40 w else off
         let tr := match pane with
                   | some q => m.paneTransomKey p q
                   | none => m.transomKey p
         if pane.isSome && m.conf.cfg.inQueue p o n then none else segsOf (2 ^ 22) tr (n / 2 ^ 22 + 2) o n
  | 2 =>
    let tr := match pane with
              | some q => m.paneHbmKey p q write
              | none => if write then m.hbmWriteKey p else m.hbmKey p
    segsOf (2 ^ 21) tr (n / 2 ^ 21 + 2) off n
  | 3 => segsOf (2 ^ 21) (m.farKeyOf p) (n / 2 ^ 21 + 2) off n
  | 8 => some [(m.partHostKey p off, n)]
  | _ => none

/-- The bytes of pieces, in order. -/
def Mach.readSegs (m : Mach) (l : List (Nat × Nat)) : List Byte := l.flatMap (fun s => m.load s.1 s.2)
/-- Whether any line of the pieces is poisoned. -/
def Mach.segsPoisoned (m : Mach) (l : List (Nat × Nat)) : Bool := l.any (fun s => m.poisonedAt s.1 s.2)
/-- The writes that put a byte string into pieces. -/
def chunksOf : List (Nat × Nat) → List Byte → Bool → List Chunk
  | [], _, _ => []
  | (k, n) :: l, bs, ps => { key := k, bytes := bs.take n, poisoned := ps } :: chunksOf l (bs.drop n) ps
/-- The piece of a list of pieces from byte o, n bytes long. -/
def cutSegs : List (Nat × Nat) → Nat → Nat → List (Nat × Nat)
  | [], _, _ => []
  | (k, len) :: l, o, n =>
    if n = 0 then []
    else if len ≤ o then cutSegs l (o - len) n
    else
      let t := min n (len - o)
      (k + o, t) :: cutSegs l 0 (n - t)
/-- Every line of pieces that receives a byte of these runs of bytes (first, count) is tagged poisoned (R459). -/
def Mach.tagRuns (m : Mach) (dst runs : List (Nat × Nat)) : Mach :=
  runs.foldl (fun m b => (cutSegs dst b.1 b.2).foldl (fun m s => m.poisonLines s.1 s.2) m) m
/-- The runs of bytes that came with EP set, given as 64-byte units. -/
def epRuns (ep : List (Nat × Nat)) : List (Nat × Nat) := ep.map (fun e => (64 * e.1, 64 * e.2))
/-- n bytes of host memory fetched into pieces: the lines that receive a byte of a poisoned line, or of a completion with EP set, are poisoned
(R378, R459). -/
def Mach.fetchIn (m : Mach) (src n : Nat) (dst ep : List (Nat × Nat)) : Mach :=
  let bad := ((linesOf src n).filter (fun l => m.poison.contains l)).map (fun l => (max (64 * l) src - src, min (64 * l + 64) (src + n) - max (64 * l) src))
  let m := (chunksOf dst (m.load src n) false).foldl (fun m c => m.putChunk c) m
  m.tagRuns dst (bad ++ epRuns ep)

/-- Write a byte string at a partition address of a partition, by a unit that is no pane. -/
def Mach.storeAt (m : Mach) (p : Nat) (w : Word) (bs : List Byte) : Mach :=
  match m.segs p none true w bs.length with
  | some l => (chunksOf l bs false).foldl (fun m c => m.putChunk c) m
  | none => m
/-- Read n bytes at a partition address, by a unit that is no pane; zeros where it has no translation. -/
def Mach.loadAt (m : Mach) (p : Nat) (w : Word) (n : Nat) : List Byte :=
  match m.segs p none false w n with
  | some l => m.readSegs l
  | none => List.replicate n 0

/-- A partition address from its parts. -/
def mkAddr (space off : Nat) : Word := BitVec.ofNat 64 (space * 2 ^ 60 + off % 2 ^ 48)

end Sys2Proof.Machine
end

