-- ==== Sys2Proof/Machine/TraceOps.lean ====
section
/-! DEFINITION. The hooks of observation: trace records into a pane's port, triggers, watch records (R521 to R532). -/

namespace Sys2Proof.Machine

/-- The lowest LEVEL that captures a record type (R521, R522). -/
def traceLevel (ty : Nat) : Nat := if ty ≤ 7 then 0 else if ty ≤ 10 then 1 else 2

/-- Whether an owner's trace has a pane selected (R521), for an event of partition p there. -/
def Mach.traceSelected (m : Mach) (p o pane : Nat) : Bool :=
  bitAt (m.fld R.SRV_TPANE_PANES [o, pane / 64]) (pane % 64) && (o == 0 || p == o)

/-- Whether a record passes an owner's LEVEL and filter (R521, R522). -/
def Mach.tracePasses (m : Mach) (p o pane ty stream layer op : Nat) : Bool :=
  m.traceSelected p o pane && decide (traceLevel ty ≤ m.fld R.SRV_TCFG_LEVEL [o]) && bitAt (m.fld R.SRV_TCFG_STREAMS [o]) stream &&
  (layer &&& m.fld R.SRV_TFILT_LAYER_MASK [o]) == (m.fld R.SRV_TFILT_LAYER [o] &&& m.fld R.SRV_TFILT_LAYER_MASK [o]) &&
  (op &&& m.fld R.SRV_TFILT_OP_MASK [o]) == (m.fld R.SRV_TFILT_OP [o] &&& m.fld R.SRV_TFILT_OP_MASK [o])

/-- The trace port of a pane for an owner. -/
def Mach.tracePort (m : Mach) (o pane : Nat) : List (List Byte) := Tbl.get [] m.srv.ports (o * 512 + pane)

/-- Whether a LOSSLESS trace holds back an event of a pane whose record would not fit (R528). -/
def Mach.traceBlocks (m : Mach) (pane ty stream layer op : Nat) : Bool :=
  [m.paneOwner pane, 0].any (fun o =>
    let st := m.fld R.SRV_TSTAT_STATE [o]
    (st == 1 || st == 2) && m.flag R.SRV_TCFG_LOSSLESS [o] && m.tracePasses (m.paneOwner pane) o pane ty stream layer op &&
    decide (64 ≤ (m.tracePort o pane).length))

/-- The 32 bytes of a trace record (R522). -/
def traceBytes (t pane ty info pc layer op code part sealNo step arg : Nat) : List Byte :=
  leBytes 8 t ++ leBytes 2 pane ++ leBytes 1 ty ++ leBytes 1 info ++ leBytes 2 pc ++ leBytes 2 layer ++ leBytes 2 op ++
  leBytes 1 code ++ leBytes 1 part ++ leBytes 4 sealNo ++ leBytes 4 step ++ leBytes 4 arg

/-- One owner's part of a trace event of partition p: into the port, or counted (R526 to R528). -/
def Mach.traceFor (m : Mach) (p o pane ty stream layer op : Nat) (rcd : List Byte) : Mach :=
  let st := m.fld R.SRV_TSTAT_STATE [o]
  if !m.tracePasses p o pane ty stream layer op then m
  else if st = 1 ∨ st = 2 then
    let q := m.tracePort o pane
    if q.length < 64 then { m with srv := { m.srv with ports := Tbl.set [] m.srv.ports (o * 512 + pane) (q ++ [rcd]) } }
    else m.addSat R.SRV_TLOST_DROPPED [o] 1
  else if st = 3 then m.addSat R.SRV_TLOST_LOST_POST [o] 1
  else m

/-- A trace event of partition p on a pane, for the partition and for the provider (R521). -/
def Mach.trace (m : Mach) (p pane ty info pc layer op code sealNo step arg : Nat) : Mach :=
  let rcd := traceBytes m.now pane ty info pc layer op code p sealNo step arg
  let m := if p = 0 then m else m.traceFor p p pane ty (info % 4) layer op rcd
  m.traceFor p 0 pane ty (info % 4) layer op rcd

/-- The trace region of an owner: the key of byte b of it (R523). -/
def Mach.traceKey (m : Mach) (o b : Nat) : Option Nat :=
  let base := m.fld R.SRV_TREGION_BASE [o] * 2 ^ 21 + b
  if o = 0 then some (hostKey 0 0 base) else m.hbmWriteKey o base

/-- A trigger fires at the present time, at most once per ARM (R524, R525); the ring freezes with its oldest stamp. -/
def Mach.traceFire (m : Mach) (o : Nat) : Mach :=
  if m.fld R.SRV_TSTAT_STATE [o] = 1 then
    let slot := if m.flag R.SRV_TSTAT_WRAPPED [o] then m.fld R.SRV_TSTAT_PRE_NEXT [o] else 0
    let oldest := match m.traceKey o (slot * 32) with
                  | some k => m.loadLe k 8
                  | none => 0
    let m := (m.setFld R.SRV_TSTAT_STATE [o] 2).setFld R.SRV_TTRIGT_TRIG_TIME [o] m.now
    { m with srv := { m.srv with ringOldest := Tbl.set 0 m.srv.ringOldest o (oldest + 1) } }
  else m

/-- Trigger sources 2 and 3 on a pane, for the partition p of the event and the provider (R525). -/
def Mach.triggerIf (m : Mach) (p pane : Nat) (c : Nat → Bool) : Mach :=
  let f (m : Mach) (o : Nat) : Mach := if m.traceSelected p o pane && c o then m.traceFire o else m
  let m := f m 0
  if p = 0 then m else f m p

/-- A failure or exception with a code on a pane: trigger source 2. -/
def Mach.triggerException (m : Mach) (p pane code : Nat) : Mach :=
  m.triggerIf p pane (fun o => m.fld R.SRV_TTRIG_SOURCE [o] == 2 &&
    (m.fld R.SRV_TTRIG_CODE [o] == code || m.fld R.SRV_TTRIG_CODE [o] == 0xFF))

/-- A command start on a pane: trigger source 3. -/
def Mach.triggerStart (m : Mach) (p pane layer op : Nat) : Mach :=
  m.triggerIf p pane (fun o => m.fld R.SRV_TTRIG_SOURCE [o] == 3 && m.fld R.SRV_TTRIG_LAYER_ID [o] == layer &&
    m.fld R.SRV_TTRIG_OP_ID [o] == op)

/-- A record of a severity placed in an owner's queue: trigger source 4. -/
def Mach.triggerError (m : Mach) (o sev : Nat) : Mach :=
  if m.fld R.SRV_TTRIG_SOURCE [o] = 4 ∧ m.fld R.SRV_TTRIG_CODE [o] ≤ sev then m.traceFire o else m

/-! ### Tensor watch -/

/-- A row reduction in the order of R171 over FP32 values: lane i mod 128 in ascending i, then the tree. -/
def laneFold (step : Fp → Fp → Fp) (start : Fp) (xs : List Fp) : List Fp :=
  (List.range 128).map (fun l => ((List.range ((xs.length + 127 - l) / 128)).map (fun k => xs.getD (k * 128 + l) .zero)).foldl step start)

/-- One level of the pairwise tree. -/
def pairUp (f : Fp → Fp → Fp) : List Fp → List Fp
  | a :: b :: l => f a b :: pairUp f l
  | l => l

/-- The tree over 128 lanes: 7 levels (R171). -/
def tree128 (f : Fp → Fp → Fp) (l : List Fp) : Fp :=
  ((List.range 7).foldl (fun l _ => pairUp f l) l).headD .zero

/-- Row sum (R171): each lane combines its elements in ascending order. -/
def rowSum (xs : List Fp) : Fp := tree128 Fp.add (laneFold Fp.add .zero xs)
/-- Row sum of squares with fused multiply-adds (R171). -/
def rowSumSq (xs : List Fp) : Fp := tree128 Fp.add (laneFold (fun acc x => x.fma x acc) .zero xs)
/-- Row maximum (R171). -/
def rowMax (xs : List Fp) : Fp := tree128 Fp.max (laneFold Fp.max (.inf true) xs)

/-- DIGEST of a list of FP32 patterns (R531). -/
def watchDigest (codes : List Nat) : Nat :=
  let step (h : List Word) (p : Nat × Nat) : List Word :=
    h.set (p.2 % 128) (mix (h.getD (p.2 % 128) 0 + (BitVec.ofNat 64 (p.1 * 2 ^ 32 + p.2))))
  let h := (codes.zipIdx).foldl step ((List.range 128).map (fun l => BitVec.ofNat 64 l))
  (h.foldl (fun d x => mix (d ^^^ x)) (mix (BitVec.ofNat 64 codes.length))).toNat

/-- The statistics part of a watch record, bytes 24 to 63 (R530, R532). -/
def watchStats (codes : List Nat) (sat : Nat) : List Byte :=
  let xs := codes.map f32
  let fin := xs.filter (fun x => x.finite)
  let n := Fp.ofNat fin.length
  let mean := if fin.isEmpty then .zero else (rowSum fin).div n
  let rms := if fin.isEmpty then .zero else ((rowSumSq fin).div n).sqrt
  let mn := fin.foldl Fp.min (.inf false)
  let mx := fin.foldl Fp.max (.inf true)
  leBytes 4 codes.length ++ leBytes 4 (toF32 mn) ++ leBytes 4 (toF32 mx) ++ leBytes 4 (toF32 mean) ++ leBytes 4 (toF32 rms) ++
  leBytes 4 (xs.filter (fun x => x == .nan)).length ++
  leBytes 4 (xs.filter (fun x => match x with
                                 | .inf _ => true
                                 | _ => false)).length ++
  leBytes 4 sat ++ leBytes 8 (watchDigest codes)

/-- The watch slots of an owner that watch a command (R530). -/
def Mach.watchSlots (m : Mach) (p kind layer op : Nat) : List Nat :=
  (List.range 16).filter (fun w => m.flag R.SRV_WSLOT_VALID [p, w] && bitAt (m.fld R.SRV_WSLOT_KINDS [p, w]) kind &&
    m.fld R.SRV_WSLOT_LAYER_ID [p, w] == layer && m.fld R.SRV_WSLOT_OP_ID [p, w] == op)

/-- The key of byte b of a buffer that SPACE and BASE of a window register name (R518, R532). -/
def Mach.bufKey (m : Mach) (p space base b : Nat) : Option Nat :=
  if p = 0 then some (hostKey 0 0 (base * 64 + b))
  else match space with
    | 1 => m.transomKey p (base * 64 + b)
    | 2 => m.hbmWriteKey p (base * 64 + b)
    | _ => none

/-- One watch record into the ring, or LOST (R532). -/
def Mach.watchWrite (m : Mach) (p : Nat) (rcd : List Byte) : Mach :=
  let head := m.fld R.SRV_WHEAD_HEAD [p]
  let n := m.fld R.SRV_WCFG_ENTRIES [p]
  if !m.flag R.SRV_WCFG_ENABLE [p] || n == 0 then m
  else if n ≤ (head + 2 ^ 64 - m.fld R.SRV_WTAIL_TAIL [p]) % 2 ^ 64 then m.addSat R.SRV_WCFG_LOST [p] 1
  else
    let m := match m.bufKey p (m.fld R.SRV_WRING_SPACE [p]) (m.fld R.SRV_WRING_BASE [p]) (head % n * 64) with
             | some k => m.store k rcd
             | none => m
    m.setFld R.SRV_WHEAD_HEAD [p] (head + 1)

/-- The watch records of a command that completes or fails in the slots that watch it, formed before it signals (R532). -/
def Mach.watch (m : Mach) (slots : List Nat) (p pane kind step layer op sealNo : Nat) (poisoned failed : Bool) (codes : List Nat) (sat : Nat) : Mach :=
  slots.foldl (fun m w =>
    m.watchWrite p (leBytes 8 m.now ++ leBytes 4 step ++ leBytes 2 layer ++ leBytes 2 op ++ leBytes 2 pane ++ leBytes 1 w ++
      leBytes 1 (b2n poisoned + 2 * b2n failed + 4 * kind) ++ leBytes 4 sealNo ++
      (if failed then List.replicate 40 0 else watchStats codes sat))) m

end Sys2Proof.Machine
end

