-- ==== Sys2Proof/Machine/ErrOps.lean ====
section
/-! DEFINITION. Error records, their queues, rate limits and handlers (R560 to R570). -/

namespace Sys2Proof.Machine

/-- Severities (R560). -/
def sevCorrected : Nat := 1
def sevDeferred : Nat := 2
def sevContained : Nat := 3
def sevFatal : Nat := 4
/-- Error codes (R562, R42, R630, R635, R639). -/
def ecException : Nat := 0x01
def ecBridge : Nat := 0x02
def ecHbmCorr : Nat := 0x03
def ecHbmPin : Nat := 0x04
def ecLink : Nat := 0x05
def ecViolation : Nat := 0x06
def ecHost : Nat := 0x07
def ecConduitHalt : Nat := 0x08
def ecPoison : Nat := 0x10
def ecPoisonUsed : Nat := 0x11
def ecPaneRepaired : Nat := 0x12
def ecShared : Nat := 0x13
def ecRegionFailed : Nat := 0x14
def ecCheckpoint : Nat := 0x15
def ecRollback : Nat := 0x16
def ecPair : Nat := 0x17
def ecPaneFailed : Nat := 0x20
def ecChannelFailed : Nat := 0x21
def ecStackShutdown : Nat := 0x22
def ecFarDown : Nat := 0x23
def ecWatchdog : Nat := 0x24
def ecUpdateStuck : Nat := 0x25
def ecBridgeFailed : Nat := 0x26
def ecPorter : Nat := 0x30
def ecModuleState : Nat := 0x31
def ecPower : Nat := 0x32

/-- A record with the fields most records share: no step, no layer, no address. -/
def ErrRec.mk0 (sev part code source info0 info1 : Nat) : ErrRec :=
  { sev := sev, part := part, code := code, source := source, step := 0xFFFFFFFF, layer := 0, opId := 0, addr := 0, paddr := 0,
    info0 := info0, info1 := info1, flags := 0 }

/-- The 64 bytes of a record in one queue (R561). -/
def Mach.recBytes (m : Mach) (r : ErrRec) (seqNo count addr info0 info1 : Nat) : List Byte :=
  leBytes 8 m.now ++ leBytes 4 seqNo ++ leBytes 1 r.sev ++ leBytes 1 r.part ++ leBytes 2 r.code ++ leBytes 2 r.source ++
  leBytes 2 (m.fld R.MRD_ID_MODULE []) ++ leBytes 4 r.step ++ leBytes 2 r.layer ++ leBytes 2 r.opId ++ leBytes 4 count ++ leBytes 8 addr ++
  leBytes 8 info0 ++ leBytes 8 info1 ++ leBytes 2 r.flags ++ leBytes 6 0

/-- Write the eight words of a record. -/
def Mach.putWords (m : Mach) (f : Fld) (ix : List Nat) (bs : List Byte) : Mach :=
  ((words64 8 bs).zipIdx).foldl (fun m p => m.setFld f (ix ++ [p.2]) p.1.toNat) m

/-- Place 64 bytes in the queue of an owner (R564): 0 the provider log of 1,024, p a partition queue of 16. -/
def Mach.placeBytes (m : Mach) (o sev : Nat) (bs : List Byte) : Mach :=
  let n := if o = 0 then 1024 else 16
  let fHead := if o = 0 then R.ERR_LSTAT_HEAD else R.ERR_QSTAT_HEAD
  let fTail := if o = 0 then R.ERR_LTAIL_TAIL else R.ERR_QTAIL_TAIL
  let ix := if o = 0 then [] else [o]
  let head := m.fld fHead ix
  let full := decide ((head + 2 ^ 32 - m.fld fTail ix) % 2 ^ 32 = n)
  let slot := if full then (head + 2 ^ 32 - 1) % n else head % n
  let m := if o = 0 then m.putWords R.ERR_LOG_WORD [slot] bs else m.putWords R.ERR_QREC_WORD [o, slot] bs
  let m := if full then
             ((m.raise (if o = 0 then R.ERR_LSTAT_OVERFLOW else R.ERR_QSTAT_OVERFLOW) ix 1).addSat
               (if o = 0 then R.ERR_LSTAT_LOST else R.ERR_QSTAT_LOST) ix 1)
           else m.setFld fHead ix (head + 1)
  let fSev := if o = 0 then R.ERR_LSTAT_MAX_SEV else R.ERR_QSTAT_MAX_SEV
  m.setFld fSev ix (max (m.fld fSev ix) sev)

/-- One record into the queue of one owner, with its SEQ, its vector and its trigger (R561, R565, R525). -/
def Mach.placeFor (m : Mach) (o : Nat) (r : ErrRec) (count addr info0 info1 : Nat) : Mach :=
  let n := Tbl.get 0 m.errs.seqs o
  let m := m.placeBytes o r.sev (m.recBytes r n count addr info0 info1)
  let m := { m with errs := { m.errs with seqs := Tbl.set 0 m.errs.seqs o (n + 1) } }
  let m := m.triggerError o r.sev
  let m := if r.sev = 1 then m.countFor o islPart 4 1 else if r.sev = 2 then m.countFor o islPart 5 1 else m
  if o = 0 then m.pfVector 0
  else
    let depth := (m.fld R.ERR_QSTAT_HEAD [o] + 2 ^ 32 - m.fld R.ERR_QTAIL_TAIL [o]) % 2 ^ 32
    (m.peakFor o islPart 6 depth).vfVector o 5

/-- Place a record (R563): in the partition's queue in its own terms, and in the provider log. A FATAL record goes to
every partition's queue without ADDR and INFO, and asserts ALERT_N (R565). -/
def Mach.placeCount (m : Mach) (r : ErrRec) (count : Nat) : Mach :=
  if r.sev = 4 then
    let m := m.placeFor 0 r count r.paddr r.info0 r.info1
    let m := (List.range 32).foldl (fun m i => m.placeFor (i + 1) r count 0 0 0) m
    ({ m with alertN := false }).emit (.pin 0 false)
  else
    let m := if r.part = 0 then m else m.placeFor r.part r count r.addr r.info0 r.info1
    m.placeFor 0 r count r.paddr r.info0 r.info1

/-- Place a record with COUNT 1. -/
def Mach.place (m : Mach) (r : ErrRec) : Mach := m.placeCount r 1

/-- Place a record at most once per period and key; events in between merge into COUNT of the next (R373, R474, R561). -/
def Mach.placeLimited (m : Mach) (key period : Nat) (r : ErrRec) : Mach :=
  match m.errs.rates.find? (fun x => x.key == key) with
  | some x =>
    if m.now < x.last + period then
      { m with errs := { m.errs with rates := m.errs.rates.map (fun y => if y.key = key then { y with merged := y.merged + 1 } else y) } }
    else
      let m := m.placeCount r (1 + x.merged)
      { m with errs := { m.errs with rates := m.errs.rates.map (fun y => if y.key = key then { y with last := m.now, merged := 0 } else y) } }
  | none =>
    let m := m.placeCount r 1
    { m with errs := { m.errs with rates := m.errs.rates ++ [{ key := key, last := m.now, merged := 0 }] } }

/-- One second in ticks. -/
def second : Nat := 10 ^ 9

/-- The handlers of an owner. -/
def Mach.handlersOf (m : Mach) (o : Nat) : Handlers := Tbl.get Handlers.init m.errs.handlers o
/-- The state with an owner's handlers replaced, and HANDLER showing the running one (R566). -/
def Mach.setHandlers (m : Mach) (o : Nat) (h : Handlers) : Mach :=
  let m := { m with errs := { m.errs with handlers := Tbl.set Handlers.init m.errs.handlers o h } }
  let sev := (h.running.head?.map (fun x => x.1)).getD 0
  if o = 0 then m.setFld R.ERR_LSTAT_HANDLER [] sev else m.setFld R.ERR_QSTAT_HANDLER [o] sev

/-- A handler with actions to do starts, pre-empts a lower one, or queues behind one as severe (R566, R567). -/
def Mach.startHandler (m : Mach) (o sev code : Nat) : Mach :=
  let h := m.handlersOf o
  match h.running with
  | [] => m.setHandlers o { h with running := [(sev, code)] }
  | (s, c) :: l =>
    if s < sev then m.setHandlers o { h with running := (sev, code) :: (s, c) :: l }
    else m.setHandlers o { h with queued := h.queued ++ [(sev, code)] }

/-- A handler of a code ends, the running one if it has the code: the suspended one resumes, or the next queued one runs (R567, R568). -/
def Mach.endHandler (m : Mach) (o code : Nat) : Mach :=
  let h := m.handlersOf o
  match h.running with
  | [] => m
  | (s, c) :: l =>
    if c = code then
      match l, h.queued with
      | [], q :: qs => m.setHandlers o { running := [q], queued := qs }
      | l, qs => m.setHandlers o { running := l, queued := qs }
    else if l.any (fun x => x.2 == code) then m.setHandlers o { h with running := (s, c) :: l.eraseP (fun x => x.2 == code) }
    else m.setHandlers o { h with queued := h.queued.eraseP (fun x => x.2 == code) }

/-- Every handler of an owner abandoned (R568). -/
def Mach.dropHandlers (m : Mach) (o : Nat) : Mach := m.setHandlers o Handlers.init

end Sys2Proof.Machine
end

