-- ==== Sys2Proof/Machine/HatchOps.lean ====
section
/-! DEFINITION. Fields of command descriptors (R156), completion rings and their coalescing (R470 to R473), the registers a hatch keeps (R463). -/

namespace Sys2Proof.Machine

/-- LAYER_ID of a descriptor. -/
def Desc.layer (d : Desc) : Nat := bits d.w0.toNat 63 48
/-- OP_ID. -/
def Desc.opId (d : Desc) : Nat := bits d.w0.toNat 47 32
/-- STEP. -/
def Desc.step (d : Desc) : Nat := bits d.w0.toNat 31 0
/-- KIND. -/
def Desc.kind (d : Desc) : Nat := bits d.w1.toNat 63 60
/-- STREAM. -/
def Desc.stream (d : Desc) : Nat := bits d.w1.toNat 59 58
/-- WAIT token, 0xFF for none. -/
def Desc.wait (d : Desc) : Nat := bits d.w1.toNat 57 50
/-- SIGNAL token, 0xFF for none. -/
def Desc.signal (d : Desc) : Nat := bits d.w1.toNat 49 42
/-- REF_A. -/
def Desc.refA (d : Desc) : Nat := bits d.w2.toNat 31 0
/-- REF_B. -/
def Desc.refB (d : Desc) : Nat := bits d.w2.toNat 63 32
/-- REF_C. -/
def Desc.refC (d : Desc) : Nat := bits d.w3.toNat 31 0
/-- REF_D. -/
def Desc.refD (d : Desc) : Nat := bits d.w3.toNat 63 32
/-- SEAL. -/
def Desc.sealNo (d : Desc) : Nat := bits d.w7.toNat 63 32
/-- Whether the RSV bits of words 1 and 7 are 0 and the STREAM code is not reserved (R156). -/
def Desc.wellFormed (d : Desc) : Bool :=
  bits d.w1.toNat 41 0 == 0 && bits d.w7.toNat 31 0 == 0 && d.stream != 3 && decide (d.kind ≤ 3)
/-- A token field names a token or none. -/
def tokenOk (t : Nat) : Bool := decide (t ≤ 63) || t == 0xFF

/-- The descriptor in 64 bytes. -/
def Desc.ofBytes (bs : List Byte) : Desc :=
  let w (i : Nat) : Word := BitVec.ofNat 64 (leAt bs (8 * i) 8)
  { w0 := w 0, w1 := w 1, w2 := w 2, w3 := w 3, w4 := w 4, w5 := w 5, w6 := w 6, w7 := w 7 }

/-- The descriptor in the slot words of a hatch (word n at slot × 8 + n). -/
def Desc.ofSlots (t : Tbl Word) (k : Nat) : Desc :=
  let w (i : Nat) : Word := Tbl.get 0 t (k * 8 + i)
  { w0 := w 0, w1 := w 1, w2 := w 2, w3 := w 3, w4 := w 4, w5 := w 5, w6 := w 6, w7 := w 7 }

/-- NEXT past every sealed number that follows without a gap. -/
def sealNext (l : List (Nat × Nat)) : Nat → Nat → Nat
  | 0, n => n
  | k + 1, n => if l.any (fun e => e.2 == n) then sealNext l k ((n + 1) % 2 ^ 32) else n
/-- Sequence number a lies at or after b modulo 2^32 over a half range (R463). -/
def seqGe (a b : Nat) : Bool := decide ((a + 2 ^ 32 - b % 2 ^ 32) % 2 ^ 32 < 2 ^ 31)

/-- CREDIT and OCCUPIED follow NEXT, DISP and the sealed slots (R463); CREDIT reads 0 while disabled. -/
def Mach.hatchSync (m : Mach) (p h : Nat) : Mach :=
  let x := m.hatch p h
  let next := m.fld R.HTC_CREDIT_NEXT [p, h]
  let credit := if m.flag R.HTC_TARGET_ENABLE [p, h] then (x.disp + 1024 + 2 ^ 32 - next) % 2 ^ 32 else 0
  (m.setFld R.HTC_CREDIT_CREDIT [p, h] credit).setFld R.HTC_CREDIT_OCCUPIED [p, h] x.isSealed.length

/-- A partition dispatches: ACTIVE, or DRAINING with work sealed before DRAIN; not held; in its slice where it is time-shared. -/
def Mach.hatchOpen (m : Mach) (p h : Nat) : Bool :=
  let mark := Tbl.get 0 m.part.drainAt (p * 4 + h)
  let g := m.conf.cfg.groupOf p
  m.running && !m.held p &&
  (m.pstate p == psActive || (m.pstate p == psDraining && mark != 0 && (m.hatch p h).disp + 1 != mark)) &&
  (!m.conf.cfg.shared p || (m.fld R.PTN_GROUP_CURRENT [g] == p && Tbl.get 0 m.part.switching g == 0))
/-- The time, in thousandths of a cycle, for which a hatch that may dispatch has waited for a queue of a pane (R466); the longest of them, 0 for
none. -/
def Mach.hatchWaited (m : Mach) (pane queue : Nat) : Nat :=
  (m.host.hatches.map (fun (e : Nat × Hatch) => match e.2.waitOn with
    | some (q, k, t) => if q = pane ∧ k = queue ∧ m.hatchOpen (e.1 / 4) (e.1 % 4) = true then (m.now - t) * m.fld R.PNE_CLOCK_ACTUAL_MHZ [pane] else 0
    | none => 0)).foldl max 0
/-- The message of a completion ring, when its count or its time is reached (R473). -/
def Mach.ringMessage (m : Mach) (p h : Nat) : Mach :=
  let x := m.hatch p h
  let count := max 1 (m.fld R.HTC_CRCFG_COALESCE_COUNT [p, h])
  let us := m.fld R.HTC_CRCFG_COALESCE_US [p, h]
  if x.unannounced = 0 then m
  else if count ≤ x.unannounced ∨ x.since + us * 1000 ≤ m.now then
    (m.setHatch p h { x with unannounced := 0, since := 0 }).vfVector p h
  else m

/-- Whether the completion ring of a hatch takes one more record: it has room and its port is up (R470, R476). -/
def Mach.ringRoom (m : Mach) (p h : Nat) : Bool :=
  let used := (m.fld R.HTC_CHEAD_HEAD [p, h] + 2 ^ 64 - m.fld R.HTC_CTAIL_TAIL [p, h]) % 2 ^ 64
  m.portUp p && decide (used + 32 ≤ m.fld R.HTC_CRCFG_PAGES [p, h] * 4096)

/-- One record written at HEAD of a completion ring (R470). -/
def Mach.ringWrite (m : Mach) (p h : Nat) (bs : List Byte) : Mach :=
  let head := m.fld R.HTC_CHEAD_HEAD [p, h]
  let size := m.fld R.HTC_CRCFG_PAGES [p, h] * 4096
  let m := m.store (m.partHostKey p (m.fld R.HTC_CRING_ADDR [p, h] * 4096 + head % size)) bs
  let m := m.setFld R.HTC_CHEAD_HEAD [p, h] (head + 32)
  let m := (m.meter p mHatch 1).meter p mHost 32
  let x := m.hatch p h
  let m := m.setHatch p h { x with unannounced := x.unannounced + 1, since := if x.unannounced = 0 then m.now else x.since }
  m.ringMessage p h

/-- Held records move to the ring while it has room (R471). -/
def Mach.ringDrain : Nat → Mach → Nat → Nat → Mach
  | 0, m, _, _ => m
  | n + 1, m, p, h =>
    match (m.hatch p h).holding with
    | [] => m
    | r :: rs =>
      if m.ringRoom p h then
        Mach.ringDrain n ((m.setHatch p h { m.hatch p h with holding := rs }).ringWrite p h r) p h
      else m

/-- A record for a hatch: to the ring in order, or to the holding queue while the ring is full (R470, R471). -/
def Mach.ringRecord (m : Mach) (p h : Nat) (bs : List Byte) : Mach :=
  let x := m.hatch p h
  if x.holding.isEmpty && m.ringRoom p h then m.ringWrite p h bs
  else m.setHatch p h { x with holding := x.holding ++ [bs] }
/-- A record of the present tick takes its place among those of the tick: the lower SEAL first (R470). -/
def freshInsert (bs : List Byte) : List (List Byte) → List (List Byte)
  | [] => [bs]
  | r :: l => if leAt bs 0 4 < leAt r 0 4 then bs :: r :: l else r :: freshInsert bs l
/-- The records of the tick that ends go out in their order (R470): they are visible a tick after their commands ended, within its 1 µs. -/
def Mach.ringTick (m : Mach) : Mach :=
  m.host.hatches.foldl (fun m e =>
    if e.2.fresh.isEmpty then m
    else
      let p := e.1 / 4
      let h := e.1 % 4
      e.2.fresh.foldl (fun m r => m.ringRecord p h r) (m.setHatch p h { m.hatch p h with fresh := [] })) m

/-- The 32-byte completion record of a descriptor (R470). -/
def completionBytes (d : Desc) (h code flags now pane : Nat) : List Byte :=
  leBytes 4 d.sealNo ++ leBytes 1 h ++ leBytes 1 code ++ leBytes 2 flags ++ leBytes 4 d.step ++ leBytes 2 d.layer ++ leBytes 2 d.opId ++
  leBytes 8 now ++ leBytes 1 d.kind ++ leBytes 1 d.stream ++ leBytes 2 pane ++ leBytes 4 0

/-- The completion record of a hatch command, among those of the tick (R470), unless an FLR came between or the partition is TORN_DOWN (R468, R470). -/
def Mach.hatchComplete (m : Mach) (p h epoch : Nat) (d : Desc) (code pane : Nat) (poisoned : Bool) : Mach :=
  if (m.hatch p h).epoch = epoch ∧ m.pstate p ≠ psTornDown then
    let x := m.hatch p h
    m.setHatch p h { x with fresh := freshInsert (completionBytes d h code (b2n poisoned) m.now pane) x.fresh }
  else m

/-- Every sealed, undispatched descriptor of a hatch ends; with records where asked (R468, R469, R475). -/
def Mach.hatchFlush (m : Mach) (p h : Nat) (records : Bool) : Mach :=
  let x := m.hatch p h
  let next := m.fld R.HTC_CREDIT_NEXT [p, h]
  let order := (List.range x.isSealed.length).map (fun i => (x.disp + i) % 2 ^ 32)
  let held := (x.isSealed.map (fun e => e.2)).filter (fun n => !order.contains n)
  let ends := (order ++ held).filter (fun n => x.isSealed.any (fun e => e.2 == n))
  let pane := if m.flag R.HTC_TARGET_ENABLE [p, h] then m.fld R.HTC_TARGET_PANE [p, h] else 0xFFFF
  let m := if records then
             ends.foldl (fun m n =>
               let d := Desc.ofSlots x.slots (n % 1024)
               m.hatchComplete p h x.epoch d 0x30 (if d.kind = 3 then 0xFFFF else pane) false) m
           else m
  let y := m.hatch p h
  (m.setHatch p h { y with isSealed := [], disp := next, waitOn := none }).hatchSync p h

end Sys2Proof.Machine
end

