-- ==== Sys2Proof/Machine/CmdOps.lean ====
section
/-! DEFINITION. Tokens, failure reports, the start and the end of a command of a pane queue (R160 to R167), and abandoned split-K tiles (R142). -/

namespace Sys2Proof.Machine

/-- Failure codes (R166, R459, R287). -/
def cOk : Nat := 0x00
def cDescInvalid : Nat := 0x01
def cAddrRange : Nat := 0x02
def cDepFailed : Nat := 0x04
def cTokenOverflow : Nat := 0x05
def cStreamBusy : Nat := 0x06
def cCvtInvalid : Nat := 0x10
def cMxInvalid : Nat := 0x18
def cMxTooLong : Nat := 0x19
def cMxSplitAbort : Nat := 0x1A
def cVxInvalid : Nat := 0x20
def cVxTooLong : Nat := 0x21
def cAborted : Nat := 0x30
def cIllegal : Nat := 0x40
def cLoadRange : Nat := 0x41
def cStoreRange : Nat := 0x42
def cMisaligned : Nat := 0x43
def cTrap : Nat := 0x45
def cStepClosed : Nat := 0x50
def cHostError : Nat := 0x60

/-- A token of a pane (R164). -/
def Pane.token (p : Pane) (t : Nat) : Tok := Tbl.get ⟨0, false⟩ p.tok t
/-- A pane with one token replaced. -/
def Pane.setToken (p : Pane) (t : Nat) (k : Tok) : Pane := { p with tok := Tbl.set ⟨0, false⟩ p.tok t k }
/-- A token counted up; its count stays at 255 (R164). -/
def Pane.signal (p : Pane) (t : Nat) : Pane :=
  let k := p.token t
  p.setToken t { k with count := min 255 (k.count + 1) }
/-- A token poisoned (R165). -/
def Pane.poisonTok (p : Pane) (t : Nat) : Pane := p.setToken t { p.token t with poison := true }

/-- The stream numbers of a pane's registers. -/
def Pane.stream (p : Pane) (n : Nat) : Stream := if n = 0 then p.f else if n = 1 then p.b else p.u
/-- A pane with one stream's registers replaced. -/
def Pane.setStream (p : Pane) (n : Nat) (x : Stream) : Pane :=
  if n = 0 then { p with f := x } else if n = 1 then { p with b := x } else { p with u := x }

/-- The queue peaks of a pane for one owner (R519): matrix in bits 20 to 16, vector in 13 to 8, copy in 4 to 0. -/
def Mach.queuePeak (m : Mach) (o pane a b c : Nat) : Mach :=
  let key := (o * 65536 + pane) * 8 + 4
  let v := Tbl.get 0 m.srv.counts key
  let w := max a (bits v 20 16) * 2 ^ 16 + max b (bits v 13 8) * 2 ^ 8 + max c (bits v 4 0)
  { m with srv := { m.srv with counts := Tbl.set 0 m.srv.counts key w } }
/-- PNE_QUEUE follows the queues (R162), with their peaks (R519). -/
def Mach.queueSync (m : Mach) (pane : Nat) : Mach :=
  let p := m.pane pane
  let o := m.paneOwner pane
  let peak (m : Mach) (o : Nat) : Mach := m.queuePeak o pane p.mq.length p.vq.length p.cq.length
  let m := if o = 0 then peak m 0 else peak (peak m 0) o
  m.setFlds [pane] [(R.PNE_QUEUE_MATRIX, p.mq.length), (R.PNE_QUEUE_VECTOR, p.vq.length), (R.PNE_QUEUE_COPY, p.cq.length)]

/-- PNE_EXC after a failure that stream n records (R167). -/
def Mach.excWrite (m : Mach) (pane n code pc info : Nat) : Mach :=
  let m := if bitAt (m.fld R.PNE_EXC_VALID [pane]) n then m.raise R.PNE_EXC_OVERRUN [pane] 1 else m
  (m.raise R.PNE_EXC_VALID [pane] (2 ^ n)).setFlds [pane] [(R.PNE_EXC_STREAM, n), (R.PNE_EXC_CODE, code), (R.PNE_EXC_PC, pc), (R.PNE_EXC_INFO, info)]

/-- Whether a pane may run work of a partition at present, holds apart: the module runs, the partition is ACTIVE or DRAINING, the pane is its
own now, and neither Shutter nor failure holds the island (R488, R489, R495, R544, R572). -/
def Mach.mayRun (m : Mach) (p pane : Nat) : Bool :=
  m.running && (m.pstate p == psActive || m.pstate p == psDraining) && m.paneOwner pane == p &&
  !m.core.failed.contains pane && !m.core.stopped.contains pane &&
  !(m.conf.cfg.shared p && (Tbl.get 0 m.part.switching (m.conf.cfg.groupOf p)) != 0)
/-- Whether an engine of a pane may start a command of a partition at present: no hold is in force on it (R226, R573, R580). -/
def Mach.mayStart (m : Mach) (p pane : Nat) : Bool := m.mayRun p pane && !m.held p
/-- Whether a pane may run an update pass of a partition: the hold of a repair stops commands only, so that the chunks of a failed pane pass on
(R324, R573). -/
def Mach.mayPass (m : Mach) (p pane : Nat) : Bool := m.mayRun p pane && !m.part.holds.any (fun h => h.1 == p && h.2 != hdRepair)

/-- A command's queue and engine number: KIND (R156). -/
def QCmd.kind (q : QCmd) : Nat := q.desc.kind
/-- An entry of a vector queue that stands for pass 2 of a chunk of an update entry (R302): no KIND of R156. -/
def QCmd.isPass (q : QCmd) : Bool := q.kind == 15
/-- The queue entry of pass 2 of chunk c of entry i in a step: of stream U. -/
def passCmd (p step layer i c : Nat) : QCmd :=
  { desc := { w0 := BitVec.ofNat 64 (layer * 2 ^ 48 + step), w1 := BitVec.ofNat 64 (15 * 2 ^ 60 + 2 * 2 ^ 58 + 0xFF * 2 ^ 50 + 0xFF * 2 ^ 42), w2 := 0, w3 := 0, w4 := 0,
              w5 := BitVec.ofNat 64 i, w6 := BitVec.ofNat 64 c, w7 := 0 },
    src := .core 2 0, part := p, a := none, b := none, c := none, d := none, progress := 0, poisoned := false, resumed := false }
/-- The INFO byte of a command's trace record (R522). -/
def QCmd.traceInfo (q : QCmd) (poisoned : Bool) : Nat :=
  q.desc.stream % 4 + 4 * (q.kind % 4) + 16 * b2n poisoned +
  32 * b2n (match q.src with
            | .hatch _ _ _ => true
            | .core _ _ => false)
/-- The PC of a command's trace record: that of its CMD. -/
def QCmd.pc (q : QCmd) : Nat :=
  match q.src with
  | .core _ pc => pc
  | .hatch _ _ _ => 0

/-- A trace record of a command (R522). -/
def Mach.traceCmd (m : Mach) (pane ty : Nat) (q : QCmd) (code : Nat) (poisoned : Bool) : Mach :=
  m.trace q.part pane ty (q.traceInfo poisoned) q.pc q.desc.layer q.desc.opId code q.desc.sealNo q.desc.step 0

/-- The report of a failure or completion to its issuer: the completion record of a hatch, PNE_EXC for a core (R167). -/
def Mach.report (m : Mach) (pane : Nat) (q : QCmd) (code : Nat) (poisoned : Bool) : Mach :=
  match q.src with
  | .hatch p h ep => m.hatchComplete p h ep q.desc code pane poisoned
  | .core n pc => if code = 0 then m else m.excWrite pane n code pc (q.desc.sealNo % 2 ^ 24)

/-- A command of a pane sent a transfer: partition, pane, queue, issuer and SEAL, which is unique per stream or hatch of a partition (R158). -/
def Xfer.sentBy (x : Xfer) (pane : Nat) (q : QCmd) : Bool :=
  x.part == q.part && x.pane == pane && x.queue == q.kind && x.src == q.src && x.sealNo == q.desc.sealNo
/-- Transfers taken out of flight (R36, R165). -/
def Mach.dropXfers (m : Mach) (f : Xfer → Bool) : Mach :=
  let left := (m.core.xfers.map (fun e => (e.1, e.2.filter (fun x => !f x)))).filter (fun e => !e.2.isEmpty)
  { m with core := { m.core with xfers := left } }
/-- Whether a command still has a transfer in flight. -/
def Mach.hasXfers (m : Mach) (pane : Nat) (q : QCmd) : Bool := m.core.xfers.any (fun e => e.2.any (fun x => x.sentBy pane q))

/-- The contexts of a partition's panes: in the pane now, or saved (R493). -/
def Mach.context (m : Mach) (p q : Nat) : Pane :=
  if m.paneOwner q = p then m.pane q else (Tbl.get none m.part.saved (p * 512 + q)).getD Pane.init
/-- A context replaced. -/
def Mach.setContext (m : Mach) (p q : Nat) (x : Pane) : Mach :=
  if m.paneOwner q = p then m.setPane q x
  else if (Tbl.get none m.part.saved (p * 512 + q)).isSome then { m with part := { m.part with saved := Tbl.set none m.part.saved (p * 512 + q) (some x) } }
  else m

/-- A command has begun to write: a transfer of it has landed, or it has moved bytes before a stop (R36, R184). -/
def Run.begun (r : Run) : Bool := r.landed || decide (0 < r.cmd.progress)
/-- Commands that signal a token and have begun to write: the token's count keeps room for them, so that none of them can still fail under
R164 (log entry 75). -/
def Pane.owed (p : Pane) (t : Nat) : Nat :=
  ((p.mdrain.toList ++ p.mrun.toList ++ p.vrun.toList ++ p.cruns).filter (fun r => r.begun && r.cmd.desc.signal == t)).length +
  (p.cq.filter (fun q => decide (0 < q.progress) && q.desc.signal == t)).length
/-- A SIGNAL token has no room for one more command (R164). -/
def Pane.tokenFull (p : Pane) (t : Nat) : Bool := decide (t ≤ 63 ∧ 255 ≤ (p.token t).count + p.owed t)

/-- Work of an open step has ended (R288). -/
def Mach.stepUsed (m : Mach) (p step : Nat) : Mach :=
  let w := Tbl.get Train.init m.trains p
  if w.steps.any (fun t => t.step == step && !t.used) then
    { m with trains := Tbl.set Train.init m.trains p { w with steps := w.steps.map (fun t => if t.step = step then { t with used := true } else t) } }
  else m
/-- The Gazetteer replaced. -/
def Mach.withGzt (m : Mach) (g : GztSt) : Mach := { m with gzt := g }
/-- A pipeline. -/
def Mach.pipe (m : Mach) (n : Nat) : Pipe := Tbl.get Pipe.init m.gzt.pipes n
/-- A pipeline replaced. -/
def Mach.setPipe (m : Mach) (n : Nat) (x : Pipe) : Mach := m.withGzt { m.gzt with pipes := Tbl.set Pipe.init m.gzt.pipes n x }
/-- The owner of a pipeline. -/
def Mach.pipePart (m : Mach) (n : Nat) : Nat := m.fld R.GZT_PIPECTL_PARTITION [n]
/-- The stages and the panes of a pipeline. -/
def Mach.plStages (m : Mach) (n : Nat) : List Nat :=
  (List.range (m.fld R.GZT_PIPECTL_STAGES [n])).map (fun i => m.fld R.GZT_PIPECTL_FIRST_STAGE [n] + i)
def Mach.plPanes (m : Mach) (n : Nat) : List Nat := (m.plStages n).flatMap (fun st => m.conf.cfg.stagePanes st)
/-- A command of an open step of a serving pipeline read poison: the rows of the step that send no logits are affected; the others carry the
poison to their sampler (R343, R367, log entry 46). -/
def Mach.servePoison (m : Mach) (p pane step : Nat) : Mach :=
  (List.range 32).foldl (fun m n =>
    let x := m.pipe n
    if m.pipePart n = p ∧ x.opened.any (fun s => s.n % 2 ^ 32 == step) ∧ (m.plPanes n).contains pane then
      m.setPipe n { x with opened := x.opened.map (fun s => if s.n % 2 ^ 32 = step then
        { s with rows := s.rows.map (fun r => if r.wants then r else { r with poisoned := true }) } else s) }
    else m) m
/-- The slots that watch a command: those of its start, or of its end where it never started (R532, log entry 99). -/
def Mach.watchers (m : Mach) (q : QCmd) : List Nat := q.watched.getD (m.watchSlots q.part q.kind q.desc.layer q.desc.opId)
/-- A command as it starts: a change of a slot after that does not touch it (R532). -/
def Mach.watchFrom (m : Mach) (q : QCmd) : QCmd := { q with watched := some (m.watchers q) }

/-- A command ends with a code: its watch and trace records, its SIGNAL token, its report (R165, R167, R532); a copy of a member outside its slice
too (R185). -/
def Mach.finish (m : Mach) (pane : Nat) (q : QCmd) (code : Nat) (poisoned : Bool) (codes : List Nat) (sat : Nat) : Mach :=
  let m := m.stepUsed q.part q.desc.step
  let m := if poisoned then m.servePoison q.part pane q.desc.step else m
  let m := m.watch (m.watchers q) q.part pane q.kind q.desc.step q.desc.layer q.desc.opId q.desc.sealNo poisoned (code != 0) codes sat
  let m := m.traceCmd pane (if code = 0 then 3 else 4) q code poisoned
  let m := if code = 0 then m else (m.triggerException q.part pane code).count q.part pane 5 1
  let t := q.desc.signal
  let p := m.context q.part pane
  let m := if 63 < t then m
           else m.setContext q.part pane (if code = 0 then p.signal t else p.poisonTok t)
  let m := if code = 0 then m else m.dropXfers (fun x => x.sentBy pane q)
  m.report pane q code poisoned

/-- A DEFERRED record of a command that used poison (R377). -/
def Mach.recordPoisonUsed (m : Mach) (pane : Nat) (q : QCmd) : Mach :=
  m.place { ErrRec.mk0 sevDeferred q.part ecPoisonUsed pane q.desc.sealNo 0 with
    step := q.desc.step, layer := q.desc.layer, opId := q.desc.opId }

/-! ### Split-K tiles -/

/-- The partition address of the reduction slot of a split-K slice: REF_C (R116). -/
def QCmd.slotAddr (q : QCmd) : Word := q.c.getD 0
/-- SHAPE of an MXC word. -/
def mxShape (w : Word) : Nat := bits w.toNat 31 28
/-- CREC of an MXC word. -/
def mxCrec (w : Word) : Nat := bits w.toNat 63 40
/-- The key of a matrix count record (R103), if it lies in the partition's Transom space, outside the conduits' queues (R262). -/
def Mach.crecKey (m : Mach) (p : Nat) (w : Word) : Option Nat :=
  if mxCrec w = 0xFFFFFF ∨ m.conf.cfg.inQueue p (mxCrec w * 32) 32 then none else m.transomKey p (mxCrec w * 32)
/-- A matrix command whose shape uses one accumulator bank (R126). -/
def QCmd.oneBank (q : QCmd) : Bool := decide (mxShape q.desc.w5 ≤ 1)
/-- SPLITK of an MXC word. -/
def mxSplit (w : Word) : Nat := bits w.toNat 25 23
/-- Whether a queue command is a split-K slice. -/
def QCmd.isSplit (q : QCmd) : Bool := q.kind == 0 && mxSplit q.desc.w5 != 0
/-- Whether a queue command belongs to the tile of a slot of a partition. -/
def QCmd.ofTile (q : QCmd) (p : Nat) (slot : Word) (step : Nat) : Bool :=
  q.part == p && q.isSplit && q.slotAddr == slot && q.desc.step == step
/-- The key of byte b of a reduction slot. -/
def Mach.slotKey (m : Mach) (p : Nat) (slot : Word) (b : Nat) : Option Nat := m.transomKey p (adOffset slot + b)

/-- SLICE of a slice command is 0. -/
def QCmd.isSlice0 (q : QCmd) : Bool := bits q.desc.w5.toNat 22 19 == 0
/-- Slice 0 of the tile of a slice has drained. -/
def Mach.zeroDrained (m : Mach) (q : QCmd) : Bool :=
  (m.conf.cfg.panes q.part).any (fun n => (m.pane n).split.any (fun x => x.cmd.ofTile q.part q.slotAddr q.desc.step && x.cmd.isSlice0))
/-- ARRIVED of a slice's slot holds all P bits while the slot waits for its reduction (R398). -/
def Mach.slotFull (m : Mach) (r : Run) : Bool :=
  match m.slotKey r.cmd.part r.cmd.slotAddr 0 with
  | some k => m.loadLe (k + 10) 1 == 0 && m.loadLe k 4 == r.cmd.desc.step && m.loadLe (k + 4) 1 != 0 &&
      m.loadLe (k + 8) 2 % 2 ^ m.loadLe (k + 4) 1 == 2 ^ m.loadLe (k + 4) 1 - 1
  | none => false
/-- A drained slice whose tile has every partial, slice 0's included: it resolves by its reduction and is not given up at a step's end (R142). -/
def Mach.tileFull (m : Mach) (r : Run) : Bool := m.slotFull r && m.zeroDrained r.cmd
/-- Every drained slice of a tile completes with the code that its pane and command give: OK once the tile is written, with the record of one
that read poison (R377), another once it is given up (R142, R118). The tile is watched as the output of slice 0: the decoded elements and the
saturated count (R530). -/
def Mach.endTileBy (m : Mach) (p : Nat) (slot : Word) (step : Nat) (code : Nat → QCmd → Nat) (out : List Nat) (sat : Nat) : Mach :=
  (m.conf.cfg.panes p).foldl (fun m pane =>
    let pn := m.pane pane
    let mine := pn.split.filter (fun r => r.cmd.ofTile p slot step)
    let m := m.setPane pane { pn with split := pn.split.filter (fun r => !r.cmd.ofTile p slot step) }
    mine.foldl (fun m r =>
      (if r.poisoned && code pane r.cmd == cOk then m.recordPoisonUsed pane r.cmd else m).finish pane r.cmd (code pane r.cmd) r.poisoned
        (if r.cmd.isSlice0 && !r.poisoned then out else []) (if r.cmd.isSlice0 then sat else 0)) m) m
/-- A tile that is given up: one code for slice 0 and one for the others. -/
def Mach.endTile (m : Mach) (p : Nat) (slot : Word) (step code : Nat) (code0 : Nat) : Mach :=
  m.endTileBy p slot step (fun _ q => if q.isSlice0 then code0 else code) [] 0
/-- The SIGNAL tokens of the drained slices of a tile, by pane. -/
def Mach.tileSignals (m : Mach) (p : Nat) (slot : Word) (step : Nat) : List (Nat × Nat) :=
  (m.conf.cfg.panes p).flatMap (fun n => ((m.pane n).split.filter (fun r => r.cmd.ofTile p slot step)).map (fun r => (n, r.cmd.desc.signal)))
/-- Whether a token has no room for the slices that signal it (R164). -/
def Mach.tokenSpills (m : Mach) (l : List (Nat × Nat)) (pane t : Nat) : Bool :=
  decide (t ≤ 63 ∧ 255 < ((m.pane pane).token t).count + (m.pane pane).owed t + l.count (pane, t))

/-- A tile is abandoned: its header reads ABANDONED and its drained slices end with MX_SPLIT_ABORT (R142, R398). A header that no slice has
drained into belongs to the tile whose slices name it. -/
def Mach.abandonTile (m : Mach) (p : Nat) (slot : Word) (step : Nat) : Mach :=
  match m.slotKey p slot 0 with
  | none => m
  | some k =>
    let mine := adSpace slot == 1 && !m.conf.cfg.inQueue p (adOffset slot) 64 && m.loadLe (k + 10) 1 == 0 &&
      (m.loadLe (k + 8) 2 == 0 || m.loadLe k 4 == step)
    let m := if mine then m.storeLe (k + 10) 1 2 else m
    m.endTile p slot step cMxSplitAbort cMxSplitAbort

/-- A command ends without having written anything (R166); a slice that ends so gives up its tile (R142). An update pass is no command: it passes
to another owner (R324). -/
def Mach.failCmd (m : Mach) (pane : Nat) (q : QCmd) (code : Nat) : Mach :=
  if q.isPass then m else
  let m := m.finish pane q code false [] 0
  if q.isSplit && code != cMxSplitAbort && q.c.isSome then m.abandonTile q.part q.slotAddr q.desc.step else m

/-! ### Queues -/

/-- The queue of an engine. -/
def Pane.queue (p : Pane) : EngineId → List QCmd
  | .matrix => p.mq
  | .vector => p.vq
  | .copy => p.cq
/-- A pane with the queue of an engine replaced. -/
def Pane.setQueue (p : Pane) (e : EngineId) (l : List QCmd) : Pane :=
  match e with
  | .matrix => { p with mq := l }
  | .vector => { p with vq := l }
  | .copy => { p with cq := l }
/-- Entries of each queue (R162). -/
def queueSize : EngineId → Nat
  | .matrix => 16
  | .vector => 32
  | .copy => 16
/-- The matrix commands in flight, the one that drains first. -/
def Pane.mruns (p : Pane) : List Run := p.mdrain.toList ++ p.mrun.toList
/-- The matrix command whose drain comes next (R126). -/
def Pane.front (p : Pane) : Option Run := p.mdrain.orElse (fun _ => p.mrun)
/-- The place of that command filled anew, or freed. -/
def Pane.setFront (p : Pane) (r : Option Run) : Pane := if p.mdrain.isSome then { p with mdrain := r } else { p with mrun := r }
/-- Whether the matrix engine has a bank for the head of its queue: with nothing in flight always; beside one command where both use one
bank (R126). -/
def Pane.bankFree (p : Pane) : Bool :=
  let one := (p.mq.head?.map QCmd.oneBank).getD false
  match p.mdrain, p.mrun with
  | none, none => true
  | none, some r => one && r.cmd.oneBank
  | some _, none => one
  | some _, some _ => false
/-- Whether an engine can start one more command (R162). -/
def Pane.engineFree (p : Pane) : EngineId → Bool
  | .matrix => p.bankFree
  | .vector => p.vrun.isNone
  | .copy => decide (p.cruns.length < 4)

/-- The step gate of R285 while a training window runs: 0 open, 1 not yet open, 2 closed. -/
def Mach.stepGate (m : Mach) (p step : Nat) : Nat :=
  if m.fld R.COL_TSTATE_STATE [p] = 0 then 0
  else
    let c := m.fld R.COL_TSTATE_CLOSED [p]
    if stepLe step c then 2 else if stepLe step (stepAdd c 2) then 0 else 1

/-- What the head of a queue can do: nothing yet, fail at once with a code, or start (R163, R165). -/
inductive Head where
  | waits
  | fails (q : QCmd) (code : Nat)
  | starts (q : QCmd)
deriving DecidableEq, Repr

/-- The head of a queue of a pane (R163); a copy that resumes has consumed its token (R184, R185). Pass 2 of a chunk runs by its own row. -/
def Mach.headOf (m : Mach) (pane : Nat) (e : EngineId) : Head :=
  match (m.pane pane).queue e with
  | [] => .waits
  | q :: _ =>
    if q.isPass || !(m.mayStart q.part pane && (m.pane pane).engineFree e) || m.traceBlocks pane 2 q.desc.stream q.desc.layer q.desc.opId then .waits
    else if m.stepGate q.part q.desc.step = 2 then .fails q cStepClosed
    else if m.stepGate q.part q.desc.step = 1 then .waits
    else if q.desc.wait ≤ 63 ∧ !q.resumed then
      (if ((m.pane pane).token q.desc.wait).poison then .fails q cDepFailed
       else if ((m.pane pane).token q.desc.wait).count = 0 then .waits else .starts q)
    else .starts q

/-- The head leaves its queue; a starting command consumes its WAIT token (R163). -/
def Mach.popHead (m : Mach) (pane : Nat) (e : EngineId) (consume : Bool) : Mach :=
  let p := m.pane pane
  match p.queue e with
  | [] => m
  | q :: l =>
    let k := p.token q.desc.wait
    let p := if consume && decide (q.desc.wait ≤ 63 ∧ !q.resumed) then p.setToken q.desc.wait { k with count := k.count - 1 } else p
    (m.setPane pane (p.setQueue e l)).queueSync pane

/-- A start is traced and may fire a trigger (R521, R525). -/
def Mach.traceStart (m : Mach) (pane : Nat) (q : QCmd) : Mach :=
  (m.traceCmd pane 2 q 0 false).triggerStart q.part pane q.desc.layer q.desc.opId

/-- The start of a command that leaves its queue: its checks fail it with a code, or its engine takes it. -/
def Mach.startHead (m : Mach) (pane : Nat) (e : EngineId) (go : Mach → QCmd → Except Nat Mach) : Mach :=
  match m.headOf pane e with
  | .waits => m
  | .fails q code => (m.popHead pane e false).failCmd pane q code
  | .starts q =>
    let q := m.watchFrom q
    let m := m.popHead pane e true
    match go (m.traceStart pane q) q with
    | .ok m' => m'
    | .error code => m.failCmd pane q code

/-- Started commands of a pane end ABORTED and write nothing (R127); queued ones too where asked (R572). -/
def Mach.abortPane (m : Mach) (pane : Nat) (queued : Bool) : Mach :=
  let p := m.pane pane
  let started := (p.mruns ++ p.vrun.toList ++ p.cruns ++ p.split).map (fun r => r.cmd)
  let waiting := if queued then p.mq ++ p.vq ++ p.cq else []
  let p := { p with mrun := none, mdrain := none, vrun := none, cruns := [], split := [] }
  let p := if queued then { p with mq := [], vq := [], cq := [] } else p
  let m := (m.setPane pane p).queueSync pane
  (started ++ waiting).foldl (fun m q => m.failCmd pane q cAborted) m

/-- The split-K tiles that slices of a partition wait for are abandoned (R142). -/
def Mach.abandonTiles (m : Mach) (p : Nat) : Mach :=
  ((m.conf.cfg.panes p).flatMap (fun n => (m.pane n).split)).foldl (fun m r =>
    if r.cmd.part = p then m.abandonTile p r.cmd.slotAddr r.cmd.desc.step else m) m
/-- Started commands of a partition end ABORTED on every pane it holds at present (R127, R485, R490); its tiles are abandoned first. -/
def Mach.abortPart (m : Mach) (p : Nat) (queued : Bool) : Mach :=
  (m.conf.cfg.panes p).foldl (fun m pane => if m.paneOwner pane = p then m.abortPane pane queued else m) (m.abandonTiles p)

/-- Whether a partition has a started command on any pane it holds (R226, R489, R573). -/
def Mach.anyStarted (m : Mach) (p : Nat) : Bool :=
  (m.conf.cfg.panes p).any (fun pane =>
    m.paneOwner pane == p &&
    (let x := m.pane pane
     !x.mruns.isEmpty || x.vrun.isSome || !x.cruns.isEmpty || !x.split.isEmpty))

end Sys2Proof.Machine
end

