-- ==== Sys2Proof/Machine/MeridianOps.lean ====
section
/-! DEFINITION. Meridian transport (R415 to R430): flits, CRC, credits, replay, routing of messages, violations and quarantine. -/

namespace Sys2Proof.Machine

/-! ### Classes and message types (R416, R418, R419) -/

/-- Classes of R416. -/
def clCollective : Nat := 0
def clConduit : Nat := 1
def clMemory : Nat := 2
def clControl : Nat := 3
def clTime : Nat := 4
def clShutter : Nat := 5
/-- Receive and replay slots of a class (R419). -/
def clSlots (c : Nat) : Nat := if c = 0 then 1024 else if c = 1 ∨ c = 2 then 512 else if c = 3 then 64 else 16
/-- The class of a message type (R418); none for a reserved one. -/
def mtClass (t : Nat) : Option Nat :=
  if (1 ≤ t ∧ t ≤ 5) ∨ t = 0x10 ∨ t = 0x11 then some clControl
  else if t = 8 ∨ t = 9 then some clTime
  else if t = 0x18 then some clShutter
  else if 0x20 ≤ t ∧ t ≤ 0x27 then some clCollective
  else if (0x28 ≤ t ∧ t ≤ 0x2A) ∨ t = 0x38 then some clMemory
  else if 0x30 ≤ t ∧ t ≤ 0x33 then some clConduit
  else none
/-- Link-local message types (R418). -/
def mtLocal (t : Nat) : Bool := decide (1 ≤ t ∧ t ≤ 0xF)

/-! ### Links -/

/-- A link beside its registers. -/
def Mach.link (m : Mach) (n : Nat) : LinkSt := Tbl.get LinkSt.init m.mrd.links n
/-- A link replaced. -/
def Mach.setLink (m : Mach) (n : Nat) (l : LinkSt) : Mach := { m with mrd := { m.mrd with links := Tbl.set LinkSt.init m.mrd.links n l } }
/-- A class of a link. -/
def Mach.linkCls (m : Mach) (n c : Nat) : LinkCls := Tbl.get LinkCls.init (m.link n).cls c
/-- A class of a link replaced. -/
def Mach.setLinkCls (m : Mach) (n c : Nat) (x : LinkCls) : Mach :=
  m.setLink n { m.link n with cls := Tbl.set LinkCls.init (m.link n).cls c x }
/-- States of a link (R424). -/
def lkDown : Nat := 0
def lkTrain : Nat := 1
def lkNegotiate : Nat := 2
def lkUp : Nat := 3
def lkDegraded : Nat := 4
def lkQuarantined : Nat := 5
/-- STATE of a link. -/
def Mach.lstate (m : Mach) (n : Nat) : Nat := m.fld R.MRD_LSTATE_STATE [n]
/-- A link that carries traffic. -/
def Mach.linkUp (m : Mach) (n : Nat) : Bool := m.lstate n == lkUp || m.lstate n == lkDegraded
/-- A link enters a state with a code (R424). -/
def Mach.setLstate (m : Mach) (n st code : Nat) : Mach :=
  (m.setFlds [n] [(R.MRD_LSTATE_STATE, st), (R.MRD_LSTATE_CODE, code)]).setLink n
    { m.link n with since := m.now, downs := (m.link n).downs + b2n (m.linkUp n && st != lkUp && st != lkDegraded) }
/-- This module's ID. -/
def Mach.moduleId (m : Mach) : Nat := m.fld R.MRD_ID_MODULE []

/-! ### Jobs (R431) -/

/-- The job of a partition (R431), and the partition that holds a job, 0 if none. -/
def Mach.jobOf (m : Mach) (p : Nat) : Nat := m.fld R.COL_CJOB_JOB [p]
def Mach.jobPart (m : Mach) (job : Nat) : Nat :=
  if job = 0 then 0 else (((List.range 32).map (fun i => i + 1)).find? (fun p => m.jobOf p == job)).getD 0

/-- The job of a stopped partition: its messages stay where they are (R546). -/
def Mach.jobShut (m : Mach) (job : Nat) : Bool := m.jobPart job != 0 && m.shut (m.jobPart job)

/-! ### Flits (R416) -/

/-- CRC-64 with the ECMA-182 polynomial, bits of each byte in the order R415 sends them (log entry 16). -/
def crc64Byte (crc : Word) (b : Byte) : Word :=
  (List.range 8).foldl (fun c _ => if c.getLsbD 0 then (c >>> 1) ^^^ 0xC96C5795D7870F42#64 else c >>> 1) (crc ^^^ (b.setWidth 64))
/-- The CRC of bytes 0 to 247 of a flit (R416). -/
def crc64 (bs : List Byte) : Word := (bs.foldl crc64Byte 0xFFFFFFFFFFFFFFFF#64) ^^^ 0xFFFFFFFFFFFFFFFF#64

/-- A flit header word. -/
def flitHeader (f : Flit) (null : Bool) (acls ack credits : Nat) : Nat :=
  f.cls * 2 ^ 61 + b2n null * 2 ^ 60 + b2n f.som * 2 ^ 59 + b2n f.eom * 2 ^ 58 + b2n f.poison * 2 ^ 57 + f.seqNo % 4096 * 2 ^ 45 +
  acls * 2 ^ 42 + ack % 4096 * 2 ^ 30 + credits * 2 ^ 24 + (f.len - 1) % 256 * 2 ^ 16 + f.dst % 65536
/-- The 256 bytes of a flit. -/
def flitBytes (f : Flit) (null : Bool) (acls ack credits : Nat) : List Byte :=
  let b := leBytes 8 (flitHeader f null acls ack credits) ++ f.payload ++ List.replicate (240 - f.payload.length) 0
  b ++ leBytes 8 (crc64 b).toNat

/-- A flit with no payload. -/
def nullFlit : Flit := { cls := 0, som := false, eom := false, poison := false, seqNo := 0, len := 1, dst := 0, payload := [], job := 0, msg := 0, inp := 0, tries := 0 }

/-- A flit leaves on a link with the acknowledgement and the credits of its class (R416, R419; log entry 16). -/
def Mach.transmit (m : Mach) (n : Nat) (f : Flit) (null : Bool) (acls : Nat) : Mach :=
  let x := m.linkCls n acls
  let cr := min 63 x.freed
  ((m.setLinkCls n acls { x with freed := x.freed - cr, rxCredit := x.rxCredit + cr }).countFor 0 (isl 5 n) 0 256).emit (.flit n (flitBytes f null acls x.rxSeq cr))

/-- A flit that a stop keeps from being sent (R546): of a stopped module, or of a stopped partition's job. -/
def Mach.flitStopped (m : Mach) (f : Flit) : Bool := decide (f.cls ≤ 2) && (m.fullStop || m.jobShut f.job)
/-- The flit of a class that may leave next: of the message that is open, or the first of one that no stop holds back. -/
def Mach.nextFlit (m : Mach) (x : LinkCls) : Option Flit :=
  if x.txOpen ≠ 0 then (x.txq.find? (fun f => f.msg == x.txOpen)).bind (fun f => if m.flitStopped f then none else some f)
  else x.txq.find? (fun f => !m.flitStopped f)
/-- The flit of a class that has a credit and a replay slot to leave now (R419). -/
def Mach.readyFlit (m : Mach) (n c : Nat) : Option Flit :=
  let x := m.linkCls n c
  if x.credits != 0 && decide (x.unacked.length < clSlots c) then m.nextFlit x else none
/-- The partner is told of a flit taken, by a null flit with ACK and CREDITS; with free, a slot of the class is free again (R419; log entry 16). -/
def Mach.flitTold (m : Mach) (n c : Nat) (free : Bool) : Mach :=
  let x := m.linkCls n c
  let m := m.setLinkCls n c { x with freed := x.freed + b2n free }
  if m.linkUp n then m.transmit n nullFlit true c else m

/-! ### Arbitration (R422) -/

/-- The share of an owner in a link: MRD_SHARE of a partition, for the provider what the partitions leave of 64. -/
def Mach.linkShare (m : Mach) (n o : Nat) : Nat :=
  let s (p : Nat) : Nat := ((m.conf.cfg.part p).map (fun e => leAt e (16 + n) 1)).getD 0
  if o = 0 then 64 - (m.conf.cfg.parts.map s).sum else s o
/-- The conduit, collective and memory classes of a link with a flit ready, each with the owner of that flit: the partition of its job, or the
provider. -/
def Mach.sharers (m : Mach) (n : Nat) : List (Nat × Nat) :=
  [clConduit, clCollective, clMemory].filterMap (fun c => (m.readyFlit n c).map (fun f => (m.jobPart f.job, c)))
/-- The owner with the fewest flits in the round, the lowest number first, and of its classes the one whose turn it is (log entry 89). -/
def turnOf (spent turn : Tbl Nat) (l : List (Nat × Nat)) : Option Nat :=
  match l with
  | [] => none
  | v :: r =>
    let o := r.foldl (fun b w => if Tbl.get 0 spent w.1 < Tbl.get 0 spent b ∨ (Tbl.get 0 spent w.1 = Tbl.get 0 spent b ∧ w.1 < b) then w.1 else b) v.1
    let order := [clConduit, clCollective, clMemory]
    let i := order.idxOf (Tbl.get 0 turn o - 1) + 1
    (order.drop i ++ order.take i).find? (fun c => l.contains (o, c))
/-- The class whose flit leaves a link next: shutter, time and control first, then the shares in rounds; a share that no one uses passes to the
others. -/
def Mach.nextClass (m : Mach) (n : Nat) : Option Nat :=
  match [clShutter, clTime, clControl].find? (fun c => (m.readyFlit n c).isSome) with
  | some c => some c
  | none =>
    let l := m.link n
    let cs := m.sharers n
    let inRound := cs.filter (fun v => decide (Tbl.get 0 l.spent v.1 < m.linkShare n v.1))
    let shared := cs.filter (fun v => decide (0 < m.linkShare n v.1))
    if inRound.isEmpty then turnOf [] l.turn (if shared.isEmpty then cs else shared) else turnOf l.spent l.turn inRound
/-- A flit that leaves counts in its owner's share; where no share of the round is left, a new round begins with it. -/
def Mach.countShare (m : Mach) (n o c : Nat) : Mach :=
  let l := m.link n
  let fresh := (m.sharers n).all (fun v => decide (m.linkShare n v.1 ≤ Tbl.get 0 l.spent v.1))
  let spent : Tbl Nat := if fresh then [] else l.spent
  m.setLink n { l with spent := Tbl.set 0 spent o (Tbl.get 0 spent o + 1), turn := Tbl.set 0 l.turn o (c + 1) }
/-- Waiting flits of a link leave while credits and replay slots last (R419, R422); within a class a message leaves whole before the next begins.
The slot of a forwarded flit is free, and a job's payload is metered (R505). -/
def Mach.pumpN : Nat → Mach → Nat → Mach
  | 0, m, _ => m
  | k + 1, m, n =>
    if !m.linkUp n then m
    else match (m.nextClass n).bind (fun c => (m.readyFlit n c).map (fun g => (c, g))) with
      | none => m
      | some (c, g) =>
        let m := if 2 < c then m else m.countShare n (m.jobPart g.job) c
        let x := m.linkCls n c
        let f := { g with seqNo := x.txSeq, inp := 0 }
        let m := m.setLinkCls n c { x with txq := x.txq.erase g, txOpen := if f.eom then 0 else f.msg, txSeq := (x.txSeq + 1) % 4096, credits := x.credits - 1,
                                           unacked := x.unacked ++ [f], ackAt := if x.unacked.isEmpty then m.now else x.ackAt }
        let m := (m.transmit n f false c).meter (m.jobPart f.job) mLinkTx (if m.jobPart f.job = 0 then 0 else f.len)
        Mach.pumpN k (if g.inp = 0 then m else m.flitTold (g.inp - 1) c true) n
/-- Every flit that waits on a link and can leave leaves. -/
def Mach.pump (m : Mach) (n : Nat) : Mach := Mach.pumpN (((List.range 6).map (fun c => (m.linkCls n c).txq.length)).sum) m n

/-- The flits of a message: its bytes in pieces of 240. -/
def flitsOf (cls dst job msg : Nat) (poison : Bool) : Nat → Bool → List Byte → List Flit
  | 0, _, _ => []
  | k + 1, first, bs =>
    let last := decide (bs.length ≤ 240)
    { cls := cls, som := first, eom := last, poison := poison, seqNo := 0, len := min 240 bs.length, dst := dst, payload := bs.take 240, job := job, msg := msg,
      inp := 0, tries := 0 } ::
    (if last then [] else flitsOf cls dst job msg poison k false (bs.drop 240))

/-- A message on a given link (R417). -/
def Mach.sendOn (m : Mach) (n dst job mtype ttl tag src : Nat) (body : List Byte) (poison : Bool) : Mach :=
  match mtClass mtype with
  | none => m
  | some c =>
    let bs := leBytes 2 src ++ leBytes 2 job ++ leBytes 1 mtype ++ leBytes 1 ttl ++ leBytes 2 0 ++ leBytes 4 body.length ++ leBytes 4 tag ++ body
    let m := { m with mrd := { m.mrd with msgs := m.mrd.msgs + 1 } }
    let fs := flitsOf c dst job m.mrd.msgs poison (bs.length / 240 + 1) true bs
    let x := m.linkCls n c
    (m.setLinkCls n c { x with txq := x.txq ++ fs }).pump n

/-- A link-local message to the partner (R418). -/
def Mach.sendLocal (m : Mach) (n mtype tag : Nat) (body : List Byte) : Mach :=
  m.sendOn n (m.fld R.MRD_LPEER_MODULE [n]) 0 mtype 16 tag m.moduleId body false

/-- The links that carry traffic towards a module (R426); IDs run to 4,095. -/
def Mach.routeLinks (m : Mach) (dst : Nat) : List Nat :=
  if 4095 < dst then []
  else if m.flag R.MRD_ROUTE_VALID [dst] then (List.range 10).filter (fun n => bitAt (m.fld R.MRD_ROUTE_LINKS [dst]) n && m.linkUp n)
  else ((List.range 10).filter (fun n => m.flag R.MRD_LPEER_NEIGHBOUR [n] && m.fld R.MRD_LPEER_MODULE [n] == dst && m.linkUp n)).take 1
/-- The link of a message (R426): one of several by the hash of (SRC, JOB, TAG). -/
def Mach.routeLink (m : Mach) (dst src job tag : Nat) : Option Nat :=
  let l := m.routeLinks dst
  if l.length ≤ 1 then l.head? else l[Config.routeHash (src * 2 ^ 48 + job * 2 ^ 32 + tag) l.length % l.length]?
/-- A link towards a module that is in TRAIN or NEGOTIATE: flits queued for it wait (R425). -/
def Mach.routeWaits (m : Mach) (dst : Nat) : Option Nat :=
  let back (n : Nat) : Bool := m.lstate n == lkTrain || m.lstate n == lkNegotiate
  if 4095 < dst then none
  else if m.flag R.MRD_ROUTE_VALID [dst] then (List.range 10).find? (fun n => bitAt (m.fld R.MRD_ROUTE_LINKS [dst]) n && back n)
  else (List.range 10).find? (fun n => (m.link n).lastSerial != 0 && m.fld R.MRD_LPEER_MODULE [n] == dst && back n)

/-- A message of this module to another (R417, R426); none where no route exists. -/
def Mach.sendMsg (m : Mach) (dst job mtype tag : Nat) (body : List Byte) (poison : Bool) : Option Mach :=
  (m.routeLink dst m.moduleId job tag).map (fun n => m.sendOn n dst job mtype 16 tag m.moduleId body poison)
/-- A message of a job sent if a route exists; a partition without a JOB sends none (R431). -/
def Mach.trySend (m : Mach) (dst job mtype tag : Nat) (body : List Byte) (poison : Bool) : Mach :=
  if job = 0 then m else (m.sendMsg dst job mtype tag body poison).getD m

/-- The unit of a received message has taken it: its slot is freed and reported (R419), or it leaves a capture
area, which holds no slot (R548). -/
def Mach.consumed (m : Mach) (n c : Nat) : Mach :=
  let x := m.linkCls n c
  let k := Tbl.get 0 m.sht.captured (n * 8 + c)
  if x.waiting = 0 then (if k = 0 then m else { m with sht := { m.sht with captured := Tbl.set 0 m.sht.captured (n * 8 + c) (k - 1) } })
  else (m.setLinkCls n c { x with waiting := x.waiting - 1, seqs := x.seqs.drop 1 }).flitTold n c true
/-- The SEQ of the oldest message of a class that waits for its unit (R429). -/
def Mach.waitingSeq (m : Mach) (n c : Nat) : Nat := (m.linkCls n c).seqs.headD 0
/-- Slots of a class of a link that hold something: messages that wait for their unit, flits on their way out of another link, and flits that a
stop keeps (R419, R546). -/
def Mach.slotsHeld (m : Mach) (n c : Nat) : Nat :=
  (m.linkCls n c).waiting + ((List.range 10).map (fun k => ((m.linkCls k c).txq.filter (fun f => f.inp == n + 1)).length)).sum +
  (m.sht.flits.filter (fun e => e.1 == n && bits (leAt e.2 0 8) 63 61 == c)).length

/-! ### Time parent (R432, R512) -/

/-- States of GRT_STATUS (R512). -/
def gtFree : Nat := 0
def gtAcquiring : Nat := 1
def gtSynced : Nat := 2
def gtHoldover : Nat := 3
/-- STATE of GRT_STATUS. -/
def Mach.gtState (m : Mach) : Nat := m.fld R.GRT_STATUS_STATE []
/-- This module is the time root. -/
def Mach.isRoot (m : Mach) : Bool := m.flag R.MRD_ID_TIME_ROOT []
/-- The distance to the root. -/
def Mach.distance (m : Mach) : Nat := m.fld R.GRT_STATUS_DISTANCE []
/-- ALIGN_NS of a synchronised module (R514). -/
def Mach.alignNs (m : Mach) : Nat := min 255 (2 + m.distance)

/-- The link with the smallest announced distance, ties to the lower number (R432). -/
def Mach.bestParent (m : Mach) : Option Nat :=
  let d (n : Nat) : Nat := m.fld R.MRD_LPEER_DISTANCE [n]
  let l := (List.range 10).filter (fun n => m.linkUp n && d n != 0xFF)
  l.foldl (fun b n => match b with
    | none => some n
    | some k => if d n < d k then some n else some k) none

/-- The parent follows the links and their distances (R432, R512); under a kept parent ALIGN_NS follows the distance while SYNCED (R514), and
without a parent it stays as it is (log entry 91). -/
def Mach.timeParent (m : Mach) : Mach :=
  if m.isRoot then
    let m := (List.range 10).foldl (fun m n => m.setFld R.MRD_LPEER_PARENT [n] 0) m
    { m with srv := { m.srv with parent := 0 } }.setFld R.GRT_STATUS_DISTANCE [] 0
  else
    let d (n : Nat) : Nat := m.fld R.MRD_LPEER_DISTANCE [n]
    let old := m.srv.parent
    let keep := old != 0 && m.linkUp (old - 1) && decide (d (old - 1) < m.distance)
    let new := if keep then old else match m.bestParent with
      | some n => n + 1
      | none => 0
    let dist := if new = 0 then 0xFF else min 0xFF (d (new - 1) + 1)
    let m := (List.range 10).foldl (fun m n => m.setFld R.MRD_LPEER_PARENT [n] (b2n (new == n + 1))) m
    let m := { m with srv := { m.srv with parent := new } }.setFld R.GRT_STATUS_DISTANCE [] dist
    if new = old then (if new ≠ 0 ∧ m.gtState = gtSynced then m.setFld R.GRT_STATUS_ALIGN_NS [] m.alignNs else m)
    else if new = 0 then m
    else
      let m := if m.gtState = gtFree then m.setFld R.GRT_STATUS_ALIGN_NS [] 255 else m
      { m with srv := { m.srv with good := 0, slew := 0 } }.setFld R.GRT_STATUS_STATE [] gtAcquiring
/-- The link leaves UP and DEGRADED: no neighbour, and the parent follows. -/
def Mach.linkLeft (m : Mach) (n : Nat) : Mach := (m.setFld R.MRD_LPEER_NEIGHBOUR [n] 0).timeParent

/-! ### Violations (R429, R430) -/

/-- A message that is being forwarded from a class of a link ends where it stands: what waits of it is dropped and its way out is free (log entry
31). -/
def Mach.fwdStop (m : Mach) (n c : Nat) : Mach :=
  let x := m.linkCls n c
  if x.rxOpen ∧ 1 ≤ x.fwd ∧ x.fwd ≤ 10 then
    let k := x.fwd - 1
    let z := m.linkCls k c
    let held := (z.txq.filter (fun f => f.msg == x.fwdMsg && f.inp == n + 1)).length
    let m := m.setLinkCls k c { z with txOpen := if z.txOpen = x.fwdMsg then 0 else z.txOpen, txq := z.txq.filter (fun f => f.msg != x.fwdMsg) }
    let x := m.linkCls n c
    m.setLinkCls n c { x with freed := x.freed + held }
  else m
/-- Replay and waiting flits of a link dropped (R424): the slots that forwarded ones held elsewhere are free, and forwarding from it ends. -/
def Mach.clearReplay (m : Mach) (n : Nat) : Mach :=
  let gone := (List.range 6).flatMap (fun c => (m.linkCls n c).txq.filter (fun f => f.inp != 0 && f.inp != n + 1))
  let m := (List.range 6).foldl (fun m c => m.fwdStop n c) m
  let m := (List.range 10).foldl (fun m k => (List.range 6).foldl (fun m c =>
    let z := m.linkCls k c
    if z.txq.any (fun f => f.inp == n + 1) then m.setLinkCls k c { z with txq := z.txq.map (fun f => if f.inp = n + 1 then { f with inp := 0 } else f) }
    else m) m) m
  gone.foldl (fun m f => m.flitTold (f.inp - 1) f.cls true) (m.setLink n { m.link n with cls := [] })

/-- A violation on a link: recorded, answered at most once per 10 µs, logged at most once per 1 s, and quarantine at the
limit. -/
def Mach.violate (m : Mach) (n code cls sq : Nat) : Mach :=
  let l := m.link n
  let vs := (l.viols.filter (fun t => decide (m.now < t + second))) ++ [m.now]
  let m := m.setLink n { l with viols := vs }
  let m := (m.setFlds [n] [(R.MRD_LVIOL_LAST_CODE, code), (R.MRD_LVIOL_LAST_CLASS, cls), (R.MRD_LVIOL_LAST_SEQ, sq),
    (R.MRD_LVIOL_WINDOW, min vs.length 65535)]).addSat R.MRD_LVIOL_TOTAL [n] 1
  let m := m.countFor 0 (isl 5 n) 4 1
  let m := if l.violFrame + 10000 ≤ m.now ∨ l.violFrame = 0 then
             (m.setLink n { m.link n with violFrame := m.now }).sendLocal n 3 0 (leBytes 1 code ++ leBytes 1 cls ++ leBytes 2 sq)
           else m
  let m := m.placeLimited (0x06000 + n) second (ErrRec.mk0 sevCorrected 0 ecViolation (isl 5 n) code 0)
  let limit := m.fld R.MRD_LCFG_VIOL_LIMIT [n]
  if (if limit = 0 then 16 else limit) ≤ vs.length ∧ (m.linkUp n ∨ m.lstate n = lkNegotiate) then ((m.clearReplay n).setLstate n lkQuarantined 5).linkLeft n
  else m
/-- The violations of a link that have left the sliding 1 s no longer count (R430). -/
def Mach.violTick (m : Mach) : Mach :=
  (List.range 10).foldl (fun m n =>
    let l := m.link n
    let vs := l.viols.filter (fun t => decide (m.now < t + second))
    if vs.length = l.viols.length then m else (m.setLink n { l with viols := vs }).setFld R.MRD_LVIOL_WINDOW [n] (min vs.length 65535)) m

/-- UNREACHABLE to the source of a message that is discarded (R426, R431), as module traffic; its body names the job of that message (log entry
17). -/
def Mach.unreachable (m : Mach) (src job mtype tag : Nat) : Mach :=
  (m.sendMsg src 0 0x10 tag (leBytes 1 mtype ++ leBytes 2 job) false).getD m

end Sys2Proof.Machine
end

