-- ==== Sys2Proof/Machine/Flags.lean ====
section
/-! DEFINITION. The counts and flags that conversions and engines compute: saturated, flushed and non-finite elements (R86 to R92), header FLAGS (R61), the addition of counts to records and pane registers (R91, R135, R136, R179). -/

namespace Sys2Proof.Machine

/-- What a conversion counts (R91), and whether its output holds a NaN (R61). -/
structure CvtCounts where
  sat : Nat
  flush : Nat
  nonfinite : Nat
  nan : Bool
deriving DecidableEq, Repr

/-- No count. -/
def CvtCounts.zero : CvtCounts := ⟨0, 0, 0, false⟩
/-- The sum of two counts. -/
def CvtCounts.add (a b : CvtCounts) : CvtCounts :=
  ⟨a.sat + b.sat, a.flush + b.flush, a.nonfinite + b.nonfinite, a.nan || b.nan⟩
/-- FLAGS of a scaled-tensor header (R61): NaN, saturated, flushed. -/
def CvtCounts.flags (c : CvtCounts) : Nat := b2n c.nan + 2 * b2n (c.sat != 0) + 4 * b2n (c.flush != 0)

/-- A u32 counter in memory raised by n and sticky at its top (R92, R135). -/
def Mach.addSticky32 (m : Mach) (k n : Nat) : Mach :=
  if n = 0 then m else { m with mem := writeBytes m.mem k (leBytes 4 (min (ofLe (readBytes m.mem k 4) + n) 0xFFFFFFFF)) }

/-- The counts of a conversion added to its pane's registers (R91). -/
def Mach.addPaneCvt (m : Mach) (pane : Nat) (c : CvtCounts) : Mach :=
  let m := ((m.addSat R.PNE_CVT_SAT_COUNT [pane] c.sat).addSat R.PNE_CVT_FLUSH_COUNT [pane] c.flush).addSat R.PNE_CVT_NONFINITE_COUNT [pane] c.nonfinite
  m.count (m.paneOwner pane) pane 6 c.sat

/-- The counts of a conversion added to its scale record at a key (R73, R91). -/
def Mach.addRecordCvt (m : Mach) (k : Nat) (c : CvtCounts) : Mach :=
  ((m.addSticky32 (k + 16) c.sat).addSticky32 (k + 20) c.flush).addSticky32 (k + 24) c.nonfinite

/-- The counts of a matrix command (R134). -/
structure MxCounts where
  trunc : Nat
  nonfinite : Nat
  ovf : Nat
  flush : Nat
deriving DecidableEq, Repr

/-- The counts of a matrix command added to its count record, if any, and to its pane's registers (R136). -/
def Mach.addMx (m : Mach) (pane : Nat) (k : Option Nat) (c : MxCounts) : Mach :=
  let m := match k with
    | some k => (((m.addSticky32 k c.trunc).addSticky32 (k + 4) c.nonfinite).addSticky32 (k + 8) c.ovf).addSticky32 (k + 12) c.flush
    | none => m
  (((m.addSat R.PNE_MX_TRUNC_COUNT [pane] c.trunc).addSat R.PNE_MX_NONFINITE_COUNT [pane] c.nonfinite).addSat
    R.PNE_MX_OVF_OVF [pane] c.ovf).addSat R.PNE_MX_OVF_DRAIN_FLUSH [pane] c.flush

/-- The counts of a vector command added to PNE_VX_COUNT (R179). -/
def Mach.addVx (m : Mach) (pane nonfinite tries singular : Nat) : Mach :=
  ((m.addSat R.PNE_VX_COUNT_NONFINITE [pane] nonfinite).addSat R.PNE_VX_COUNT_SHIFT_TRIES [pane] tries).addSat
    R.PNE_VX_COUNT_SINGULAR_FALLBACK [pane] singular

end Sys2Proof.Machine
end

