-- ==== Sys2Proof/Machine/Operands.lean ====
section
/-! DEFINITION. Operand forms: references (R157, R160), tensors in memory (R58 to R62, R65, R82), destinations with atomics (R395). -/

namespace Sys2Proof.Machine

/-! ### References -/

/-- The address a reference names (R157): base register + offset × 64, in the base's space; none for 0xFFFF_FFFF. -/
def resolveRef (base : Nat → Word) (ref : Nat) : Option Word :=
  if ref = 0xFFFFFFFF then none
  else
    let b := base (bits ref 31 29)
    let off := (bits b.toNat 47 0 + bits ref 28 0 * 64) % 2 ^ 48
    some (BitVec.ofNat 64 (bits b.toNat 63 48 * 2 ^ 48 + off))

/-- A queue command from a descriptor and the base registers of its issuer (R157, R467). -/
def QCmd.of (d : Desc) (src : CmdSrc) (p : Nat) (base : Nat → Word) : QCmd :=
  { desc := d, src := src, part := p, a := resolveRef base d.refA, b := resolveRef base d.refB, c := resolveRef base d.refC,
    d := resolveRef base d.refD, progress := 0, poisoned := false, resumed := false }

/-- The spaces a reference may name, and ROUTE 0 outside space 4 (R160, R458). -/
def refOk (allowed : List Nat) (r : Option Word) : Bool :=
  match r with
  | none => true
  | some w => allowed.contains (adSpace w) && (adSpace w == 4 || adRoute w == 0)

/-! ### Elements -/

/-- Element i of a packed string of w-bit elements (R58). -/
def elemAt (w : Nat) (bs : List Byte) (i : Nat) : Nat :=
  bits (leAt bs (w * i / 8) 5) (w * i % 8 + w - 1) (w * i % 8)

/-- Elements packed into bytes (R58). -/
def packElems (w : Nat) (codes : List Nat) : List Byte :=
  leBytes ((w * codes.length + 7) / 8) (codes.foldr (fun c acc => c % 2 ^ w + acc * 2 ^ w) 0)

/-- The length of a row in memory: padded to whole blocks for a scaled format (R60). -/
def Fmt.paddedLen (f : Fmt) (len : Nat) : Nat := if f.block = 0 then len else roundUp len f.block
/-- The bytes of the elements of a tensor (R58, R60). -/
def Fmt.elemBytes (f : Fmt) (rows len : Nat) : Nat := (f.width * rows * f.paddedLen len + 7) / 8
/-- The fine exponents of a tensor: one per block (R61). -/
def Fmt.blocks (f : Fmt) (rows len : Nat) : Nat := if f.block = 0 then 0 else rows * (f.paddedLen len / f.block)
/-- Where a conversion puts the fine exponents: the elements, rounded up to 64 bytes (log entry 10). -/
def Fmt.scaleOffset (f : Fmt) (rows len : Nat) : Nat := roundUp (64 + f.elemBytes rows len) 64
/-- The bytes a tensor that the module writes takes. -/
def Fmt.tensorBytes (f : Fmt) (rows len : Nat) : Nat :=
  if f.block = 0 then f.elemBytes rows len else f.scaleOffset rows len + f.blocks rows len

/-- A tensor read from memory: its coarse scale, its values with the fine exponents folded in, row by row without
padding, and whether a poisoned line was read. -/
structure Tensor where
  coarse : Fp
  vals : List Fp
  poisoned : Bool
deriving DecidableEq, Repr

/-- The bytes of a reference of a pane, or the failure code of R160. -/
def Mach.fetch (m : Mach) (p pane : Nat) (w : Word) (n : Nat) : Except Nat (List Byte × Bool) :=
  match m.segs p (some pane) false w n with
  | none => .error cAddrRange
  | some l => .ok (m.readSegs l, m.segsPoisoned l)

/-- A partition address moved by a byte offset. -/
def adPlus (w : Word) (o : Nat) : Word := BitVec.ofNat 64 (bits w.toNat 63 48 * 2 ^ 48 + (adOffset w + o) % 2 ^ 48)

/-- Whether a header is one that R62 accepts for a format code. -/
def headerOk (hd : List Byte) (code : Nat) (f : Fmt) : Bool :=
  let c := leAt hd 0 4
  !bitAt c 31 && decide (1 ≤ bits c 30 23 ∧ bits c 30 23 ≤ 254) && leAt hd 5 1 == f.block && bits (leAt hd 4 1) 3 0 == code &&
  leAt hd 8 8 % 64 == 0

/-- A tensor of a format at an address (R58 to R66): rows of len elements; CVT_INVALID for a header R62 rejects. Fine exponents that the header
puts past the 48 bits of an OFFSET lie outside the allocation (R160). -/
def Mach.tensor (m : Mach) (p pane : Nat) (w : Word) (code rows len : Nat) : Except Nat Tensor :=
  match fmtOf code with
  | none => .error cCvtInvalid
  | some f =>
    if f.block = 0 then
      match m.fetch p pane w (f.elemBytes rows len) with
      | .error e => .error e
      | .ok (bs, ps) => .ok { coarse := .pow2 0, vals := (List.range (rows * len)).map (fun i => f.decode (elemAt f.width bs i)), poisoned := ps }
    else
      match m.fetch p pane w 64 with
      | .error e => .error e
      | .ok (hd, p0) =>
        if !headerOk hd code f then .error cCvtInvalid
        else if 2 ^ 48 ≤ adOffset w + leAt hd 8 8 then .error cAddrRange
        else
          match m.fetch p pane (adPlus w 64) (f.elemBytes rows len), m.fetch p pane (adPlus w (leAt hd 8 8)) (f.blocks rows len) with
          | .ok (bs, p1), .ok (ex, p2) =>
            let pl := f.paddedLen len
            let val (i : Nat) : Fp :=
              let r := i / len
              let c := i % len
              let d := leAt ex (r * (pl / f.block) + c / f.block) 1
              if d = 0xFF then .nan else (f.decode (elemAt f.width bs (r * pl + c))).mulExact (.pow2 (-(d : Int)))
            .ok { coarse := f32 (leAt hd 0 4), vals := (List.range (rows * len)).map val, poisoned := p0 || p1 || p2 }
          | .error e, _ => .error e
          | _, .error e => .error e

/-- A value fitted to FP32 (R82): the FP32 code's value, saturated and flushed as 0 or 1. Under a COARSE that is no power of two a decode is not
exact; the model rounds it to nearest even, its own choice (log entry 64). -/
def fit32 (x : Fp) : Fp × Nat × Nat :=
  match x with
  | .fin s m e =>
    if magLt fp32.vmax.1 fp32.vmax.2 m e then (.fin s fp32.vmax.1 fp32.vmax.2, 1, 0)
    else
      let (m', e') := roundMag .nearest 23 fp32.emin m e
      (.fin s m' e', 0, b2n (m != 0 && m' == 0))
  | x => (x, 0, 0)

/-- Whether the first elements of rows, used i of row i, lie on a poisoned line: their bytes, the header and the fine exponents of their
blocks. -/
def Mach.rowsPoisoned (m : Mach) (p pane : Nat) (w : Word) (code rows len : Nat) (used : Nat → Nat) : Bool :=
  let hit (o n : Nat) : Bool := ((m.fetch p pane (adPlus w o) n).toOption.map (fun x => x.2)).getD false
  match fmtOf code with
  | none => false
  | some f =>
    let pl := f.paddedLen len
    let base := if f.block = 0 then 0 else 64
    let so := if f.block = 0 then 0 else (((m.fetch p pane w 64).toOption.map (fun x => leAt x.1 8 8)).getD 0)
    (f.block != 0 && hit 0 64) ||
    (List.range rows).any (fun i =>
      let lo := f.width * (i * pl) / 8
      hit (base + lo) ((f.width * (i * pl + used i) + 7) / 8 - lo) ||
      (f.block != 0 && hit (so + i * (pl / f.block)) (ceilDiv (used i) f.block)))

/-- A tensor decoded into FP32 for a vector command or a conversion (R82, R168): values, saturated, flushed. -/
def Tensor.decoded (t : Tensor) : List Fp × Nat × Nat :=
  let l := t.vals.map (fun x => fit32 (x.mulExact t.coarse))
  (l.map (fun y => y.1), (l.map (fun y => y.2.1)).sum, (l.map (fun y => y.2.2)).sum)

/-! ### Transom atomics (R395, R396) -/

/-- The element size of an ATOP; 0 for a plain store, none for a reserved code. -/
def atopSize : Nat → Option Nat
  | 0 => some 0
  | 1 => some 4
  | 2 => some 8
  | 3 => some 4
  | 4 => some 4
  | 5 => some 4
  | 6 => some 4
  | 7 => some 8
  | _ => none

/-- The word an atomic leaves, from the word before and the element. -/
def atopApply (op old new : Nat) : Nat :=
  if op = 1 then (old + new) % 2 ^ 32
  else if op = 2 then (old + new) % 2 ^ 64
  else if op = 3 then toF32 ((f32 old).add (f32 new))
  else if op = 4 then toF32 ((f32 old).max (f32 new))
  else if op = 5 then toF32 ((f32 old).min (f32 new))
  else if op = 6 then max old new
  else if op = 7 then old ||| new
  else new

/-- A byte string of elements applied with an atomic from a key (R395). -/
def atomics (op sz : Nat) : Nat → List Host.Cell → Nat → List Byte → List Host.Cell
  | 0, mem, _, _ => mem
  | n + 1, mem, k, bs =>
    if bs.isEmpty then mem
    else
      let v := atopApply op (ofLe (readBytes mem k sz)) (leAt bs 0 sz)
      atomics op sz n (writeBytes mem k (leBytes sz v)) (k + sz) (bs.drop sz)

/-- A write of a chunk under an ATOP: plain, or element by element; an atomic on a poisoned line leaves it poisoned. -/
def Mach.putAtop (m : Mach) (op : Nat) (c : Chunk) : Mach :=
  match atopSize op with
  | some 0 => m.putChunk c
  | some sz =>
    let m := { m with mem := atomics op sz (c.bytes.length / sz) m.mem c.key c.bytes }
    if c.poisoned then m.poisonLines c.key c.bytes.length else m
  | none => m

/-- The check of a destination of n bytes (R160, R395, R402): its pieces and its ATOP, or a code. Space 5 is the vector
input queue, space 4 a route whose SRC is the pane (R195); in neither is there an ATOP (R395). A route that ends at an island of class 3 or
above, where no transfer of a command has a meaning in the spec, gives ADDR_RANGE, the model's choice (log entry 72). -/
def Mach.destSegs (m : Mach) (p pane : Nat) (w : Word) (n : Nat) (hatch : Bool) : Except Nat (List (Nat × Nat) × Nat) :=
  match adSpace w with
  | 1 =>
    match atopSize (adAtop w) with
    | none => .error cAddrRange
    | some sz =>
      if sz ≠ 0 ∧ (adOffset40 w % sz ≠ 0 ∨ n % sz ≠ 0) then .error cAddrRange
      else match m.segs p (some pane) true w n with
        | some l => .ok (l, adAtop w)
        | none => .error cAddrRange
  | 4 =>
    if adAtop w ≠ 0 then .error cAddrRange
    else match m.conf.cfg.route (adRoute w) with
    | some e =>
      if leAt e 3 1 = p ∧ (hatch ∨ routeSrc e = pane) then
        (if (routeDst e < 4096 ∧ 2 ^ 22 < adOffset w + n) ∨ 2 < routeDst e / 4096 then .error cAddrRange else .ok ([], 0))
      else .error cAddrRange
    | none => .error cAddrRange
  | 5 => if adAtop w ≠ 0 then .error cAddrRange else .ok ([], 0)
  | _ =>
    match m.segs p (some pane) true w n with
    | some l => .ok (l, 0)
    | none => .error cAddrRange

end Sys2Proof.Machine
end

