-- ==== Sys2Proof/Machine/Convert.lean ====
section
/-! DEFINITION. Conversions (R53 to R98): the CVT word and its checks, the choice of the coarse scale, fine exponents, rounding, overflow, the bytes written and the counts, scale records. -/

namespace Sys2Proof.Machine

/-- SREC of a CVT word (R79). -/
def cvtSrec (w : Word) : Nat := bits w.toNat 63 40
/-- DST_FMT. -/
def cvtDst (w : Word) : Nat := bits w.toNat 39 36
/-- SRC_FMT. -/
def cvtSrc (w : Word) : Nat := bits w.toNat 35 32
/-- SCALE_SRC: 0 DELAYED, 1 CURRENT, 2 FIXED. -/
def cvtScale (w : Word) : Nat := bits w.toNat 31 30
/-- MARGIN. -/
def cvtMargin (w : Word) : Nat := bits w.toNat 29 27
/-- ROUND. -/
def cvtRound (w : Word) : Nat := bits w.toNat 26 25
/-- CLASS. -/
def cvtClass (w : Word) : Nat := bits w.toNat 24 23
/-- NONSAT. -/
def cvtNonsat (w : Word) : Bool := bitAt w.toNat 22
/-- A scale record is named. -/
def cvtNamed (w : Word) : Bool := cvtSrec w != 0xFFFFFF

/-- The destination format of a command: FP32 without a CVT word (R159, R168). -/
def dstFmt (w : Word) : Fmt := if w = 0 then fp32 else (fmtOf (cvtDst w)).getD fp32
/-- Whether the destination is a scaled format. -/
def cvtScaled (w : Word) : Bool := w != 0 && (dstFmt w).block != 0

/-- The key of the scale record a CVT word names (R79), if it lies in the partition's Transom space, outside the conduits' queues (R262). -/
def Mach.srecKey (m : Mach) (p : Nat) (w : Word) : Option Nat :=
  if m.conf.cfg.inQueue p (cvtSrec w * 128) 128 then none
  else match m.transomKey p (cvtSrec w * 128), m.transomKey p (cvtSrec w * 128 + 127) with
  | some k, some _ => some k
  | _, _ => none

/-- A positive normal power of two, or 0 (R72). The code of negative zero is no 0 here, the model's choice (log entry 76). -/
def initOk (c : Nat) : Bool := c == 0 || (!bitAt c 31 && bits c 22 0 == 0 && decide (1 ≤ bits c 30 23 ∧ bits c 30 23 ≤ 254))

/-- The checks of R80 and R72 on a CVT word, 0 where it passes. The source of a command's conversion is FP32; a SRC_FMT that names another
format fails no check that the spec states, and the model takes the word and converts FP32, its own choice (log entry 56). -/
def Mach.cvtCheck (m : Mach) (p : Nat) (w : Word) : Nat :=
  if w = 0 then cOk
  else if cvtDst w > 6 ∨ cvtSrc w > 6 ∨ cvtScale w = 3 ∨ cvtRound w = 3 ∨ bits w.toNat 21 0 ≠ 0 then cCvtInvalid
  else if !cvtNamed w then (if cvtScaled w && cvtScale w == 0 then cCvtInvalid else cOk)
  else match m.srecKey p w with
    | none => cCvtInvalid
    | some k =>
      let window := m.loadLe (k + 32) 1
      let lag := m.loadLe (k + 33) 1
      if !((lag == 1 && decide (1 ≤ window ∧ window ≤ 16)) || (lag == 2 && decide (1 ≤ window ∧ window ≤ 15))) then cCvtInvalid
      else if cvtScaled w && !initOk (m.loadLe (k + 4) 4) then cCvtInvalid
      else cOk

/-- Whether a DELAYED conversion of step n must wait for its record to roll (R77, R81). -/
def Mach.cvtWaits (m : Mach) (p : Nat) (w : Word) (n : Nat) : Bool :=
  cvtScaled w && cvtScale w == 0 && m.cvtCheck p w == cOk &&
  (match m.srecKey p w with
   | none => false
   | some k =>
     let need := stepSub n (m.loadLe (k + 33) 1)
     stepLe (m.loadLe (k + 36) 4) need &&
     !(bitAt (m.loadLe (k + 34) 1) 0 && stepLe need (m.loadLe (k + 28) 4)))

/-- The smallest k with a ≤ Vmax × 2^k: ⌈log2(A / Vmax)⌉ (R70). -/
def ceilLog2Ratio (a : Fp) (f : Fmt) : Int :=
  let (vm, ve) := f.vmax
  let k0 := a.expo - ((log2 vm : Int) + ve)
  match a with
  | .fin _ m e => if magLt vm (ve + k0) m e then k0 + 1 else if magLt vm (ve + k0 - 1) m e then k0 else k0 - 1
  | _ => 0

/-- S = 2^k from a maximum A (R70), or INIT (0 means 1.0) where A is 0. -/
def scaleOf (a : Fp) (f : Fmt) (margin init : Nat) : Fp :=
  let s0 := if init = 0 then Fp.pow2 0 else f32 init
  if a.isZero then s0
  else .pow2 (max (-126) (min 127 (ceilLog2Ratio a f + (margin : Int))))

/-- INIT of the record a CVT word names; 0, that is 1.0, where none is named (R70, R72). -/
def Mach.cvtInit (m : Mach) (p : Nat) (w : Word) : Nat :=
  if cvtNamed w then ((m.srecKey p w).map (fun k => m.loadLe (k + 4) 4)).getD 0 else 0

/-- A of a DELAYED conversion of step n: the largest HIST over the window of R74; 0 where the window is empty. -/
def Mach.delayedMax (m : Mach) (k n : Nat) : Fp :=
  let window := m.loadLe (k + 32) 1
  let lag := m.loadLe (k + 33) 1
  let base := m.loadLe (k + 36) 4
  let last := stepSub n lag
  let ts := ((List.range window).map (fun i => stepSub last i)).filter (fun t => stepLe base t && stepLe t last)
  (ts.map (fun t => f32 (m.loadLe (k + 64 + 4 * (t % 16)) 4))).foldl Fp.max .zero

/-- The coarse scale of a conversion of step n whose command's own maximum is amax (R70, R81). -/
def Mach.coarseScale (m : Mach) (p : Nat) (w : Word) (n : Nat) (amax : Fp) : Fp :=
  if !cvtScaled w then .pow2 0
  else
    let init := m.cvtInit p w
    match cvtScale w with
    | 0 => scaleOf (match m.srecKey p w with
                    | some k => m.delayedMax k n
                    | none => .zero) (dstFmt w) (cvtMargin w) init
    | 1 => scaleOf amax (dstFmt w) (cvtMargin w) init
    | _ => if init = 0 then .pow2 0 else f32 init

/-- The largest finite magnitude of a list of values (R70, R75, R90). -/
def maxFinite (xs : List Fp) : Fp := (xs.filter (fun x => x.finite)).foldl (fun a x => a.max x.abs) .zero

/-- The fine exponent of a block: the largest d from 0 to 254 with a × 2^d ≤ Vmax, 0 where there is none (R67). -/
def fineExp (f : Fmt) (a : Fp) : Nat :=
  if a.isZero then 0 else min 254 (-(ceilLog2Ratio a f)).toNat

/-- One element converted (R83 to R88): its code and its counts. z is the scaled value; r its random word. -/
def cvtElem (f : Fmt) (mode : RMode) (nonsat : Bool) (z : Fp) : Nat × CvtCounts :=
  match z with
  | .nan => (f.nanCode, ⟨0, 0, 1, true⟩)
  | .inf s =>
    if f.hasInf then (f.encode (.inf s), ⟨0, 0, 1, false⟩)
    else (f.nanCode, ⟨0, 0, 1, true⟩)
  | .fin s m e =>
    let (vm, ve) := f.vmax
    if magLt vm ve m e then
      let top := f.encode (.fin s vm ve)
      if nonsat && mode != .toZero && f.hasInf then (f.encode (.inf s), ⟨1, 0, 0, false⟩)
      else if nonsat && mode != .toZero && f.hasNan then (f.nanCode, ⟨1, 0, 0, true⟩)
      else (top, ⟨1, 0, 0, false⟩)
    else
      let (m', e') := roundMag mode f.mb f.emin m e
      (f.encode (.fin s m' e'), ⟨0, b2n (m != 0 && m' == 0), 0, false⟩)

/-- The rounding of element i of a command (R83, R84): stochastic for ROUND = 2 and for every gradient. -/
def cvtMode (w : Word) (seed : Word) (i : Nat) : RMode :=
  if cvtRound w = 2 ∨ cvtClass w = 2 then .stochastic (rng16 seed 1 i)
  else if cvtRound w = 1 then .toZero else .nearest

/-- One block of a scaled output (R67, R88, R89): fine exponent byte, codes, counts. i0 is the linear index of its first
element. -/
def cvtBlock (w seed : Word) (f : Fmt) (s : Fp) (i0 : Nat) (xs : List Fp) : Nat × List Nat × CvtCounts :=
  let k := s.expo
  let scaled := xs.map (fun x => x.mulExact (.pow2 (-k)))
  let d := fineExp f (maxFinite scaled)
  let bad := (xs.filter (fun x => !x.finite)).length
  if !f.hasNan && bad != 0 then (0xFF, xs.map (fun _ => 0), ⟨0, 0, bad, true⟩)
  else
    let es := (scaled.zipIdx).map (fun p => cvtElem f (cvtMode w seed (i0 + p.2)) (cvtNonsat w) (p.1.mulExact (.pow2 (d : Int))))
    (d, es.map (fun e => e.1), (es.map (fun e => e.2)).foldl CvtCounts.add .zero)

/-- The rows of a list. -/
def rowsOf (len : Nat) : Nat → List Fp → List (List Fp)
  | 0, _ => []
  | n + 1, xs => xs.take len :: rowsOf len n (xs.drop len)

/-- The blocks of a row. -/
def blocksOf (b : Nat) : Nat → List Fp → List (List Fp)
  | 0, _ => []
  | n + 1, xs => xs.take b :: blocksOf b n (xs.drop b)

/-- The bytes of a converted tensor and its counts (R61, R67 to R91). dec carries the counts of decoding its source
(R82). The bytes between the end of the elements and SCALE_OFFSET are 0, the model's choice (log entry 73). -/
def convert (w seed : Word) (s : Fp) (rows len : Nat) (xs : List Fp) (dec : CvtCounts) : List Byte × CvtCounts :=
  if w = 0 then (packElems 32 (xs.map toF32), .zero)
  else
    let f := dstFmt w
    if f.block = 0 then
      let es := (xs.zipIdx).map (fun p => cvtElem f (cvtMode w seed p.2) (cvtNonsat w) p.1)
      let c := (es.map (fun e => e.2)).foldl CvtCounts.add dec
      (packElems f.width (es.map (fun e => e.1)), c)
    else
      let nb := f.paddedLen len / f.block
      let bl := ((rowsOf len rows xs).zipIdx).flatMap (fun r =>
        ((blocksOf f.block nb r.1).zipIdx).map (fun b => cvtBlock w seed f s (r.2 * len + b.2 * f.block) b.1))
      let c := (bl.map (fun b => b.2.2)).foldl CvtCounts.add dec
      let codes := bl.flatMap (fun b => b.2.1 ++ List.replicate (f.block - b.2.1.length) 0)
      let body := packElems f.width codes
      let so := f.scaleOffset rows len
      let hd := leBytes 4 (toF32 s) ++ leBytes 1 (cvtDst w) ++ leBytes 1 f.block ++ leBytes 1 c.flags ++ leBytes 1 0 ++ leBytes 8 so ++ leBytes 48 0
      (hd ++ body ++ List.replicate (so - 64 - body.length) 0 ++ bl.map (fun b => BitVec.ofNat 8 b.1), c)

/-- A step has used a scale record (R76). -/
def Mach.useRecord (m : Mach) (p srec n : Nat) : Mach :=
  if m.core.usedRecs.contains (p, srec, n) then m
  else { m with core := { m.core with usedRecs := m.core.usedRecs ++ [(p, srec, n)] } }

/-- The running maximum and the counts of a conversion join its scale record (R75, R91); COARSE after a DELAYED one
(R73). -/
def Mach.updateRecord (m : Mach) (p : Nat) (w : Word) (n : Nat) (s amax : Fp) (c : CvtCounts) : Mach :=
  if w = 0 ∨ !cvtNamed w then m
  else match m.srecKey p w with
    | none => m
    | some k =>
      let o := if n % 2 = 0 then k + 8 else k + 12
      let m := m.useRecord p (cvtSrec w) n
      let m := { m with mem := writeBytes m.mem o (leBytes 4 (toF32 ((f32 (m.loadLe o 4)).max amax))) }
      let m := if cvtScaled w && cvtScale w == 0 then { m with mem := writeBytes m.mem k (leBytes 4 (toF32 s)) } else m
      m.addRecordCvt k c

/-- The elements of written output bytes as FP32 codes, as the watch unit decodes them (R530). -/
def outCodes (w : Word) (rows len : Nat) (bs : List Byte) : List Nat :=
  let f := dstFmt w
  if f.block = 0 then (List.range (rows * len)).map (fun i => toF32 (f.decode (elemAt f.width bs i)))
  else
    let pl := f.paddedLen len
    let so := leAt bs 8 8
    (List.range (rows * len)).map (fun i =>
      let r := i / len
      let c := i % len
      let d := leAt bs (so + r * (pl / f.block) + c / f.block) 1
      if d = 0xFF then toF32 .nan
      else toF32 (fit32 (((f.decode (elemAt f.width (bs.drop 64) (r * pl + c))).mulExact (.pow2 (-(d : Int)))).mulExact (f32 (leAt bs 0 4)))).1)

/-- The roll of a scale record at the boundary of step s (R76). -/
def Mach.rollRecord (m : Mach) (k s : Nat) : Mach :=
  let o := if s % 2 = 1 then k + 12 else k + 8
  let h := m.loadLe o 4
  let mem := writeBytes m.mem (k + 64 + 4 * (s % 16)) (leBytes 4 h)
  let mem := writeBytes mem o (leBytes 4 0)
  let mem := writeBytes mem (k + 28) (leBytes 4 s)
  let mem := writeBytes mem (k + 34) (leBytes 1 (ofLe (readBytes mem (k + 34) 1) ||| 1))
  { m with mem := mem }

/-- The roll of every scale record that step s of a partition used (R76). -/
def Mach.rollRecords (m : Mach) (p s : Nat) : Mach :=
  let mine := m.core.usedRecs.filter (fun u => u.1 == p && u.2.2 == s)
  let m := mine.foldl (fun m u => match m.transomKey p (u.2.1 * 128) with
    | some k => m.rollRecord k s
    | none => m) m
  { m with core := { m.core with usedRecs := m.core.usedRecs.filter (fun u => !(u.1 == p && u.2.2 == s)) } }

end Sys2Proof.Machine
end

