-- ==== Sys2Proof/Machine/LintelOps.lean ====
section
/-! DEFINITION. The Lintel cores (R143 to R155): instruction fields and guards, registers of a stream, retirement, exceptions, waits, command issue, launches. -/

namespace Sys2Proof.Machine

/-! ### Instruction words (R147) -/

/-- The formats of R147. -/
inductive InsnFmt where
  | rr | ri | mem | br | c
deriving DecidableEq, Repr

/-- The class of an instruction: opcode bits [31:29]. -/
def inClass (w : InsnWord) : Nat := bits w.toNat 31 29
/-- The pred field of an instruction in its format. -/
def inPred (f : InsnFmt) (w : InsnWord) : Nat :=
  match f with
  | .rr => bits w.toNat 8 5
  | .ri => bits w.toNat 13 10
  | .mem => bits w.toNat 15 12
  | .br => bits w.toNat 23 20
  | .c => bits w.toNat 20 17
/-- rd of RR, RI and M. -/
def inRd (w : InsnWord) : Nat := bits w.toNat 23 19
/-- rs1 of RR and RI. -/
def inRs1 (w : InsnWord) : Nat := bits w.toNat 18 14
/-- rs2 of RR. -/
def inRs2 (w : InsnWord) : Nat := bits w.toNat 13 9
/-- imm of RI, signed. -/
def inImm (w : InsnWord) : Int := signed 10 (bits w.toNat 9 0)
/-- a of M. -/
def inMemA (w : InsnWord) : Nat := bits w.toNat 18 16
/-- offset of M in bytes. -/
def inMemOff (w : InsnWord) : Int := signed 12 (bits w.toNat 11 0) * 8
/-- offset of B in instructions. -/
def inBrOff (w : InsnWord) : Int := signed 20 (bits w.toNat 19 0)
/-- a, rs and imm of C. -/
def inCmdA (w : InsnWord) : Nat := bits w.toNat 23 21
def inCmdRs (w : InsnWord) : Nat := bits w.toNat 16 12
def inCmdImm (w : InsnWord) : Nat := bits w.toNat 11 0

/-! ### Registers of a stream (R143) -/

/-- A scalar register; s0 reads 0. -/
def Stream.sreg (x : Stream) (i : Nat) : Word := if i = 0 then 0 else Tbl.get 0 x.s i
/-- A scalar register written; writes to s0 are discarded. -/
def Stream.setS (x : Stream) (i : Nat) (v : Word) : Stream := if i = 0 then x else { x with s := Tbl.set 0 x.s i v }
/-- An address register; a register field of 8 to 31 is taken modulo 8, the model's choice (log entry 60), here and for p registers. -/
def Stream.areg (x : Stream) (i : Nat) : Word := Tbl.get 0 x.a (i % 8)
/-- An address register written (field modulo 8, log entry 60). -/
def Stream.setA (x : Stream) (i : Nat) (v : Word) : Stream := { x with a := Tbl.set 0 x.a (i % 8) v }
/-- A predicate register; p0 reads 1 (field modulo 8, log entry 60). -/
def Stream.preg (x : Stream) (i : Nat) : Bool := if i % 8 = 0 then true else bitAt x.p (i % 8)
/-- A predicate register written; writes to p0 are discarded (field modulo 8, log entry 60). -/
def Stream.setP (x : Stream) (i : Nat) (v : Bool) : Stream :=
  if i % 8 = 0 then x else { x with p := putBits x.p (i % 8) (i % 8) (b2n v) }
/-- The guard of an instruction (R148). -/
def Stream.guard (x : Stream) (pred : Nat) : Bool := x.preg (pred % 8) != bitAt pred 3

/-! ### Stream state (R155) -/

/-- States of a stream. -/
def ssIdle : Nat := 0
def ssRun : Nat := 1
def ssWait : Nat := 2
def ssFault : Nat := 3
/-- STATE of a stream of a pane. -/
def Mach.sstate (m : Mach) (pane n : Nat) : Nat := m.fld R.PNE_STREAM_STATE [pane, n]
/-- PC of a stream. -/
def Mach.pc (m : Mach) (pane n : Nat) : Nat := m.fld R.PNE_STREAM_PC [pane, n]
/-- The registers of a stream. -/
def Mach.stream (m : Mach) (pane n : Nat) : Stream := (m.pane pane).stream n
/-- The registers of a stream replaced. -/
def Mach.setStream (m : Mach) (pane n : Nat) (x : Stream) : Mach := m.setPane pane ((m.pane pane).setStream n x)

/-- A trace record of an instruction event (R522). -/
def Mach.traceInsn (m : Mach) (pane n ty code arg : Nat) : Mach :=
  let x := m.stream pane n
  m.trace (m.paneOwner pane) pane ty n (m.pc pane n) x.llayer x.lop code 0 x.lstep arg

/-- A stream enters a state, with its trace record. -/
def Mach.setSstate (m : Mach) (pane n st : Nat) : Mach :=
  (m.setFlds [pane, n] [(R.PNE_STREAM_STATE, st), (R.PNE_STREAM_WAIT_ON, 0), (R.PNE_STREAM_TOKEN, 0)]).traceInsn pane n 6 st 0

/-- Whether the core of a pane may retire an instruction now: the module runs, its partition is ACTIVE, PAUSED or
DRAINING, no slice switch is pending, and neither Shutter nor failure holds the island. -/
def Mach.mayIssue (m : Mach) (pane : Nat) : Bool :=
  let p := m.paneOwner pane
  m.running && p != 0 && (m.pstate p == psActive || m.pstate p == psPaused || m.pstate p == psDraining) &&
  !m.core.failed.contains pane && !m.core.stopped.contains pane && !m.shut p &&
  !(m.conf.cfg.shared p && (Tbl.get 0 m.part.switching (m.conf.cfg.groupOf p)) != 0)

/-- Whether a LOSSLESS trace holds back an instruction of a stream (R528). -/
def Mach.insnBlocks (m : Mach) (pane n ty : Nat) : Bool :=
  let x := m.stream pane n
  m.traceBlocks pane 11 n x.llayer x.lop || m.traceBlocks pane ty n x.llayer x.lop

/-- An instruction retires: traced, and the PC moves on, in its 14 bits: past index 16,383 it wraps to 0, the model's choice (log entry 59). -/
def Mach.retire (m : Mach) (pane n : Nat) (w : InsnWord) (next : Nat) : Mach :=
  (m.traceInsn pane n 11 0 w.toNat).setFld R.PNE_STREAM_PC [pane, n] (next % 2 ^ 14)

/-- An instruction exception (R155, R166, R167, R519): PNE_EXC, the stream to FAULT, a CORRECTED record, trace, trigger and count.
INFO of an exception other than TRAP is left open (log entry 13). -/
def Mach.exception (m : Mach) (pane n code info : Nat) : Mach :=
  let pc := m.pc pane n
  let m := m.excWrite pane n code pc info
  let m := m.traceInsn pane n 7 code 0
  let m := m.setSstate pane n ssFault
  let m := (m.triggerException (m.paneOwner pane) pane code).count (m.paneOwner pane) pane 5 1
  m.place (ErrRec.mk0 sevCorrected (m.paneOwner pane) ecException (isl 0 pane) code 0)

/-- An exception whose INFO the spec leaves open. -/
def Mach.exceptionFree (m : Mach) (pane n code : Nat) : Mach :=
  (m.exception pane n code (m.free.toNat % 2 ^ 24)).drew

/-- The instruction a stream is at, where its core may retire one: none beyond the code (R145). -/
def Mach.insnAt (m : Mach) (pane n : Nat) : Option InsnWord := (m.pane pane).code[m.pc pane n]?

/-- One instruction of a class and format on a running stream: a fetch beyond the code raises ILLEGAL_INSN, a word of
another class is no event of this row, a false guard retires with no effect (R145, R148), else act runs. -/
def Mach.insn (m : Mach) (pane : Nat) (n cls : Nat) (f : InsnFmt) (ty : Nat) (act : Mach → InsnWord → Mach) : Mach :=
  if m.sstate pane n ≠ ssRun ∨ !m.mayIssue pane ∨ m.insnBlocks pane n ty then m
  else match m.insnAt pane n with
    | none => m.exceptionFree pane n cIllegal
    | some w =>
      if inClass w ≠ cls then m
      else if !(m.stream pane n).guard (inPred f w) then m.retire pane n w (m.pc pane n + 1)
      else act m w

/-- An instruction that changes the stream's registers only. -/
def Mach.insnRegs (m : Mach) (pane n cls : Nat) (f : InsnFmt) (act : Stream → InsnWord → Stream) : Mach :=
  m.insn pane n cls f 11 (fun m w =>
    (m.setStream pane n (act (m.stream pane n) w)).retire pane n w (m.pc pane n + 1))

/-- A stream waits (R155): WAIT_ON 1 token, 2 to 4 queues, 5 fence. -/
def Mach.waitOn (m : Mach) (pane n on tok : Nat) : Mach :=
  ((m.setStream pane n { m.stream pane n with since := m.now }).setSstate pane n ssWait).setFlds [pane, n] [(R.PNE_STREAM_WAIT_ON, on), (R.PNE_STREAM_TOKEN, tok)]

/-! ### Integer, FP32, address and predicate operations (R149, R150) -/

/-- The operations of class 0 (R150). A division truncates toward zero, the model's choice (log entry 83). A shift by 64 or more, which the spec does not state, gives a free value of its operands. -/
def intOp (op : IntOp) (a b : Word) : Word :=
  match op with
  | .add => a + b
  | .sub => a - b
  | .mul => a * b
  | .div => BitVec.ofInt 64 (Int.tdiv a.toInt b.toInt)
  | .shl => if b.toNat < 64 then a <<< b.toNat else Config.openResult 0 a b
  | .shr => if b.toNat < 64 then a >>> b.toNat else Config.openResult 1 a b
  | .sar => if b.toNat < 64 then a.sshiftRight b.toNat else Config.openResult 2 a b
  | .and => a &&& b
  | .or => a ||| b
  | .xor => a ^^^ b
  | .min => if a.slt b then a else b
  | .max => if a.slt b then b else a
  | .move => b

/-- FP32 to integer: to nearest even; the spec states no result for NaN, an infinity or a value outside 64 bits, which is a free value of the
operand. -/
def fpToInt (x : Fp) : Word :=
  let fr := Config.openResult 3 (BitVec.ofNat 64 (toF32 x)) 0
  match x with
  | .fin s mag e =>
    let n : Nat := if 0 ≤ e then mag <<< e.toNat
                   else
                     let k := (-e).toNat
                     let q := mag >>> k
                     let rem := mag % 2 ^ k
                     if 2 ^ k < 2 * rem ∨ (2 * rem = 2 ^ k ∧ q % 2 = 1) then q + 1 else q
    let i : Int := if s then -(n : Int) else n
    if -(2 : Int) ^ 63 ≤ i ∧ i < (2 : Int) ^ 63 then BitVec.ofInt 64 i else fr
  | _ => fr

/-- The operations of class 1 on the low 32 bits of scalar registers. That a result clears the upper 32 bits of rd, and that a compare writes
0 or 1 into a scalar register, is the model's choice (log entry 61); so is rd as the third operand of FMA (log entry 81). -/
def fpOp (op : FpOp) (a b c : Word) : Word :=
  let x := f32 a.toNat
  let y := f32 b.toNat
  let w (n : Nat) : Word := BitVec.ofNat 64 n
  match op with
  | .add => w (toF32 (x.add y))
  | .mul => w (toF32 (x.mul y))
  | .fma => w (toF32 (x.fma y (f32 c.toNat)))
  | .cmpEq => w (b2n (x.eq y))
  | .cmpLt => w (b2n (x.lt y))
  | .cmpLe => w (b2n (x.lt y || x.eq y))
  | .toInt => fpToInt x
  | .ofInt => w (toF32 (round32 .nearest (Fp.ofInt a.toInt)))

/-- The operations of class 2 that write an address register: its old value and the operand. Adding moves OFFSET within its 48 bits and leaves
the other fields, the model's choice (log entry 82). -/
def addrOp (op : AddrOp) (a v : Word) : Word :=
  match op with
  | .add => BitVec.ofNat 64 (bits a.toNat 63 48 * 2 ^ 48 + (bits a.toNat 47 0 + v.toNat) % 2 ^ 48)
  | .setSpace => BitVec.ofNat 64 (putBits a.toNat 63 60 v.toNat)
  | .setRoute => BitVec.ofNat 64 (putBits a.toNat 59 48 v.toNat)
  | .setOffset => BitVec.ofNat 64 (putBits a.toNat 47 0 v.toNat)
  | .ofScalar => v
  | .toScalar => a

/-- The compares of class 3. -/
def predCmp (op : PredOp) (a b : Word) : Bool :=
  match op with
  | .eq => a == b
  | .ne => a != b
  | .lt => a.slt b
  | .le => a.sle b
  | .ltu => a.ult b
  | .leu => a.ule b
  | _ => false

/-- The logic of class 3. -/
def predLogic (op : PredOp) (a b : Bool) : Bool :=
  match op with
  | .and => a && b
  | .or => a || b
  | .xor => a != b
  | .not => !a
  | _ => false

/-- Whether an operation of class 3 is a compare. -/
def predIsCmp (op : PredOp) : Bool :=
  match op with
  | .eq | .ne | .lt | .le | .ltu | .leu => true
  | _ => false

/-- An immediate as a word. -/
def immWord (w : InsnWord) : Word := BitVec.ofInt 64 (inImm w)
/-- The second source of an instruction of form RI (imm) or RR. -/
def src2 (imm : Bool) (x : Stream) (w : InsnWord) : Word := if imm then immWord w else x.sreg (inRs2 w)
/-- RI or RR. -/
def fmtOfImm (imm : Bool) : InsnFmt := if imm then .ri else .rr

/-! ### Loads and stores (R151) -/

/-- The offset a load or store names, or its exception code. -/
def memAddr (range : Nat) (a : Word) (off : Int) : Except Nat Nat :=
  let o : Int := (adOffset a : Int) + off
  if adSpace a ≠ 0 ∨ o < 0 ∨ (2 : Int) ^ 22 < o + 8 then .error range
  else if o.toNat % 8 ≠ 0 then .error cMisaligned
  else .ok o.toNat

/-! ### Commands of a stream (R152, R158, R162) -/

/-- Whether a command that a stream issued has neither completed nor failed (R152). -/
def Mach.outstanding (m : Mach) (pane n : Nat) : Bool :=
  let p := m.pane pane
  (p.mq ++ p.vq ++ p.cq ++ (p.mruns ++ p.vrun.toList ++ p.cruns ++ p.split).map (fun r => r.cmd)).any (fun q =>
    match q.src with
    | .core k _ => k == n
    | .hatch _ _ _ => false)

/-- The engine of a KIND. -/
def engineOf (k : Nat) : Option EngineId :=
  if k = 0 then some .matrix else if k = 1 then some .vector else if k = 2 then some .copy else none

/-- A command accepted into a queue of a pane. -/
def Mach.enqueue (m : Mach) (pane : Nat) (e : EngineId) (q : QCmd) : Mach :=
  let p := m.pane pane
  (m.setPane pane (p.setQueue e (p.queue e ++ [q]))).queueSync pane

/-- The descriptor a CMD issues (R152, R158): STEP from rs unless it is s0, STREAM and SEAL by the module. -/
def cmdDesc (d : Desc) (x : Stream) (rs n issued : Nat) : Desc :=
  let w0 := if rs = 0 then d.w0.toNat else putBits d.w0.toNat 31 0 (x.sreg rs).toNat
  { d with w0 := BitVec.ofNat 64 w0, w1 := BitVec.ofNat 64 (putBits d.w1.toNat 59 58 n),
           w7 := BitVec.ofNat 64 (putBits d.w7.toNat 63 32 (issued + 1)) }

/-- The cycles that a stream has waited, in thousandths, at the present clock of its island. -/
def Mach.waited (m : Mach) (pane k : Nat) : Nat := (m.now - (m.stream pane k).since) * m.fld R.PNE_CLOCK_ACTUAL_MHZ [pane]
/-- Of two streams with their waits, whether k issues before n (R153, R154): a wait of 32 cycles goes ahead of the priority order, the longer
one first, F, B, U among equals. -/
def Mach.issuesBefore (m : Mach) (pane k wk n wn : Nat) : Bool :=
  let prio := [m.fld R.PNE_STREAM_PRIO_FIRST [pane], m.fld R.PNE_STREAM_PRIO_SECOND [pane], m.fld R.PNE_STREAM_PRIO_THIRD [pane]]
  if 32000 ≤ wk ∨ 32000 ≤ wn then decide (wn < wk ∨ (wk = wn ∧ k < n)) else (prio.takeWhile (fun j => j != n)).contains k
/-- Whether another stream of the pane that waits on a queue takes its next slot before stream n, which has waited wn (R162, R183), or a hatch
does, which ranks below the streams but for a wait of 32 cycles (R466). -/
def Mach.queueRival (m : Mach) (pane n : Nat) (e : EngineId) (wn : Nat) : Bool :=
  decide (32000 ≤ m.hatchWaited pane e.num ∧ wn < m.hatchWaited pane e.num) ||
  (List.range 3).any (fun k => k != n && m.sstate pane k == ssWait && m.fld R.PNE_STREAM_WAIT_ON [pane, k] == 2 + e.num &&
    m.issuesBefore pane k (m.waited pane k) n wn)

/-- CMD on a stream that may retire it, after a wait wn: the descriptor enters the queue of its KIND, the stream waits on a full queue, a KIND
without a queue fails with DESC_INVALID (R152, R161, R166). A descriptor address outside the pane store or not on 8 bytes raises LOAD_RANGE or
MISALIGNED, the model's choice (log entry 74). -/
def Mach.cmdIssue (m : Mach) (pane n wn : Nat) (w : InsnWord) : Mach :=
  let x := m.stream pane n
  match memAddr cLoadRange (x.areg (inCmdA w)) (inCmdImm w * 64) with
  | .error c => m.exceptionFree pane n c
  | .ok o =>
    if 2 ^ 22 < o + 64 then m.exceptionFree pane n cLoadRange
    else
      let issued := m.fld R.PNE_STREAM_ISSUED [pane, n]
      let d := cmdDesc (Desc.ofBytes (m.load (paneKey pane o) 64)) x (inCmdRs w) n issued
      let q := QCmd.of d (.core n (m.pc pane n)) (m.paneOwner pane) x.areg
      let done (m : Mach) : Mach :=
        ((m.addWrap R.PNE_STREAM_ISSUED [pane, n] 1).traceCmd pane 1 q 0 false).retire pane n w (m.pc pane n + 1)
      match engineOf d.kind with
      | none => (done m).failCmd pane q cDescInvalid
      | some e =>
        if ((m.pane pane).queue e).length < queueSize e ∧ !m.queueRival pane n e wn then done (m.enqueue pane e q)
        else m.waitOn pane n (2 + e.num) 0

/-- The token an instruction names: its imm, not reduced (R10). One above 63 names no token. -/
def inToken (w : InsnWord) : Nat := bits w.toNat 9 0
/-- A token instruction on a stream that may retire it. One that names no token is rejected with ILLEGAL_INSN, the model's choice: R10 rejects
it as the chapter states, and the chapter states no code (log entry 62). -/
def Mach.tokenInsn (m : Mach) (pane n : Nat) (w : InsnWord) (act : Nat → Mach) : Mach :=
  if 63 < inToken w then m.exceptionFree pane n cIllegal else act (inToken w)

/-- WAITT on a stream that may retire it (R152, R155). -/
def Mach.waitToken (m : Mach) (pane n : Nat) (w : InsnWord) : Mach :=
  m.tokenInsn pane n w (fun t =>
  let k := (m.pane pane).token t
  if k.count = 0 then m.waitOn pane n 1 t
  else
    let m := m.setPane pane ((m.pane pane).setToken t { k with count := k.count - 1 })
    (m.traceInsn pane n 9 t (k.count - 1)).retire pane n w (m.pc pane n + 1))

/-- FENCE on a stream that may retire it (R152). -/
def Mach.fenceInsn (m : Mach) (pane n : Nat) (w : InsnWord) : Mach :=
  if m.outstanding pane n then m.waitOn pane n 5 0 else m.retire pane n w (m.pc pane n + 1)

/-- The waiting instruction of a stream tried again (R155): nothing happens while its condition holds. -/
def Mach.waitCleared (m : Mach) (pane n : Nat) : Mach :=
  if m.sstate pane n ≠ ssWait ∨ !m.mayIssue pane ∨ m.insnBlocks pane n 10 then m
  else match m.insnAt pane n with
    | none => m
    | some w =>
      let on := m.fld R.PNE_STREAM_WAIT_ON [pane, n]
      let ready := if on = 1 then ((m.pane pane).token (inToken w)).count != 0
                   else if on = 5 then !m.outstanding pane n
                   else match engineOf (on - 2) with
                     | some e => decide (((m.pane pane).queue e).length < queueSize e) && !m.queueRival pane n e (m.waited pane n)
                     | none => false
      if on = 1 && ((m.pane pane).token (inToken w)).poison then m.exceptionFree pane n cDepFailed
      else if !ready then m
      else
        let wn := m.waited pane n
        let m := (m.setSstate pane n ssRun).traceInsn pane n 10 0 0
        if on = 1 then m.waitToken pane n w
        else if on = 5 then m.fenceInsn pane n w
        else m.cmdIssue pane n wn w

/-! ### Launches (R155, R161) -/

/-- A launch reaches one stream of one pane: false where the stream is in RUN or WAIT (STREAM_BUSY). PC takes the low 14 bits of ENTRY, the
model's choice (log entry 59). -/
def Mach.launchStream (m : Mach) (pane n : Nat) (d : Desc) : Mach × Bool :=
  let st := m.sstate pane n
  if st = ssRun ∨ st = ssWait then (m, false)
  else
    let v := m.fld R.PNE_EXC_VALID [pane]
    let m := if st = ssFault ∧ bitAt v n then m.setFld R.PNE_EXC_VALID [pane] (v - 2 ^ n) else m
    let x := (m.stream pane n).setS 1 (BitVec.ofNat 64 d.step)
    let x := x.setS 2 (BitVec.ofNat 64 (d.layer * 2 ^ 16 + d.opId))
    let m := m.setStream pane n { x with calls := [], lstep := d.step, llayer := d.layer, lop := d.opId }
    let m := m.setFld R.PNE_STREAM_PC [pane, n] (bits d.w5.toNat 63 48)
    let m := m.traceInsn pane n 5 0 0
    (m.setSstate pane n ssRun, true)

end Sys2Proof.Machine
end

