-- ==== Sys2Proof/Machine/TrainOps.lean ====
section
/-! DEFINITION. The training window of a partition (R284 to R311): START and its checks, slots, buckets, the gate, the arithmetic of the update, the boundary record. -/

namespace Sys2Proof.Machine

/-! ### States, codes and lookups -/

/-- STATE of a window (R288). -/
def tsStopped : Nat := 0
def tsRunning : Nat := 1
def tsStopping : Nat := 2
/-- CODE values (R323). -/
def tcBusy : Nat := 1
def tcTstate : Nat := 2
def tcTable : Nat := 3
def tcSched : Nat := 4
def tcAxis : Nat := 5
def tcFloor : Nat := 6
def tcExportNone : Nat := 7
def tcHostWrite : Nat := 8
def tcAbandoned : Nat := 9

/-- A training window beside its registers. -/
def Mach.train (m : Mach) (p : Nat) : Train := Tbl.get Train.init m.trains p
/-- A training window replaced. -/
def Mach.setTrain (m : Mach) (p : Nat) (t : Train) : Mach := { m with trains := Tbl.set Train.init m.trains p t }
/-- STATE of a partition's window. -/
def Mach.tstate (m : Mach) (p : Nat) : Nat := m.fld R.COL_TSTATE_STATE [p]
/-- CODE of a window written. -/
def Mach.setTcode (m : Mach) (p code : Nat) : Mach := m.setFld R.COL_TSTATE_CODE [p] code
/-- A window enters a state, with its event vector (R472). -/
def Mach.setTstate (m : Mach) (p st : Nat) : Mach := (m.setFld R.COL_TSTATE_STATE [p] st).vfVector p 7
/-- CLOSED of a window. -/
def Mach.tclosed (m : Mach) (p : Nat) : Nat := m.fld R.COL_TSTATE_CLOSED [p]
/-- SIZE of an axis: 0 means 1 (R315). -/
def Mach.axisSize (m : Mach) (p a : Nat) : Nat := max 1 (m.fld R.COL_TAXIS_SIZE [p, a])

/-- An open step of a window. -/
def Mach.tstep (m : Mach) (p s : Nat) : Option TStep := (m.train p).steps.find? (fun t => t.step == s)
/-- An open step replaced. -/
def Mach.setTstep (m : Mach) (p : Nat) (t : TStep) : Mach :=
  let w := m.train p
  m.setTrain p { w with steps := w.steps.map (fun x => if x.step = t.step then t else x) }
/-- A window is frozen while its partition is PAUSED (R288) or stopped (R544), or the module does not run. -/
def Mach.tfrozen (m : Mach) (p : Nat) : Bool := m.pstate p == psPaused || !m.running || m.shut p

/-! ### The update table (R299) -/

/-- Fields of an entry. -/
def ueLayer (e : List Byte) : Nat := leAt e 0 2
def ueStage (e : List Byte) : Nat := leAt e 2 2
def ueRule (e : List Byte) : Nat := leAt e 4 1
def ueClip (e : List Byte) : Bool := bitAt (leAt e 5 1) 0
def ueDecay (e : List Byte) : Bool := bitAt (leAt e 5 1) 1
def ueToken (e : List Byte) : Nat := leAt e 6 1
def ueCount (e : List Byte) : Nat := leAt e 8 4
def ueHparam (e : List Byte) : Nat := leAt e 12 4
def ueW (e : List Byte) : Nat := leAt e 16 6
def ueG (e : List Byte) : Nat := leAt e 24 6
def ueM (e : List Byte) : Nat := leAt e 32 6
def ueD (e : List Byte) : Nat := leAt e 40 6
def ueFallback (e : List Byte) : Nat := leAt e 48 6
def ueBucket (e : List Byte) : Nat := leAt e 56 2
/-- The LO plane and the second moments (R297, R299). -/
def ueLo (e : List Byte) : Nat := ueW e + roundUp (2 * ueCount e) 64
def ueM2 (e : List Byte) : Nat := ueM e + roundUp (4 * ueCount e) 64
/-- Bytes of M1, or of M1 and M2. -/
def ueMBytes (e : List Byte) : Nat := if ueRule e = 0 then 4 * ueCount e else roundUp (4 * ueCount e) 64 + 4 * ueCount e

/-- A range of a partition's Transom space exists. -/
def Mach.transomHas (m : Mach) (p off n : Nat) : Bool := (m.segs p none false (mkAddr 1 off) n).isSome
/-- A range of a partition's HBM space exists and takes writes. -/
def Mach.hbmHas (m : Mach) (p off n : Nat) : Bool := (m.segs p none true (mkAddr 2 off) n).isSome
/-- An address of the form of R146 in a space, aligned. -/
def uaOk (w space align : Nat) : Bool := bits w 63 60 == space && bits w 59 48 == 0 && bits w 47 0 % align == 0

/-- Whether an entry passes R299. -/
def Mach.entryOk (m : Mach) (p : Nat) (e : List Byte) : Bool :=
  let n := ueCount e
  decide (ueLayer e ≤ 4095 ∧ ueRule e ≤ 2 ∧ leAt e 5 1 < 4 ∧ leAt e 7 1 = 0 ∧ leAt e 58 6 = 0 ∧ 1 ≤ n ∧ ueHparam e < m.fld R.COL_TAUX_HP_SETS [p]) &&
  (decide (ueToken e ≤ 47) || ueToken e == 0xFF) &&
  m.conf.cfg.stagePart (ueStage e) == p && !(m.conf.cfg.stagePanes (ueStage e)).isEmpty &&
  uaOk (leAt e 16 8) 2 64 && uaOk (leAt e 24 8) 2 64 && uaOk (leAt e 32 8) 2 64 &&
  m.hbmHas p (ueW e) (roundUp (2 * n) 64 + 2 * n) && m.hbmHas p (ueG e) (4 * n) && m.hbmHas p (ueM e) (ueMBytes e) &&
  (if ueRule e = 2 then
     uaOk (leAt e 40 8) 2 64 && m.hbmHas p (ueD e) (4 * n) && uaOk (leAt e 48 8) 1 8 && m.transomHas p (ueFallback e) 8
   else leAt e 40 8 == 0 && leAt e 48 8 == 0)

/-- The update table as it stands in Transom. -/
def Mach.readTable (m : Mach) (p : Nat) : List (List Byte) :=
  (List.range (m.fld R.COL_TTABLE_UPD_ENTRIES [p])).map (fun i => m.loadAt p (mkAddr 1 (m.fld R.COL_TTABLE_UPD_BASE [p] * 64 + 64 * i)) 64)

/-- The pane owners a table names, without repeats. -/
def Mach.tableOwners (m : Mach) (t : List (List Byte)) : List Nat :=
  t.foldl (fun l e => (m.conf.cfg.stagePanes (ueStage e)).foldl (fun l q => insertNat q l) l) []

/-- The stages of a partition that have a SCHEDULE entry, while SCHED_EN is set (R290). -/
def Mach.schedStages (m : Mach) (p : Nat) : List Nat :=
  if m.flag R.COL_TCTL_SCHED_EN [p] then
    (m.conf.cfg.schedule.map (fun e => leAt e 0 2)).filter (fun n => m.conf.cfg.stagePart n == p)
  else []

/-- The axes of a partition pass R315. -/
def Mach.axesOk (m : Mach) (p : Nat) : Bool :=
  let l := (List.range 5).map (fun a => (m.axisSize p a, m.fld R.COL_TAXIS_RANK [p, a], m.fld R.COL_TAXIS_LINKS [p, a]))
  l.all (fun x => decide (x.2.1 < x.1) && !(decide (1 < x.1) && x.2.2 == 0 && decide (8 < x.1))) &&
  (List.range 10).all (fun n => decide ((l.filter (fun x => bitAt x.2.2 n)).length ≤ 1)) &&
  decide (((l.filter (fun x => x.2.2 != 0)).map (fun x => x.1)).foldl (· * ·) 1 ≤ 4096)

/-- The checks of START in order: 0, or the CODE of the first failure (R289). contradicted says that other modules of the data axis report another
LAYER or HPARAM (R296). -/
def Mach.trainCheck (m : Mach) (p : Nat) (contradicted : Bool) : Nat :=
  let t := m.readTable p
  let n := m.fld R.COL_TTABLE_UPD_ENTRIES [p]
  let stage := m.fld R.COL_TSTAGE_MIB [p] * 2 ^ 20
  if n = 0 ∨ !m.transomHas p (m.fld R.COL_TTABLE_UPD_BASE [p] * 64) (64 * n) then tcTable
  else if m.fld R.COL_TAUX_HP_SETS [p] = 0 ∨ !m.transomHas p (m.fld R.COL_TAUX_HP_BASE [p] * 64) (64 * m.fld R.COL_TAUX_HP_SETS [p]) then tcTable
  else if !t.all (m.entryOk p) || contradicted then tcTable
  else if stage < 128 * 1024 + 2 ^ 20 * (m.tableOwners t).length ∨ !m.transomHas p (m.fld R.COL_TSTAGE_BASE [p] * 64) stage then tcTable
  else if !m.transomHas p (m.fld R.COL_TAUX_GBLK_BASE [p] * 64) 128 then tcTable
  else if !(m.schedStages p).all (fun n => (m.conf.cfg.stagePanes n).all (fun q =>
      decide (3 * ((m.conf.cfg.stage n).map (fun e => leAt e 5 1)).getD 0 ≤ ((m.conf.cfg.codeOf q p).map (fun e => leAt e 4 4)).getD 0))) then tcSched
  else if !m.axesOk p then tcAxis
  else if m.fld R.COL_TSUMCFG_SLOTS [p] = 0 ∨ m.fld R.COL_TSUMCFG_SLOT_KIB [p] < 4 then tcTable
  else 0

/-- The gradient-scale block of the parity of a step written for exponent g (R294). -/
def Mach.gradBlock (m : Mach) (p s : Nat) (g : Int) : Mach :=
  m.storeAt p (mkAddr 1 (m.fld R.COL_TAUX_GBLK_BASE [p] * 64 + 64 * (s % 2)))
    (leBytes 4 (toF32 (.pow2 g)) ++ leBytes 4 0 ++ leBytes 4 (toF32 (.pow2 (-g))) ++ leBytes 52 0)

/-- START (R288, R289): the window runs from step f, or CODE says why not. What other modules report of their tables comes by no command: on a data
axis over links it is a free value (log entry 67). -/
def Mach.trainStart (m : Mach) (p f : Nat) : Mach :=
  if m.tstate p ≠ tsStopped then m.setTcode p tcTstate
  else
    let asks := decide (1 < m.axisSize p 0) && m.fld R.COL_TAXIS_LINKS [p, 0] != 0
    let code := m.trainCheck p (asks && m.free.toNat % 2 == 1)
    let m := if asks then m.drew else m
    if code ≠ 0 then m.setTcode p code
    else
      let g := m.fld R.COL_TCTL_GEXP_INIT [p]
      let m := (m.gradBlock p f (signed 8 g)).gradBlock p (stepAdd f 1) (signed 8 g)
      let m := m.setTrain p { Train.init with first := f, table := m.readTable p, steps := [TStep.init f g, TStep.init (stepAdd f 1) g], tprev := m.now, phAt := m.now }
      let m := m.setFlds [p] [(R.COL_TSTATE_CLOSED, stepSub f 1), (R.COL_TSTATE_CODE, 0), (R.COL_TSCALE_GEXP, g), (R.COL_TSCALE_CLEAN, 0),
        (R.COL_TSCALE_FLOOR_RUN, 0), (R.COL_TSCALE_UPDATES, 0), (R.COL_TSUMCFG_HEAD, 0)]
      m.setTstate p tsRunning

/-- The update passes of a partition that wait in a vector queue leave it, saved ones too. -/
def Mach.dropPasses (m : Mach) (p : Nat) : Mach :=
  (m.conf.cfg.panes p).foldl (fun m q =>
    let keep (x : Pane) : Pane := { x with vq := x.vq.filter (fun c => !(c.isPass && c.part == p)) }
    if m.paneOwner q = p then (m.setPane q (keep (m.pane q))).queueSync q
    else match Tbl.get none m.part.saved (p * 512 + q) with
      | some x => { m with part := { m.part with saved := Tbl.set none m.part.saved (p * 512 + q) (some (keep x)) } }
      | none => m) m
/-- A window stops and abandons its open steps (R288): one that is STOPPED already shows why its partition left it. -/
def Mach.trainDrop (m : Mach) (p code : Nat) : Mach :=
  if m.tstate p = tsStopped then (if code = tcAbandoned then m.setTcode p code else m)
  else ((((m.dropPasses p).setTrain p { m.train p with steps := [] })).setTcode p code).setTstate p tsStopped

/-! ### Work of a step -/

/-- The commands a pane context holds. -/
def Pane.cmds (x : Pane) : List QCmd :=
  x.mq ++ x.vq ++ x.cq ++ (x.mruns ++ x.vrun.toList ++ x.cruns ++ x.split).map (fun r => r.cmd)

/-- The commands of a partition with a step that have not ended, split-K slices that only wait for their tile apart. A descriptor in a hatch that
has not been dispatched is no command of its step yet, the model's choice (log entry 78). -/
def Mach.stepBusy (m : Mach) (p s : Nat) : Bool :=
  (m.conf.cfg.panes p).any (fun q =>
    let x := m.context p q
    ({ x with split := [] }).cmds.any (fun c => c.part == p && c.desc.step == s)) ||
  m.part.launches.any (fun l => l.part == p && l.desc.step == s)
/-- The slices of a step that wait for their tile. -/
def Mach.stepSplits (m : Mach) (p s : Nat) : List Run :=
  (m.conf.cfg.panes p).flatMap (fun q => (m.context p q).split.filter (fun r => r.cmd.part == p && r.cmd.desc.step == s))

/-- SLOTS of a scheduled stage. -/
def Mach.schedSlots (m : Mach) (n : Nat) : Nat := max 1 (((m.conf.cfg.scheduleOf n).map (fun e => leAt e 6 2)).getD 1)
/-- Steps from F to s. -/
def Mach.stepsFrom (m : Mach) (p s : Nat) : Nat := stepSub s (m.train p).first
/-- The step of the next slot that a stage launches (R290): a count modulo 2^32, as all step numbers are (R8). -/
def Mach.slotStep (m : Mach) (p n : Nat) : Nat := stepAdd (m.train p).first (Tbl.get 0 (m.train p).slots n / m.schedSlots n)
/-- Close has been requested for a step: by CLOSE, or by the last slot of every scheduled stage (R286). -/
def Mach.closeAsked (m : Mach) (p : Nat) (t : TStep) : Bool :=
  t.closeReq ||
  (let l := m.schedStages p
   !l.isEmpty && l.all (fun n => stepBefore t.step (m.slotStep p n)))
/-- A step in which anything has happened: the open steps that STOP waits for (R288). -/
def Mach.stepTouched (m : Mach) (p : Nat) (t : TStep) : Bool :=
  t.used || t.closeReq || t.gated || !t.handed.isEmpty || m.stepBusy p t.step || !(m.stepSplits p t.step).isEmpty ||
  (m.schedStages p).any (fun n => stepBefore t.step (m.slotStep p n) ||
    (t.step == m.slotStep p n && Tbl.get 0 (m.train p).slots n % m.schedSlots n != 0))
/-- The steps that are open: CLOSED + 1 and CLOSED + 2 (R285). -/
def Mach.stepOpen (m : Mach) (p s : Nat) : Bool := s == stepAdd (m.tclosed p) 1 || s == stepAdd (m.tclosed p) 2
/-- STOPPING ends when every open step has closed. -/
def Mach.stopIfDone (m : Mach) (p : Nat) : Mach :=
  if m.tstate p = tsStopping ∧ !((m.train p).steps.any (fun t => m.stepOpen p t.step && m.stepTouched p t)) then
    (m.setTrain p { m.train p with steps := [] }).setTstate p tsStopped
  else m
/-- STOP (R288). -/
def Mach.trainStopCmd (m : Mach) (p : Nat) : Mach :=
  if m.tstate p = tsStopped then m.setTcode p tcTstate
  else if m.tstate p = tsRunning then (m.setTstate p tsStopping).stopIfDone p
  else m
/-- CLOSE (R288, R325). -/
def Mach.trainClose (m : Mach) (p s : Nat) : Mach :=
  if m.tstate p = tsStopped then m.setTcode p tcTstate
  else if stepLe s (m.tclosed p) then m
  else match m.tstep p s with
    | some t => if m.stepOpen p s then m.setTstep p { t with closeReq := true } else m.setTcode p tcTstate
    | none => m.setTcode p tcTstate

/-! ### Slots (R290, R291) -/

/-- The LAUNCH descriptor of a slot. -/
def slotDesc (step vstage stream mb : Nat) : Desc :=
  { w0 := BitVec.ofNat 64 (vstage * 2 ^ 48 + mb * 2 ^ 32 + step), w1 := BitVec.ofNat 64 (3 * 2 ^ 60 + stream * 2 ^ 58 + 0xFF * 2 ^ 50 + 0xFF * 2 ^ 42),
    w2 := 0, w3 := 0, w4 := 0, w5 := BitVec.ofNat 64 ((3 * vstage + stream) * 2 ^ 48), w6 := 0, w7 := 0 }

/-- The next slot of a scheduled stage launches, if it may. -/
def Mach.slotLaunch (m : Mach) (n : Nat) : Mach :=
  let p := m.conf.cfg.stagePart n
  match m.conf.cfg.scheduleOf n with
  | none => m
  | some e =>
    let w := m.train p
    let k := Tbl.get 0 w.slots n
    let step := stepAdd w.first (k / m.schedSlots n)
    let o := 16 + 4 * (k % m.schedSlots n)
    let vs := leAt e o 1
    let st := leAt e (o + 1) 1
    let panes := m.conf.cfg.stagePanes n
    let free (q : Nat) : Bool := m.sstate q st == ssIdle || m.sstate q st == ssFault
    if m.tstate p ≠ tsRunning ∨ !(m.schedStages p).contains n ∨ !m.stepOpen p step ∨ !panes.all (fun q => free q && m.mayStart p q) then m
    else
      let fl := panes.any (fun q => m.sstate q st == ssFault)
      let m := panes.foldl (fun m q => (m.launchStream q st (slotDesc step vs st (leAt e (o + 2) 2))).1) m
      let m := m.setTrain p { m.train p with slots := Tbl.set 0 (m.train p).slots n (k + 1) }
      match m.tstep p step with
      | some t => m.setTstep p { t with faulted := t.faulted + b2n fl }
      | none => m

/-! ### Buckets (R295) -/

/-- FP32 codes of an array in a partition's HBM space, with its poison. -/
def Mach.hbmCodes (m : Mach) (p off n : Nat) : List Nat × Bool :=
  match m.segs p none false (mkAddr 2 off) (4 * n) with
  | some l => let bs := m.readSegs l
              ((List.range n).map (fun i => leAt bs (4 * i) 4), m.segsPoisoned l)
  | none => (List.replicate n 0, false)

/-- GSQ and the non-finite count of an entry, from its gradient (R295, R171). -/
def Mach.measure (m : Mach) (p : Nat) (e : List Byte) : Nat × Nat :=
  let xs := ((m.hbmCodes p (ueG e) (ueCount e)).1).map f32
  (toF32 (rowSumSq xs), (xs.filter (fun x => !x.finite)).length)

/-- The entries of a bucket, with their indices. -/
def Mach.bucketEntries (m : Mach) (p b : Nat) : List (List Byte × Nat) := (m.train p).table.zipIdx.filter (fun x => ueBucket x.1 == b)
/-- The buckets that the update table names. -/
def Mach.buckets (m : Mach) (p : Nat) : List Nat := ((m.train p).table.map ueBucket).foldl (fun l b => insertNat b l) []
/-- A bucket has a norm pass: an entry of it clips (R295). -/
def Mach.bucketClips (m : Mach) (p b : Nat) : Bool := (m.bucketEntries p b).any (fun x => ueClip x.1)

/-- A bucket of a step ends with its figures and n contributions counted. -/
def Mach.bucketEnd (m : Mach) (p s b n : Nat) (figs : List (Nat × Nat × Nat)) : Mach :=
  match m.tstep p s with
  | none => m
  | some t =>
    let es := figs.foldl (fun es f => Tbl.set EntrySt.init es f.1 { Tbl.get EntrySt.init es f.1 with gsq := f.2.1, nonfinite := f.2.2 }) t.entries
    m.setTstep p { t with handed := insertNat b t.handed, done := insertNat b t.done, entries := es, present := t.present + n }
/-- The figures of a bucket taken from memory. -/
def Mach.figures (m : Mach) (p b : Nat) : List (Nat × Nat × Nat) :=
  (m.bucketEntries p b).map (fun x => (x.2, m.measure p x.1))

/-- A bucket is handed off where the data axis has size 1: its norm pass starts, or it ends at once where no entry clips. On a
larger axis its collective carries it. -/
def Mach.handoff (m : Mach) (p s b : Nat) : Mach :=
  match m.tstep p s with
  | none => m
  | some t =>
    if m.tstate p = tsStopped ∨ m.tfrozen p ∨ !m.stepOpen p s ∨ !(m.buckets p).contains b ∨ t.handed.contains b then m
    else if 1 < m.axisSize p 0 ∨ m.bucketClips p b then m.setTstep p { t with handed := insertNat b t.handed }
    else m.bucketEnd p s b 1 (m.figures p b)
/-- A norm pass ends. -/
def Mach.normDone (m : Mach) (p s b : Nat) : Mach :=
  match m.tstep p s with
  | none => m
  | some t =>
    if m.axisSize p 0 ≤ 1 ∧ t.handed.contains b ∧ !t.done.contains b ∧ m.running ∧ !m.shut p then
      (m.bucketEnd p s b 1 (m.figures p b)).meter p mHbmRd (((m.bucketEntries p b).map (fun x => 4 * ueCount x.1)).sum)
    else m

/-! ### The gate (R300 to R304, R307) -/

/-- The step whose gate opens next: the lowest open step with no gate, once every bucket of it has ended (R301). -/
def Mach.gateStep (m : Mach) (p : Nat) : Option TStep :=
  ((m.train p).steps.find? (fun t => !t.gated)).bind (fun t =>
    if m.stepOpen p t.step && (m.buckets p).all (fun b => t.done.contains b) then some t else none)

/-- The verdict of this module's own gradients is OVERFLOW: a non-finite reduced element, or a non-finite GSQ of a bucket that was
reduced or measured before the gate. -/
def Mach.overflows (m : Mach) (p : Nat) (t : TStep) : Bool :=
  (m.train p).table.zipIdx.any (fun x =>
    let e := Tbl.get EntrySt.init t.entries x.2
    e.nonfinite != 0 || ((decide (1 < m.axisSize p 0) || m.bucketClips p (ueBucket x.1)) && !(f32 e.gsq).finite))

/-- pow_n of R303. -/
def powN (b : Fp) (t : Nat) : Fp :=
  (((List.range 32).reverse.dropWhile (fun i => !bitAt t i))).foldl (fun r i => if bitAt t i then (r.mul r).mul b else r.mul r) (Fp.ofNat 1)

/-- Byte o of the copy of a hyperparameter set that serves a step (R300). -/
def Mach.hparam (m : Mach) (p h s : Nat) : List Byte :=
  m.loadAt p (mkAddr 1 (m.fld R.COL_TAUX_HP_BASE [p] * 64 + 64 * h + 32 * (s % 2))) 32
/-- KMAX and KFIX within their ranges (log entry 21). -/
def hpKmax (b : List Byte) : Nat := min 16 (leAt b 26 1)
def hpKfix (b : List Byte) : Nat := min (hpKmax b) (signed 8 (leAt b 25 1)).toNat

/-- The exponent k of a layer for an applied step (R304). -/
def nextK (b : List Byte) (l : LayerSt) : Nat :=
  if leAt b 24 1 ≠ 1 ∨ !l.applied then hpKfix b
  else
    let r := f32 l.ratio
    if r.isZero || !r.finite then l.k
    else min (hpKmax b) (-20 - ((r.mulExact (.pow2 (-(l.k : Int)))).expo)).toNat

/-- The constants of an entry for a step (R303), apart from k and the rate that rests on it; its hyperparameters stay as the gate read them. -/
def entryConsts (e b : List Byte) (x : EntrySt) (g : Int) (updates : Nat) (fell : Bool) : EntrySt :=
  let h (o : Nat) : Fp := f32 (leAt b o 4)
  let inv := Fp.pow2 (-g)
  let gn := (f32 x.gsq).sqrt.mul inv
  let clip := ueClip e && (h 20).lt gn
  let f := if clip then (h 20).div gn else .ofNat 1
  let c (beta : Fp) : Fp := if bitAt (leAt b 27 1) 0 then (Fp.ofNat 1).div ((Fp.ofNat 1).sub (powN beta (updates + 1))) else .ofNat 1
  let x := { x with a := toF32 (inv.mul f), b1 := toF32 (h 4), b2 := toF32 (h 8), eps := toF32 (h 12), wd := toF32 (h 16), hp := b }
  { x with c1 := toF32 (c (h 4)), c2 := toF32 (c (h 8)), gnorm := toF32 gn, clipped := clip, fell := fell }

/-- k of every entry of a step and the rate LR × 2^k, from the layers as the applied steps before it left them (R303, R304). -/
def Train.rates (w : Train) (t : TStep) : TStep :=
  { t with entries := w.table.zipIdx.foldl (fun es x =>
      let y := Tbl.get EntrySt.init es x.2
      let lead := ((w.table.zipIdx.find? (fun z => ueLayer z.1 == ueLayer x.1)).map (fun z => z.2)).getD x.2
      let k := nextK (Tbl.get EntrySt.init es lead).hp (Tbl.get LayerSt.init w.layers (ueLayer x.1))
      Tbl.set EntrySt.init es x.2 { y with k := k, lr := toF32 ((f32 (leAt y.hp 0 4)).mul (.pow2 k)) }) t.entries }
/-- A step whose gate has opened follows the layers: an applied one by its rates, a skipped one by the old norms of its record (R304, R307). -/
def Train.follow (w : Train) (t : TStep) : TStep := if !t.gated then t else if t.skipped then { t with old := w.layers } else w.rates t

/-- The exponent recovery of R307: E, CLEAN, FLOOR_RUN, UPDATES and whether the floor was met. -/
def Mach.scaleDecide (m : Mach) (p : Nat) (g : Int) (overs : Bool) : Mach × Bool :=
  let gmin := signed 8 (m.fld R.COL_TCTL_GEXP_MIN [p])
  let gmax := signed 8 (m.fld R.COL_TCTL_GEXP_MAX [p])
  let growth := if m.fld R.COL_TCTL_GROWTH [p] = 0 then 1000 else m.fld R.COL_TCTL_GROWTH [p]
  let ex := signed 8 (m.fld R.COL_TSCALE_GEXP [p])
  let clean := m.fld R.COL_TSCALE_CLEAN [p]
  if overs then
    if gmin < g then (m.setFlds [p] [(R.COL_TSCALE_GEXP, wrapInt 8 (min ex (g - 1))), (R.COL_TSCALE_CLEAN, 0), (R.COL_TSCALE_FLOOR_RUN, 0)], false)
    else ((m.setFlds [p] [(R.COL_TSCALE_GEXP, wrapInt 8 gmin), (R.COL_TSCALE_CLEAN, 0)]).addSat R.COL_TSCALE_FLOOR_RUN [p] 1, true)
  else
    let m := (m.setFld R.COL_TSCALE_FLOOR_RUN [p] 0).addWrap R.COL_TSCALE_UPDATES [p] 1
    if growth ≤ clean + 1 ∧ ex < gmax then (m.setFlds [p] [(R.COL_TSCALE_GEXP, wrapInt 8 (ex + 1)), (R.COL_TSCALE_CLEAN, 0)], false)
    else (m.setFld R.COL_TSCALE_CLEAN [p] (min 65535 (clean + 1)), false)

/-- A token of a pane of a partition counted up by the module: one at 255 stays there (R164). -/
def Mach.signalPane (m : Mach) (p q t : Nat) : Mach := if 63 < t then m else m.setContext p q ((m.context p q).signal t)

/-- The owner panes of an entry that live (R324). -/
def Mach.owners (m : Mach) (e : List Byte) : List Nat := (m.conf.cfg.stagePanes (ueStage e)).filter (fun q => !m.core.failed.contains q)
/-- Elements of a chunk. -/
def chunkLen : Nat := 16384
/-- Chunks of an entry. -/
def ueChunks (e : List Byte) : Nat := ceilDiv (ueCount e) chunkLen
/-- One 32-byte layer entry of the record (R310), and the layer's state after an applied step. -/
def Mach.layerRow (m : Mach) (p : Nat) (t : TStep) (layer : Nat) : List Byte × LayerSt :=
  let w := m.train p
  let old := Tbl.get LayerSt.init t.old layer
  let es := (w.table.zipIdx.filter (fun x => ueLayer x.1 == layer)).map (fun x => (x.1, Tbl.get EntrySt.init t.entries x.2))
  let cs := es.map (fun x => (List.range (ueChunks x.1)).map (fun c => Tbl.get ChunkSt.init x.2.chunks c))
  let total (f : ChunkSt → Nat) : Fp := (cs.map (fun l => (l.map (fun c => f32 (f c))).foldl Fp.add .zero)).foldl Fp.add .zero
  let gn := ((es.map (fun x => (f32 x.2.gnorm).mul (f32 x.2.gnorm))).foldl Fp.add .zero).sqrt
  if t.skipped then
    (leBytes 2 layer ++ leBytes 1 old.k ++ leBytes 1 0 ++ leBytes 4 old.wnorm ++ leBytes 4 old.gnorm ++ leBytes 4 0 ++ leBytes 4 0 ++ leBytes 4 0 ++ leBytes 8 0, old)
  else
    let wn := (total (fun c => c.wsq)).sqrt
    let un := (total (fun c => c.usq)).sqrt
    let ratio := if un.isZero then .zero else if wn.isZero then .inf false else un.div wn
    let k := (es.head?.map (fun x => x.2.k)).getD 0
    let lost := (cs.map (fun l => (l.map (fun c => c.lost)).sum)).sum
    (leBytes 2 layer ++ leBytes 1 k ++ leBytes 1 (b2n (es.any (fun x => x.2.clipped)) + 2 * b2n (es.any (fun x => x.2.fell))) ++ leBytes 4 (toF32 wn) ++
     leBytes 4 (toF32 gn) ++ leBytes 4 (toF32 un) ++ leBytes 4 (toF32 ratio) ++ leBytes 4 (min lost 0xFFFFFFFF) ++ leBytes 8 0,
     { applied := true, k := k, ratio := toF32 ratio, wnorm := toF32 wn, gnorm := toF32 gn })

/-- Every entry of a step has ended (R306). -/
def Mach.updEnded (m : Mach) (p : Nat) (t : TStep) : Bool :=
  (List.range (m.train p).table.length).all (fun i => (Tbl.get EntrySt.init t.entries i).ended)
/-- Bytes of a partition's staging area, from an offset: the layer state in its first 128 KiB, then 1 MiB per distinct owner pane (R289, R302,
R304). -/
def Mach.stagePut (m : Mach) (p off : Nat) (bs : List Byte) : Mach := m.storeAt p (mkAddr 1 (m.fld R.COL_TSTAGE_BASE [p] * 64 + off)) bs
/-- The data of a chunk in its owner's part of the staging area. -/
def Mach.stageChunk (m : Mach) (p q phase : Nat) (l : List Nat) : Mach :=
  match (m.tableOwners (m.train p).table).findIdx? (fun x => x == q) with
  | some k => m.stagePut p (2 ^ 17 + k * 2 ^ 20) ((Config.stageLayout phase l).take (2 ^ 20))
  | none => m
/-- The layer state written (R304). -/
def Mach.stageLayers (m : Mach) (p : Nat) : Mach :=
  (m.train p).layers.foldl (fun m e =>
    m.stagePut p (32 * e.1) (leBytes 32 (Config.layerLayout [b2n e.2.applied, e.2.k, e.2.ratio, e.2.wnorm, e.2.gnorm]).toNat)) m
/-- The update phase of an applied step ends: its layers follow it, and the steps after it follow them (R304, R306, R307). -/
def Mach.updateEnd (m : Mach) (p : Nat) (t : TStep) : Mach :=
  let w := m.train p
  let ls := (w.table.map ueLayer).foldl (fun tb l => Tbl.set LayerSt.init tb l (m.layerRow p t l).2) w.layers
  let w := { w with layers := ls }
  (m.setTrain p { w with steps := w.steps.map (fun u => if stepBefore t.step u.step then w.follow u else u) }).stageLayers p
/-- An entry of a step ends, with its TOKEN on every owner pane (R306). -/
def Mach.entryEnd (m : Mach) (p s : Nat) (e : List Byte) (i : Nat) : Mach :=
  match m.tstep p s with
  | none => m
  | some t =>
    let t := { t with entries := Tbl.set EntrySt.init t.entries i { Tbl.get EntrySt.init t.entries i with ended := true } }
    let m := m.setTstep p t
    let m := if !t.skipped && m.updEnded p t then m.updateEnd p t else m
    (m.owners e).foldl (fun m q => m.signalPane p q (ueToken e)) m

/-- The gate of a step opens with a verdict (R294, R300 to R303, R306, R307). -/
def Mach.gateOpen (m : Mach) (p : Nat) (t : TStep) (overs : Bool) : Mach :=
  let g := signed 8 t.gexp
  let updates := m.fld R.COL_TSCALE_UPDATES [p]
  let (m, floor) := m.scaleDecide p g overs
  let ex := m.fld R.COL_TSCALE_GEXP [p]
  let m := m.gradBlock p t.step (signed 8 ex)
  let w := m.train p
  let es := w.table.zipIdx.map (fun x =>
    let e := x.1
    let b := m.hparam p (ueHparam e) t.step
    let fell := ueRule e == 2 && ofLe (m.loadAt p (mkAddr 1 (ueFallback e)) 8) == 1
    (x.2, entryConsts e b (Tbl.get EntrySt.init t.entries x.2) g updates fell))
  let es := es.foldl (fun tb y => Tbl.set EntrySt.init tb y.1 y.2) t.entries
  let t' := { t with gated := true, skipped := overs, floor := floor, entries := es, floorRun := m.fld R.COL_TSCALE_FLOOR_RUN [p],
                     updates := m.fld R.COL_TSCALE_UPDATES [p] }
  let m := (m.setTrain p { w with steps := w.steps ++ (if w.steps.any (fun y => y.step == stepAdd t.step 2) then [] else [TStep.init (stepAdd t.step 2) ex]) }).setTstep p
    (w.follow t')
  if overs then w.table.zipIdx.foldl (fun m x => m.entryEnd p t.step x.1 x.2) m else m

/-! ### Passes (R302, R303, R305, R324) -/

/-- The owner pane of a chunk: position c mod P of the stage, or the next one in rotation that lives (R302, R324). -/
def Mach.chunkOwner (m : Mach) (e : List Byte) (c : Nat) : Option Nat :=
  let ps := m.conf.cfg.stagePanes (ueStage e)
  let r := ps.drop (c % max 1 ps.length) ++ ps.take (c % max 1 ps.length)
  r.find? (fun q => !m.core.failed.contains q)

/-- Whether the sequencer of a chunk's die has staged every chunk of the entries before entry i (R302). -/
def Mach.entriesBefore (m : Mach) (p : Nat) (t : TStep) (i die : Nat) : Bool :=
  ((m.train p).table.zipIdx.filter (fun x => decide (x.2 < i))).all (fun x =>
    (List.range (ueChunks x.1)).all (fun c =>
      ((m.chunkOwner x.1 c).map dieOf) != some die || (Tbl.get ChunkSt.init (Tbl.get EntrySt.init t.entries x.2).chunks c).phase != 0))

/-- Bytes at an address of a partition's HBM space, with their poison. -/
def Mach.hbmBytes (m : Mach) (p off n : Nat) : List Byte × Bool :=
  match m.segs p none false (mkAddr 2 off) n with
  | some l => (m.readSegs l, m.segsPoisoned l)
  | none => (List.replicate n 0, false)
/-- Bytes written to a partition's HBM space, poisoned or not. -/
def Mach.hbmPut (m : Mach) (p off : Nat) (bs : List Byte) (ps : Bool) : Mach :=
  match m.segs p none true (mkAddr 2 off) bs.length with
  | some l => ((chunksOf l bs ps).foldl (fun m c => m.putChunk c) m).meter p mHbmWr bs.length
  | none => m

/-- The moments of one element (pass 1 of R303): the new M1 and M2. -/
def momentsOf (rule : Nat) (x : EntrySt) (g m1 m2 d : Fp) : Fp × Fp :=
  let a := f32 x.a
  let g := g.mul a
  let v := if rule = 2 ∧ !x.fell then d.mul a else g
  let one := Fp.ofNat 1
  let m1 := ((f32 x.b1).mul m1).add ((one.sub (f32 x.b1)).mul v)
  let m2 := if rule = 0 then m2 else ((f32 x.b2).mul m2).add ((one.sub (f32 x.b2)).mul (g.mul g))
  (m1, m2)

/-- Pass 2 of one element (R303): the new word, x, xn − x, and whether it counts as LOST or kept (R305). A kept NaN is written as the canonical
one (R56, R64). -/
def masterOf (rule : Nat) (decay : Bool) (x : EntrySt) (m1 m2 : Fp) (w : Nat) : Nat × Fp × Fp × Bool × Bool :=
  let v := f32 w
  let d := if rule = 0 ∨ (rule = 2 ∧ !x.fell) then m1
           else (m1.mul (f32 x.c1)).div (((m2.mul (f32 x.c2)).sqrt).add (f32 x.eps))
  let y := if decay then d.add ((f32 x.wd).mul v) else d
  let u := (f32 x.lr).mul y
  let n := v.sub u
  let n' := if n.finite then n else v
  (if n'.finite || n' != .nan then (if n.finite then toF32 n else w) else toF32 .nan, v, n'.sub v, n'.eq v && !u.isZero, !n.finite)

/-- The step whose update phase runs, and entry i of the table while it has not ended: the phases of two steps follow one another (R302, R304). -/
def Mach.updEntry (m : Mach) (p i : Nat) : Option (TStep × List Byte) :=
  ((m.train p).steps.find? (fun t => t.gated && !t.skipped && !m.updEnded p t)).bind (fun t =>
    if (Tbl.get EntrySt.init t.entries i).ended then none else ((m.train p).table[i]?).map (fun e => (t, e)))
/-- Pass 2 of a chunk takes its place in its owner's vector queue, where it has room (R302). -/
def Mach.queuePass (m : Mach) (p q : Nat) (t : TStep) (e : List Byte) (i c : Nat) : Mach :=
  let x := passCmd p t.step (ueLayer e) i c
  if (m.pane q).vq.contains x ∨ queueSize .vector ≤ (m.pane q).vq.length then m else m.enqueue q .vector x

/-- Pass 1 of a chunk (R302, R303): inputs staged, new moments formed; its pass 2 enters the vector queue of its owner. -/
def Mach.pass1 (m : Mach) (p i c : Nat) : Mach :=
  match m.updEntry p i with
  | some (t, e) =>
    let x := Tbl.get EntrySt.init t.entries i
    match m.chunkOwner e c with
    | none => m
    | some q =>
      if ueChunks e ≤ c ∨ (Tbl.get ChunkSt.init x.chunks c).phase ≠ 0 ∨ m.tfrozen p ∨ !m.mayPass p q ∨ !m.entriesBefore p t i (dieOf q) then m
      else
        let o := c * chunkLen
        let n := min chunkLen (ueCount e - o)
        let rule := ueRule e
        let (g, pg) := m.hbmCodes p (ueG e + 4 * o) n
        let (a, pa) := m.hbmCodes p (ueM e + 4 * o) n
        let (b, pb) := if rule = 0 then ([], false) else m.hbmCodes p (ueM2 e + 4 * o) n
        let (d, pd) := if rule = 2 then m.hbmCodes p (ueD e + 4 * o) n else ([], false)
        let r := (List.range n).map (fun k => momentsOf rule x (f32 (g.getD k 0)) (f32 (a.getD k 0)) (f32 (b.getD k 0)) (f32 (d.getD k 0)))
        let y : ChunkSt := { ChunkSt.init with phase := 1, pane := q, m1 := r.map (fun z => toF32 z.1), m2 := r.map (fun z => toF32 z.2), poisoned := pg || pa || pb || pd }
        let m := (m.meter p mHbmRd (4 * n * (2 + b2n (rule != 0) + b2n (rule == 2)))).stageChunk p q 1 (y.m1 ++ y.m2)
        (m.setTstep p { t with entries := Tbl.set EntrySt.init t.entries i { x with chunks := Tbl.set ChunkSt.init x.chunks c y } }).queuePass p q t e i c
  | none => m

/-- A chunk with what pass 2 computes of it: new words, and the sums of R305 in the order of R171. -/
def ChunkSt.computed (y : ChunkSt) (q : Nat) (ps : Bool) (r : List (Nat × Fp × Fp × Bool × Bool)) : ChunkSt :=
  { phase := 2, pane := q, m1 := y.m1, m2 := y.m2, master := r.map (fun v => v.1), poisoned := ps,
    wsq := toF32 (rowSumSq (r.map (fun v => v.2.1))), usq := toF32 (rowSumSq (r.map (fun v => v.2.2.1))),
    lost := (r.filter (fun v => v.2.2.2.1)).length, kept := (r.filter (fun v => v.2.2.2.2)).length }

/-- Pass 2 of a chunk on its owner pane's vector engine, in queue order (R302, R303, R305): of an owner that has failed, the next one runs it from
the staged inputs (R324). -/
def Mach.pass2Upd (m : Mach) (p i c : Nat) : Mach :=
  match m.updEntry p i with
  | some (t, e) =>
    let x := Tbl.get EntrySt.init t.entries i
    let y := Tbl.get ChunkSt.init x.chunks c
    match m.chunkOwner e c with
    | none => m
    | some q =>
      let m' := m.queuePass p q t e i c
      if y.phase ≠ 1 ∨ m.tfrozen p ∨ !m.mayPass p q then m
      else if (m.pane q).vrun.isSome ∨ (m'.pane q).vq.head? ≠ some (passCmd p t.step (ueLayer e) i c) then m'
      else
        let m := m'.popHead q .vector false
        let o := c * chunkLen
        let n := min chunkLen (ueCount e - o)
        let (hi, ph) := m.hbmBytes p (ueW e + 2 * o) (2 * n)
        let (lo, pl) := m.hbmBytes p (ueLo e + 2 * o) (2 * n)
        let r : List (Nat × Fp × Fp × Bool × Bool) := (List.range n).map (fun k =>
          masterOf (ueRule e) (ueDecay e) x (f32 (y.m1.getD k 0)) (f32 (y.m2.getD k 0)) (leAt hi (2 * k) 2 * 65536 + leAt lo (2 * k) 2))
        let ps := y.poisoned || ph || pl
        let z := y.computed q ps r
        let m := m.meter p mHbmRd (4 * n)
        let m := if ps then m.place { ErrRec.mk0 sevDeferred p ecPoisonUsed q 0 0 with step := t.step, layer := ueLayer e } else m
        (m.setTstep p { t with entries := Tbl.set EntrySt.init t.entries i { x with chunks := Tbl.set ChunkSt.init x.chunks c z } }).stageChunk p q 2
          (z.master ++ z.m1 ++ z.m2)
  | none => m

/-- A computed chunk is written (R302): planes and moments; the last one ends its entry (R306). -/
def Mach.chunkWrite (m : Mach) (p i c : Nat) : Mach :=
  match m.updEntry p i with
  | some (t, e) =>
    let x := Tbl.get EntrySt.init t.entries i
    let y := Tbl.get ChunkSt.init x.chunks c
    if y.phase ≠ 2 ∨ !m.running ∨ m.shut p then m
    else
      let o := c * chunkLen
      let m := m.hbmPut p (ueW e + 2 * o) (y.master.flatMap (fun w => leBytes 2 (w / 65536))) y.poisoned
      let m := m.hbmPut p (ueLo e + 2 * o) (y.master.flatMap (fun w => leBytes 2 (w % 65536))) y.poisoned
      let m := m.hbmPut p (ueM e + 4 * o) (packElems 32 y.m1) y.poisoned
      let m := if ueRule e = 0 then m else m.hbmPut p (ueM2 e + 4 * o) (packElems 32 y.m2) y.poisoned
      let x' := { x with chunks := Tbl.set ChunkSt.init x.chunks c { y with phase := 3, m1 := [], m2 := [], master := [] } }
      let m := m.setTstep p { t with entries := Tbl.set EntrySt.init t.entries i x' }
      if (List.range (ueChunks e)).all (fun k => (Tbl.get ChunkSt.init x'.chunks k).phase == 3) then m.entryEnd p t.step e i else m
  | none => m

/-! ### The boundary (R286, R287, R308 to R311) -/

/-- A gradient reduction of a step has been submitted and has not ended (R286, R435). -/
def Mach.gradBusy (m : Mach) (p s : Nat) : Bool :=
  let x := Tbl.get CollSt.init m.colls p
  (x.runs.map (fun c => c.ent) ++ x.fifo.map (fun e => e.2)).any (fun b => leAt b 0 4 == s && bitAt (leAt b 9 1) 0)
/-- The conditions of R286 of this module for the lowest open step: every drained split-K slice apart. -/
def Mach.closeReady (m : Mach) (p : Nat) : Option TStep :=
  match m.tstep p (stepAdd (m.tclosed p) 1) with
  | none => none
  | some t =>
    if m.tstate p ≠ tsStopped ∧ m.running ∧ !m.shut p ∧ m.closeAsked p t ∧ !m.stepBusy p t.step ∧ !m.gradBusy p t.step ∧ t.gated ∧ m.updEnded p t then some t
    else none

/-- The phases of a partition are counted up to now (R311): every tick of graticule time since they were counted last, a slewed or stepped one too
(R511), on every pane. Pass 2 of a chunk runs from the time it heads its queue with the engine free; reductions and exchanges are the collectives
in progress that reduce. -/
def Mach.trainTick (m : Mach) (p : Nat) : Mach :=
  if m.tstate p = tsStopped then m
  else
    let w := m.train p
    let red := w.steps.any (fun t => t.handed.any (fun b => !t.done.contains b)) ||
      (Tbl.get CollSt.init m.colls p).runs.any (fun c => [1, 2, 5].contains (leAt c.ent 6 1) || bitAt (leAt c.ent 9 1) 0)
    let ph (q : Nat) : Nat :=
      let x := m.context p q
      let ss := if m.paneOwner q = p then (x.mruns ++ x.vrun.toList ++ x.cruns).map (fun r => r.cmd.desc.stream) else []
      if ss.contains 1 then 1 else if ss.contains 0 then 0
      else if ss.contains 2 || (m.paneOwner q == p && x.vrun.isNone && (x.vq.head?.any (fun c => c.isPass))) then 2 else if red then 3 else 4
    let l := (m.conf.cfg.panes p).map ph
    let n (k : Nat) : Nat := (m.now - w.phAt) * (l.filter (fun x => x == k)).length
    m.setTrain p { w with phAt := m.now, phF := w.phF + n 0, phB := w.phB + n 1, phU := w.phU + n 2, phC := w.phC + n 3, phI := w.phI + n 4 }

/-- The step summary record of a step (R308 to R311). -/
def Mach.summary (m : Mach) (p : Nat) (t : TStep) : List Byte :=
  let w := m.train p
  let layers := (w.table.map ueLayer).foldl (fun l b => insertNat b l) []
  let rows := layers.map (fun l => (m.layerRow p t l).1)
  let room := (m.fld R.COL_TSUMCFG_SLOT_KIB [p] * 1024 - 128) / 32
  let es := (List.range w.table.length).map (fun i => Tbl.get EntrySt.init t.entries i)
  let sing := (es.filter (fun x => x.fell && !t.skipped)).length
  let kept := (es.map (fun x => (x.chunks.map (fun c => c.2.kept)).sum)).sum
  let n := min rows.length room
  let np := max 1 (m.conf.cfg.panes p).length
  let flags := b2n t.skipped + 2 * b2n t.floor + 4 * b2n (t.late != 0) + 8 * b2n (t.folded != 0) + 16 * b2n (sing != 0) +
    32 * b2n (decide (room < rows.length)) + 64 * b2n (t.late != 0 || t.folded != 0)
  let hd := leBytes 4 t.step ++ leBytes 2 n ++ leBytes 2 flags ++ leBytes 8 w.tprev ++ leBytes 8 m.now ++
    [w.phF, w.phB, w.phU, w.phC, w.phI].flatMap (fun x => leBytes 8 (x / np)) ++ leBytes 4 (wrapInt 32 (signed 8 t.gexp)) ++
    leBytes 4 t.updates ++ leBytes 4 t.present ++ leBytes 4 t.late ++ leBytes 4 t.folded ++
    leBytes 4 (min 0xFFFFFFFF ((es.map (fun x => x.nonfinite)).sum)) ++ leBytes 4 (min 0xFFFFFFFF kept) ++ leBytes 4 sing ++ leBytes 4 t.faulted ++ leBytes 28 0
  hd ++ (rows.take n).flatten

/-- The three actions of the boundary that ends step t: the record, the roll, CLOSED (R287). -/
def Mach.boundary (m : Mach) (p : Nat) (t : TStep) : Mach :=
  let m := m.trainTick p
  let bs := m.summary p t
  let n := m.fld R.COL_TSUMCFG_HEAD [p]
  let slot := n % max 1 (m.fld R.COL_TSUMCFG_SLOTS [p])
  let a := m.fld R.COL_TSUMRING_ADDR [p] * 4096 + slot * m.fld R.COL_TSUMCFG_SLOT_KIB [p] * 1024
  let m := (m.store (m.partHostKey p a) bs).meter p mHost bs.length
  let m := (m.setFld R.COL_TSUMCFG_HEAD [p] (n + 1)).vfVector p 6
  let m := m.rollRecords p t.step
  let m := m.setFld R.COL_TSTATE_CLOSED [p] t.step
  let w := m.train p
  let w := { w with steps := w.steps.filter (fun x => x.step != t.step), tprev := m.now, phAt := m.now, phF := 0, phB := 0, phU := 0, phC := 0, phI := 0 }
  (m.setTrain p w).meter p mSteps 1
/-- What the boundary of a step means for the window, once what attaches to the boundary has done so: SCALE_FLOOR after the eighth floor, the end of
STOPPING (R288). -/
def Mach.windowEnd (m : Mach) (p : Nat) (t : TStep) : Mach := if 8 ≤ t.floorRun ∧ t.floor then m.trainDrop p tcFloor else m.stopIfDone p

end Sys2Proof.Machine
end

