-- ==== Sys2Proof/Machine/CollOps.lean ====
section
/-! DEFINITION. The collective engine (R315 to R318, R435 to R447): its ring, its messages, the reduction in fixed rank order, stragglers. -/

namespace Sys2Proof.Machine

/-- Result codes (R437). -/
def crOk : Nat := 0
def crBadEntry : Nat := 1
def crAddrRange : Nat := 2
def crAxis : Nat := 3
def crLinkLost : Nat := 4
def crRouteMissing : Nat := 5
def crPeerMismatch : Nat := 6
def crAborted : Nat := 7
def crTimeout : Nat := 8
def crPartition : Nat := 9

/-- Operations (R436). -/
def coAllReduce : Nat := 1
def coReduceScatter : Nat := 2
def coAllGather : Nat := 3
def coBroadcast : Nat := 4
def coReduce : Nat := 5
def coAllToAll : Nat := 6
def coSend : Nat := 7
def coRecv : Nat := 8
def coBarrier : Nat := 9

/-- Message types (R418). -/
def cmShare : Nat := 0x20
def cmGrant : Nat := 0x21
def cmAck : Nat := 0x22
def cmDone : Nat := 0x23
def cmSet : Nat := 0x24
def cmResult : Nat := 0x25
def cmAbort : Nat := 0x26
def cmBarrier : Nat := 0x27
def cmRts : Nat := 0x28
def cmCts : Nat := 0x29
def cmData : Nat := 0x2A

/-! ### Fields of an entry (R435) -/

/-- STEP of the collective. -/
def Coll.step (c : Coll) : Nat := leAt c.ent 0 4
/-- BUCKET. -/
def Coll.bucket (c : Coll) : Nat := leAt c.ent 4 2
/-- OP of an entry. -/
def ceOp (e : List Byte) : Nat := leAt e 6 1
/-- OP. -/
def Coll.op (c : Coll) : Nat := ceOp c.ent
/-- DTYPE. -/
def Coll.dtype (c : Coll) : Nat := leAt c.ent 7 1
/-- GRAD. -/
def Coll.grad (c : Coll) : Bool := bitAt (leAt c.ent 9 1) 0
/-- PEER. -/
def Coll.peer (c : Coll) : Nat := leAt c.ent 10 2
/-- COUNT. -/
def Coll.count (c : Coll) : Nat := leAt c.ent 12 4
/-- SRC and DST. -/
def Coll.src (c : Coll) : Word := BitVec.ofNat 64 (leAt c.ent 16 8)
def Coll.dst (c : Coll) : Word := BitVec.ofNat 64 (leAt c.ent 24 8)
/-- DIES. -/
def Coll.dies (c : Coll) : Nat := leAt c.ent 35 1
/-- Bytes of a unit of a DTYPE: an element, or 64 bytes. -/
def ceUnit (dtype : Nat) : Nat := if dtype = 0 then 64 else if dtype = 4 then 8 else 4
/-- Bytes of a unit of the collective. -/
def Coll.unit (c : Coll) : Nat := ceUnit c.dtype
/-- Whether the operation reduces. -/
def Coll.reduces (c : Coll) : Bool := c.op == coAllReduce || c.op == coReduceScatter || c.op == coReduce

/-- The collective engine of a partition. -/
def Mach.coll (m : Mach) (p : Nat) : CollSt := Tbl.get CollSt.init m.colls p
/-- The engine replaced, with INFLIGHT following it (R435). -/
def Mach.setColl (m : Mach) (p : Nat) (x : CollSt) : Mach :=
  ({ m with colls := Tbl.set CollSt.init m.colls p x }).setFld R.COL_CSTAT_INFLIGHT [p] (x.fifo.length + x.runs.length)
/-- A collective in flight. -/
def Mach.run (m : Mach) (p axis k : Nat) : Option Coll := (m.coll p).runs.find? (fun c => c.axis == axis && c.k == k)
/-- A collective in flight replaced. -/
def Mach.setRun (m : Mach) (p : Nat) (c : Coll) : Mach :=
  let x := m.coll p
  m.setColl p { x with runs := x.runs.map (fun d => if d.axis = c.axis ∧ d.k = c.k then c else d) }

/-- This partition's rank on an axis. -/
def Mach.axisRank (m : Mach) (p a : Nat) : Nat := m.fld R.COL_TAXIS_RANK [p, a]
/-- A link axis (R315). -/
def Mach.axisLinked (m : Mach) (p a : Nat) : Bool := m.fld R.COL_TAXIS_LINKS [p, a] != 0
/-- The module of a rank of a link axis (R436). -/
def Mach.member (m : Mach) (p a r : Nat) : Nat :=
  ofLe (m.loadAt p (mkAddr 1 (m.fld R.COL_CMEMBERS_BASE [p] * 64 + a * 8192 + 2 * r)) 2)

/-- The bounds of the share of an owner in elements (R438): for REDUCE the root owns every element. -/
def Mach.share (m : Mach) (p : Nat) (c : Coll) (o : Nat) : Nat × Nat :=
  if c.op = coReduce then (if o = c.peer then (0, c.count) else (0, 0))
  else
    let h := ceilDiv c.count (m.axisSize p c.axis)
    (min (o * h) c.count, min ((o + 1) * h) c.count)
/-- The owners with elements. -/
def Mach.collOwners (m : Mach) (p : Nat) (c : Coll) : List Nat :=
  (List.range (m.axisSize p c.axis)).filter (fun o => (m.share p c o).1 != (m.share p c o).2)

/-! ### The end of an entry -/

/-- Bytes of staging. -/
def Mach.stageSize (m : Mach) (p : Nat) : Nat := m.fld R.COL_CSTAGE_MIB [p] * 2 ^ 20
/-- The partition address of a byte of staging. -/
def Mach.stageAddr (m : Mach) (p off : Nat) : Word := mkAddr (m.fld R.COL_CSTAGE_SPACE [p]) (m.fld R.COL_CSTAGE_BASE [p] * 65536 + off)
/-- The bytes of units lo to hi at a partition address, and whether they are poisoned. -/
def Mach.collRead (m : Mach) (p : Nat) (w : Word) (unit lo hi : Nat) : List Byte × Bool :=
  match m.segs p none false (adPlus w (lo * unit)) ((hi - lo) * unit) with
  | some l => (m.readSegs l, m.segsPoisoned l)
  | none => (List.replicate ((hi - lo) * unit) 0, false)
/-- The entry completes with a code: RESULT written, TOKEN incremented on PANE, outside a member's slice in its saved context (R435, R498). -/
def Mach.collEnd (m : Mach) (p : Nat) (slot : Nat) (e : List Byte) (code : Nat) : Mach :=
  let m := m.storeAt p (mkAddr 1 (m.fld R.COL_CRING_BASE [p] * 64 + slot * 64 + 56)) (leBytes 4 code)
  if (m.conf.cfg.panes p).contains (leAt e 32 2) then m.signalPane p (leAt e 32 2) (leAt e 34 1) else m

/-- A collective in flight ends: late parts may still come to an owner under a deadline (R318). -/
def Mach.runEnd (m : Mach) (p : Nat) (c : Coll) (code : Nat) : Mach :=
  let x := m.coll p
  let late := c.parts.filter (fun q => !q.here)
  let lates := if c.verdict.isSome && !late.isEmpty then
                 x.lates ++ [{ axis := c.axis, k := c.k, bucket := c.bucket, step := c.step, ranks := late.map (fun q => q.rank),
                               len := (late.map (fun q => q.len)).foldl max 0,
                               got := late.foldl (fun t q => Tbl.set [] t q.rank (m.collRead p (m.stageAddr p q.off) 1 0 q.got).1) [] }] else x.lates
  let owed := (List.range (m.axisSize p c.axis)).filter (fun r => !c.dones.contains r)
  let due := if c.grad && c.axis == 0 && m.axisRank p 0 == 0 && c.verdict.isSome && !owed.isEmpty then
               x.dueDones ++ [{ axis := c.axis, k := c.k, bucket := c.bucket, step := c.step, ranks := owed, len := 0, got := [] }] else x.dueDones
  let m := m.setColl p { x with runs := x.runs.filter (fun d => !(d.axis == c.axis && d.k == c.k)), lates := lates, dueDones := due }
  m.collEnd p c.slot c.ent code

/-- The figures of a bucket over all owners, in ascending owner rank (R440). -/
def collFigures (m : Mach) (p : Nat) (c : Coll) : List (Nat × Nat × Nat) :=
  (m.bucketEntries p c.bucket).map (fun x =>
    let l := (List.range (m.axisSize p c.axis)).flatMap (fun o => c.figs.filter (fun f => f.owner == o && f.entry == x.2))
    (x.2, toF32 (l.foldl (fun a f => a.add (f32 f.gsq)) .zero), (l.map (fun f => f.nonfinite)).sum))

/-- The collective ends OK; a GRAD entry of the data axis ends its bucket (R295, R440), and poison is recorded once (R444). -/
def Mach.runOk (m : Mach) (p : Nat) (c : Coll) : Mach :=
  let m := if c.poisoned then m.place { ErrRec.mk0 sevDeferred p ecPoisonUsed (isl 8 0) c.k 0 with step := c.step } else m
  let m := if c.grad && c.axis == 0 then
             let n := match c.verdict with
               | some v => v.2.2
               | none => 1
             m.bucketEnd p c.step c.bucket n (collFigures m p c)
           else m
  m.runEnd p c crOk

/-! ### Staging (R438) -/

/-- The pieces of staging in use. -/
def CollSt.staged (x : CollSt) : List (Nat × Nat) :=
  x.runs.flatMap (fun c => c.parts.map (fun q => (q.off, q.len)))
/-- The lowest room for n bytes: at the start or at the end of a piece in use. -/
def CollSt.room (x : CollSt) (size n : Nat) : Option Nat :=
  ((0 :: x.staged.map (fun s => s.1 + s.2)).filter (fun o =>
    decide (o + n ≤ size) && x.staged.all (fun s => decide (o + n ≤ s.1 ∨ s.1 + s.2 ≤ o)))).min?

/-- A message of a collective from this rank. -/
def Mach.cmsg (m : Mach) (p : Nat) (c : Coll) (kind : Nat) (nums : List Nat) (bytes : List Byte) (ps : Bool) : CMsg :=
  { kind := kind, axis := c.axis, k := c.k, own := c.k, rank := m.axisRank p c.axis, nums := nums, bytes := bytes, poisoned := ps }

/-- Bytes written at unit lo of a partition address. -/
def Mach.collWrite (m : Mach) (p : Nat) (w : Word) (off : Nat) (bs : List Byte) (ps : Bool) : Mach :=
  match m.segs p none true (adPlus w off) bs.length with
  | some l => (chunksOf l bs ps).foldl (fun m c => m.putChunk c) m
  | none => m

/-- Grants of an owner: room in staging for the parts of each rank of its share, in ascending rank (R438). -/
def Mach.grantParts : List Nat → Mach → Nat → Coll → Mach × List (Nat × CMsg)
  | [], m, _, _ => (m, [])
  | r :: l, m, p, c =>
    let c := (m.run p c.axis c.k).getD c
    let me := m.axisRank p c.axis
    let s := m.share p c me
    let n := (s.2 - s.1) * c.unit
    if n = 0 ∨ r = me ∨ c.parts.any (fun q => q.rank == r) then Mach.grantParts l m p c
    else match (m.coll p).room (m.stageSize p) n with
      | none => (m, [])
      | some o =>
        let m := m.setRun p { c with parts := c.parts ++ [{ rank := r, off := o, len := n, got := 0, here := false, poisoned := false }] }
        let (m', msgs) := Mach.grantParts l m p c
        (m', (r, m.cmsg p c cmGrant [] [] false) :: msgs)
/-- Grants of every reduction in flight that this rank owns a share of and whose sum is still to come. -/
def Mach.grantAll (m : Mach) (p : Nat) : Mach × List (Nat × CMsg) :=
  (m.coll p).runs.foldl (fun (a : Mach × List (Nat × CMsg)) c =>
    if c.reduces && m.axisLinked p c.axis && c.verdict.isNone then
      let b := Mach.grantParts (List.range (m.axisSize p c.axis)) a.1 p c
      (b.1, a.2 ++ b.2)
    else a) (m, [])

/-! ### The reduction (R439, R440) -/

/-- op of R439 on one element's code. -/
def collOp (dtype a b : Nat) : Nat :=
  if dtype = 1 then toF32 ((f32 a).add (f32 b))
  else if dtype = 2 then toF32 ((f32 a).max (f32 b))
  else if dtype = 3 then toF32 ((f32 a).min (f32 b))
  else (a + b) % 2 ^ 64
/-- The sum over contributions, in their order. -/
def collSum (dtype : Nat) : List (List Nat) → List Nat
  | [] => []
  | c :: l => l.foldl (fun acc d => acc.zipWith (collOp dtype) d) c
/-- N / n applied with one rounding (R317). -/
def collScale (big n : Nat) (a : Nat) : Nat := toF32 (((f32 a).mulExact (Fp.ofNat big)).div (Fp.ofNat n))
/-- The elements of a byte string. -/
def collElems (dtype : Nat) (bs : List Byte) : List Nat :=
  (List.range (bs.length / ceUnit dtype)).map (fun i => leAt bs (i * ceUnit dtype) (ceUnit dtype))
/-- The byte string of elements. -/
def collBytes (dtype : Nat) (l : List Nat) : List Byte := l.flatMap (fun v => leBytes (ceUnit dtype) v)

/-- The figures of an owner over its share of a bucket's result (R440), which stands at each of some offsets: per update entry of the bucket, over the
elements of its G range. A share of REDUCE_SCATTER lies at the start of its owner's DST. -/
def Mach.shareFigs (m : Mach) (p : Nat) (c : Coll) (owner : Nat) (at' : List Nat) (vals : List Nat) : List CFig :=
  if !c.grad then [] else
  (m.bucketEntries p c.bucket).map (fun x =>
    let mine := at'.flatMap (fun a =>
      (vals.zipIdx.filter (fun (v : Nat × Nat) => decide (ueG x.1 ≤ a + 4 * v.2 ∧ a + 4 * v.2 < ueG x.1 + 4 * ueCount x.1))).map (fun v => f32 v.1))
    { owner := owner, entry := x.2, gsq := toF32 (rowSumSq mine), nonfinite := (mine.filter (fun f => !f.finite)).length })

/-- A contribution of a late rank is kept for the next step under FOLD, or discarded (R318). -/
def Mach.keepStale (m : Mach) (p bucket step rank : Nat) (bs : List Byte) (ps : Bool) : Mach :=
  let x := m.coll p
  if m.fld R.COL_TCTL_STRAGGLER [p] = 1 ∧ !x.overs.contains step then
    m.setColl p { x with stale := x.stale ++ [{ bucket := bucket, step := step, rank := rank, bytes := bs, poisoned := ps }] }
  else m

/-- An owner sums its share over the counted ranks in ascending rank, then over the stale contributions of the step before (R439,
R317, R318). What N / n makes of a u64 element the spec does not say: Config.collScale (log entry 92). -/
def Mach.sumShare (m : Mach) (p : Nat) (c : Coll) (counted stale : List Nat) (n : Nat) : Mach × List Nat × Bool :=
  let me := m.axisRank p c.axis
  let s := m.share p c me
  let x := m.coll p
  let own := m.collRead p c.src c.unit s.1 s.2
  let part (r : Nat) : List (List Byte × Bool) :=
    if r = me then [own]
    else (c.parts.filter (fun q => q.rank == r)).map (fun q => ((m.collRead p (m.stageAddr p q.off) 1 0 q.len).1, q.poisoned))
  let old := (stale.flatMap (fun r => x.stale.filter (fun t => t.bucket == c.bucket && t.step == stepSub c.step 1 && t.rank == r))).map
    (fun t => (t.bytes, t.poisoned))
  let all := (List.range (m.axisSize p c.axis)).flatMap (fun r => if counted.contains r then part r else []) ++ old
  let sum := collSum c.dtype (all.map (fun b => collElems c.dtype b.1))
  let big := m.axisSize p c.axis
  let sum := if c.grad && decide (n < big) then sum.map (if c.dtype = 4 then Config.collScale big n else collScale big n) else sum
  let m := if counted.contains me then m else m.keepStale p c.bucket c.step me own.1 own.2
  let late := c.parts.filter (fun q => q.here && !counted.contains q.rank)
  let m := late.foldl (fun m q => m.keepStale p c.bucket c.step q.rank (m.collRead p (m.stageAddr p q.off) 1 0 q.len).1 q.poisoned) m
  let y := m.coll p
  let m := m.setColl p { y with stale := y.stale.filter (fun t => !(c.grad && t.bucket == c.bucket && t.step == stepSub c.step 1)) }
  let c := { (m.run p c.axis c.k).getD c with parts := c.parts.filter (fun q => !q.here) }
  (m.setRun p c, sum, all.any (fun b => b.2))

/-! ### Progress and completion -/

/-- Ranks whose data this rank receives in place: ALL_GATHER, BROADCAST, ALL_TO_ALL (R443). -/
def Mach.collSources (m : Mach) (p : Nat) (c : Coll) : List Nat :=
  (List.range (m.axisSize p c.axis)).filter (fun r => r != m.axisRank p c.axis && (c.op != coBroadcast || r == c.peer))
/-- Ranks this rank sends its data to. -/
def Mach.collTargets (m : Mach) (p : Nat) (c : Coll) : List Nat :=
  (List.range (m.axisSize p c.axis)).filter (fun r => r != m.axisRank p c.axis && (c.op != coBroadcast || m.axisRank p c.axis == c.peer))
/-- Units of one block, and the offsets of the block from a rank in DST and of the block for a rank in SRC (R443). -/
def Mach.blockUnits (m : Mach) (p : Nat) (c : Coll) : Nat := if c.op = coAllToAll then c.count / m.axisSize p c.axis else c.count
def Mach.blockIn (m : Mach) (p : Nat) (c : Coll) (r : Nat) : Nat := if c.op = coBroadcast then 0 else r * m.blockUnits p c * c.unit
def Mach.blockOut (m : Mach) (p : Nat) (c : Coll) (r : Nat) : Nat := if c.op = coAllToAll then r * m.blockUnits p c * c.unit else 0

/-- Whether a collective has all it waits for. -/
def Mach.collComplete (m : Mach) (p : Nat) (c : Coll) : Bool :=
  if c.reduces then
    c.doneSent && c.verdict.isSome && ((c.op != coAllReduce && !c.grad) || (m.collOwners p c).all (fun o => c.results.contains o))
  else if c.op = coAllGather ∨ c.op = coBroadcast ∨ c.op = coAllToAll then
    (m.collSources p c).all (fun r => c.results.contains r) && (m.collTargets p c).all (fun r => c.acked.contains r)
  else false

/-- A collective that has all it waits for completes; a contribution that every owner has acknowledged is DONE (R441). -/
def Mach.collStep (m : Mach) (p axis k : Nat) : Mach × List (Nat × CMsg) :=
  match m.run p axis k with
  | none => (m, [])
  | some c =>
    if c.reduces && !c.doneSent && (m.collOwners p c).all (fun o => o == m.axisRank p axis || c.acked.contains o) then
      (m.setRun p { c with doneSent := true }, [(0, m.cmsg p c cmDone [] [] false)])
    else if m.collComplete p c then
      let m := m.runOk p c
      m.grantAll p
    else (m, [])

/-- A bitmap of ranks, and the ranks of a bitmap. -/
def rankMap (big : Nat) (l : List Nat) : List Byte := leBytes (ceilDiv big 8) ((l.map (fun r => 2 ^ r)).sum)
def mapRanks (big : Nat) (bs : List Byte) : List Nat := (List.range big).filter (fun r => bitAt (ofLe bs) r)
/-- The coordinator fixes the counted set (R441, R317, R318): SET to every rank, with n, the bitmap of the counted ranks and that of the ranks whose
stale contributions it folds in (log entry 17). -/
def Mach.collDecide (m : Mach) (p : Nat) (c : Coll) : Mach × List (Nat × CMsg) :=
  let x := m.coll p
  let big := m.axisSize p c.axis
  let counted := (List.range big).filter (fun r => c.dones.contains r)
  let stale := if c.grad then
                 (List.range big).filter (fun r => x.lateDones.contains (c.bucket, stepSub c.step 1, r)) else []
  let m := m.setColl p { x with lateDones := x.lateDones.filter (fun t => !(c.grad && t.1 == c.bucket && t.2.1 == stepSub c.step 1)) }
  let m := m.setRun p { c with deadline := 0 }
  (m, (List.range big).map (fun r => (r, m.cmsg p c cmSet [counted.length + stale.length] (rankMap big counted ++ rankMap big stale) false)))
/-- Deadlines apply to a GRAD entry of the data axis (R316, R443). -/
def Mach.collTimed (m : Mach) (p : Nat) (c : Coll) : Bool :=
  c.grad && c.axis == 0 && m.fld R.COL_TCTL_STRAGGLER [p] != 0 && m.fld R.COL_TDEADLINE_DEADLINE_US [p] != 0
/-- T_dl has passed with a quorum, 0 for all N (R317, R323); while the partition is PAUSED it does not pass (R288). -/
def Mach.collDue (m : Mach) (p : Nat) (c : Coll) : Bool :=
  c.deadline != 0 && c.verdict.isNone && decide (c.deadline ≤ m.now + 1) && m.pstate p != psPaused &&
  (let q := m.fld R.COL_TDEADLINE_QUORUM [p]
   decide ((if q = 0 then m.axisSize p c.axis else q) ≤ c.dones.length))

/-! ### Failure (R445, R446) -/

/-- An entry takes its number on its axis, and a SEND or a RECV that between this rank and its peer, in the order of submission (R436, R443): the
two numbers, and the engine after it. -/
def CollSt.counted (x : CollSt) (e : List Byte) : (Nat × Nat) × CollSt :=
  let axis := leAt e 8 1
  let k := Tbl.get 0 x.counts axis
  let key := axis * 65536 + leAt e 10 2
  let nth := if ceOp e = coSend then Tbl.get 0 x.sends key else if ceOp e = coRecv then Tbl.get 0 x.recvs key else 0
  ((k, nth), { x with counts := Tbl.set 0 x.counts axis (k + 1),
                      sends := if ceOp e = coSend then Tbl.set 0 x.sends key (nth + 1) else x.sends,
                      recvs := if ceOp e = coRecv then Tbl.set 0 x.recvs key (nth + 1) else x.recvs })
/-- A collective fails here; ABORT goes to every other rank that a route reaches. -/
def Mach.collFail (m : Mach) (p : Nat) (c : Coll) (code : Nat) (tell : Bool) : Mach :=
  let m := m.runEnd p c code
  if tell && m.axisLinked p c.axis then
    ((List.range (m.axisSize p c.axis)).filter (fun r => r != m.axisRank p c.axis)).foldl (fun m r =>
      m.trySend (m.member p c.axis r) (m.jobOf p) cmAbort c.k (leBytes 1 c.axis ++ leBytes 2 (m.axisRank p c.axis)) false) m
  else m
/-- Every started collective of a partition ends with PARTITION, and every submitted one (R447, R490). -/
def Mach.collPartition (m : Mach) (p : Nat) : Mach :=
  let x := m.coll p
  let m := x.runs.foldl (fun m c => m.runEnd p c crPartition) m
  let m := x.fifo.foldl (fun m e => m.collEnd p e.1 e.2 crPartition) m
  let y := x.fifo.foldl (fun y e => (y.counted e.2).2) x
  if x = CollSt.init then m else m.setColl p { CollSt.init with counts := y.counts, sends := y.sends, recvs := y.recvs }
/-- A step ended OVERFLOW: stale contributions of it are discarded (R318). -/
def Mach.collOverflow (m : Mach) (p step : Nat) : Mach :=
  let x := m.coll p
  if 1 < m.axisSize p 0 then
    m.setColl p { x with overs := (step :: x.overs).take 4, stale := x.stale.filter (fun t => t.step != step),
                         lateDones := x.lateDones.filter (fun t => t.2.1 != step) }
  else m

/-! ### Messages -/

/-- GRANT (R438): this rank's part goes to the owner, or its block to the receiver. -/
def Mach.onGrant (m : Mach) (p : Nat) (c : Coll) (g : CMsg) : Mach × List (Nat × CMsg) :=
  if c.granted.contains g.rank then (m, []) else
  let m := m.setRun p { c with granted := c.granted ++ [g.rank] }
  let d := if c.reduces then
             let s := m.share p c g.rank
             m.collRead p c.src c.unit s.1 s.2
           else m.collRead p (adPlus c.src (m.blockOut p c g.rank)) c.unit 0 (m.blockUnits p c)
  (m, [(g.rank, m.cmsg p c cmShare [c.op, c.dtype, c.count] d.1 d.2)])

/-- SHARE (R438, R443, R445): staged by the owner, or written in place, and acknowledged once the whole part has come; a late part is stale. -/
def Mach.onShare (m : Mach) (p : Nat) (c : Coll) (g : CMsg) : Mach × List (Nat × CMsg) :=
  if g.nums.getD 0 0 ≠ c.op ∨ g.nums.getD 1 0 ≠ c.dtype ∨ g.nums.getD 2 0 ≠ c.count then (m.collFail p c crPeerMismatch true, [])
  else
    let ack := (g.rank, m.cmsg p c cmAck [] [] false)
    if c.reduces then
      match c.parts.find? (fun q => q.rank == g.rank && !q.here) with
      | none => (m, [])
      | some q =>
        let m := m.collWrite p (m.stageAddr p q.off) q.got (g.bytes.take (q.len - q.got)) g.poisoned
        let q' := { q with got := q.got + g.bytes.length, poisoned := q.poisoned || g.poisoned, here := decide (q.len ≤ q.got + g.bytes.length) }
        if q'.here && c.verdict.isSome then
          let m := m.keepStale p c.bucket c.step g.rank (m.collRead p (m.stageAddr p q.off) 1 0 q.len).1 q'.poisoned
          (m.setRun p { c with parts := c.parts.filter (fun r => r.rank != g.rank) }, [ack])
        else (m.setRun p { c with parts := c.parts.map (fun r => if r.rank = g.rank then q' else r) }, if q'.here then [ack] else [])
    else
      let n := m.blockUnits p c * c.unit
      let o := Tbl.get 0 c.got g.rank
      let m := m.collWrite p c.dst (m.blockIn p c g.rank + o) (g.bytes.take (n - o)) g.poisoned
      let whole := decide (n ≤ o + g.bytes.length)
      (m.setRun p { c with got := Tbl.set 0 c.got g.rank (o + g.bytes.length), results := if whole then insertNat g.rank c.results else c.results,
                           poisoned := c.poisoned || g.poisoned }, if whole then [ack] else [])

/-- ACK (R438, R441). -/
def Mach.onAck (m : Mach) (p : Nat) (c : Coll) (g : CMsg) : Mach × List (Nat × CMsg) :=
  (m.setRun p { c with acked := insertNat g.rank c.acked }, [])

/-- DONE at the coordinator (R316, R317, R441): the first one fixes T_dl; at T_dl or later it is late once a quorum has counted. -/
def Mach.onDone (m : Mach) (p : Nat) (c : Coll) (g : CMsg) : Mach × List (Nat × CMsg) :=
  let late (m : Mach) : Mach :=
    let x := m.coll p
    if m.fld R.COL_TCTL_STRAGGLER [p] = 1 ∧ !x.overs.contains c.step then
      m.setColl p { x with lateDones := x.lateDones ++ [(c.bucket, c.step, g.rank)] }
    else m
  if c.verdict.isSome ∨ c.dones.contains g.rank then (late m, [])
  else if m.collDue p c then
    let (m, out) := m.collDecide p c
    (late m, out)
  else
    let dl := if c.dones.isEmpty && m.collTimed p c then m.now + m.fld R.COL_TDEADLINE_DEADLINE_US [p] * 1000 + 1 else c.deadline
    let c := { c with dones := insertNat g.rank c.dones, deadline := dl }
    let m := m.setRun p c
    if c.dones.length = m.axisSize p c.axis ∨ m.collDue p c then m.collDecide p c else (m, [])

/-- SET (R439): owners sum; the step notes its late and folded contributions (R319). -/
def Mach.onSet (m : Mach) (p : Nat) (c : Coll) (g : CMsg) : Mach × List (Nat × CMsg) :=
  if c.verdict.isSome then (m, []) else
  let n := g.nums.getD 0 0
  let me := m.axisRank p c.axis
  let big := m.axisSize p c.axis
  let counted := mapRanks big (g.bytes.take (ceilDiv big 8))
  let stale := mapRanks big (g.bytes.drop (ceilDiv big 8))
  let m := match m.tstep p c.step with
    | some t => if c.grad && c.axis == 0 then m.setTstep p { t with late := t.late + (big - counted.length), folded := t.folded + stale.length } else m
    | none => m
  let c := { c with verdict := some (counted, stale, n) }
  let m := m.setRun p c
  if !(m.collOwners p c).contains me then (m, []) else
  let (m, sum, ps) := m.sumShare p c counted stale n
  let s := m.share p c me
  let bs := collBytes c.dtype sum
  let c := { (m.run p c.axis c.k).getD c with poisoned := c.poisoned || ps }
  let m := m.setRun p c
  let m := if c.op = coAllReduce then m else m.collWrite p c.dst 0 bs ps
  let figs := m.shareFigs p c me [adOffset c.dst + 4 * (if c.op = coAllReduce then s.1 else 0)] sum
  let nums := figs.flatMap (fun f => [f.entry, f.gsq, f.nonfinite])
  if c.op = coAllReduce ∨ c.grad then
    let tos := List.range big
    (m, tos.map (fun r => (r, m.cmsg p c cmResult nums (if c.op = coAllReduce then bs else []) ps)))
  else (m, [])

/-- The figures of a RESULT's numbers. -/
def figsOf (owner : Nat) : List Nat → List CFig
  | e :: g :: n :: l => { owner := owner, entry := e, gsq := g, nonfinite := n } :: figsOf owner l
  | _ => []

/-- RESULT (R439, R440): the share written to DST and its figures kept. -/
def Mach.onResult (m : Mach) (p : Nat) (c : Coll) (g : CMsg) : Mach × List (Nat × CMsg) :=
  if c.results.contains g.rank then (m, []) else
  let s := m.share p c g.rank
  let n := if c.op = coAllReduce then (s.2 - s.1) * c.unit else 0
  let o := Tbl.get 0 c.got g.rank
  let m := if n = 0 then m else m.collWrite p c.dst (s.1 * c.unit + o) (g.bytes.take (n - o)) g.poisoned
  (m.setRun p { c with got := Tbl.set 0 c.got g.rank (o + g.bytes.length), results := if n ≤ o + g.bytes.length then insertNat g.rank c.results else c.results,
                       figs := c.figs ++ figsOf g.rank g.nums, poisoned := c.poisoned || g.poisoned }, [])

/-- BARRIER (R443): the coordinator answers each rank once it has heard from all. -/
def Mach.onBarrier (m : Mach) (p : Nat) (c : Coll) (g : CMsg) : Mach × List (Nat × CMsg) :=
  if g.nums.getD 0 0 = 1 then (m.runOk p c, [])
  else
    let c := { c with heard := insertNat g.rank c.heard }
    if c.heard.length = m.axisSize p c.axis then
      (m.runOk p c, ((List.range (m.axisSize p c.axis)).filter (fun r => r != m.axisRank p c.axis)).map (fun r => (r, m.cmsg p c cmBarrier [1] [] false)))
    else (m.setRun p c, [])

/-- SEND_RTS at the RECV it matches (R443): CTS names DST; a different COUNT or DTYPE is a mismatch (R445). -/
def Mach.onRts (m : Mach) (p : Nat) (c : Coll) (g : CMsg) : Mach × List (Nat × CMsg) :=
  if g.nums.getD 1 0 ≠ c.count ∨ g.nums.getD 2 0 ≠ c.dtype then (m.collFail p c crPeerMismatch true, [])
  else (m.setRun p { c with granted := [g.rank] }, [(g.rank, { m.cmsg p c cmCts [c.k, c.dst.toNat] [] false with k := g.k })])
/-- SEND_CTS (R443): data flow straight into DST; the SEND completes when they have left. -/
def Mach.onCts (m : Mach) (p : Nat) (c : Coll) (g : CMsg) : Mach × List (Nat × CMsg) :=
  let d := m.collRead p c.src c.unit 0 c.count
  (m, [(g.rank, { m.cmsg p c cmData [] d.1 d.2 with k := g.nums.getD 0 0 })])
/-- SEND_DATA (R443, R444). -/
def Mach.onData (m : Mach) (p : Nat) (c : Coll) (g : CMsg) : Mach × List (Nat × CMsg) :=
  let n := c.count * c.unit
  let o := Tbl.get 0 c.got g.rank
  let m := m.collWrite p c.dst o (g.bytes.take (n - o)) g.poisoned
  let c := { c with got := Tbl.set 0 c.got g.rank (o + g.bytes.length), poisoned := c.poisoned || g.poisoned }
  (if n ≤ o + g.bytes.length then m.runOk p c else m.setRun p c, [])

/-- The collective that a message is for: its axis and number, or for a SEND_RTS the RECV of its order. -/
def Mach.collFor (m : Mach) (p : Nat) (g : CMsg) : Option Coll :=
  if g.kind = cmRts then
    (m.coll p).runs.find? (fun c => c.op == coRecv && c.axis == g.axis && c.peer == g.rank && c.nth == g.nums.getD 0 0 && c.granted.isEmpty)
  else m.run p g.axis g.k

/-- One message at its collective. -/
def Mach.collOn (m : Mach) (p : Nat) (c : Coll) (g : CMsg) : Mach × List (Nat × CMsg) :=
  let act := if g.kind = cmShare then Mach.onShare else if g.kind = cmGrant then Mach.onGrant else if g.kind = cmAck then Mach.onAck
    else if g.kind = cmDone then Mach.onDone else if g.kind = cmSet then Mach.onSet else if g.kind = cmResult then Mach.onResult
    else if g.kind = cmBarrier then Mach.onBarrier else if g.kind = cmRts then Mach.onRts else if g.kind = cmCts then Mach.onCts
    else if g.kind = cmData then Mach.onData else (fun m p c _ => (m.collFail p c crAborted false, []))
  let a := act m p c g
  let b := a.1.collStep p c.axis c.k
  let d := b.1.collStep p c.axis c.k
  (d.1, a.2 ++ b.2 ++ d.2)

/-- Data bytes of one message: what it carries beside them leaves it within 2^26 bytes (R417, log entry 17). -/
def dataMax : Nat := 2 ^ 25
/-- Data in pieces of one message each. -/
def dataPieces : Nat → List Byte → List (List Byte)
  | 0, bs => [bs]
  | n + 1, bs => if bs.length ≤ dataMax then [bs] else bs.take dataMax :: dataPieces n (bs.drop dataMax)
/-- The SEND whose data have left completes (R443). -/
def Mach.sendEnds (m : Mach) (p : Nat) (g : CMsg) : Mach :=
  match if g.kind = cmData then m.run p g.axis g.own else none with
  | some c => m.runOk p c
  | none => m
/-- A message of this rank leaves for another module, its data in as many messages as they need, or waits for a link that is in TRAIN or NEGOTIATE
(R417, R425); without a route, or without a JOB (R431), its collective ends with ROUTE_MISSING (R446). The body is the axis, the rank, the numbers,
in the first message and in each SHARE, and the data (log entry 17). -/
def Mach.collSend (m : Mach) (p r : Nat) (g : CMsg) : Mach :=
  let body (v : List Byte × Nat) : List Byte :=
    leBytes 1 g.axis ++ leBytes 2 g.rank ++ (if v.2 = 0 ∨ g.kind = cmShare then g.nums else []).flatMap (leBytes 8) ++ v.1
  let dst := m.member p g.axis r
  let job := m.jobOf p
  match if job = 0 then none else (m.routeLink dst m.moduleId job g.k).orElse (fun _ => m.routeWaits dst) with
  | some n =>
    ((dataPieces (g.bytes.length / dataMax) g.bytes).zipIdx.foldl (fun m v => m.sendOn n dst job g.kind 16 g.k m.moduleId (body v) g.poisoned) m).sendEnds p g
  | none => match m.run p g.axis g.own with
    | some c => m.collFail p c crRouteMissing true
    | none => m

/-- Outgoing messages: those to this rank act at once, the others leave. -/
def Mach.collFlow : Nat → Mach → Nat → List (Nat × CMsg) → Mach
  | 0, m, _, _ => m
  | _ + 1, m, _, [] => m
  | n + 1, m, p, (r, g) :: l =>
    if r = m.axisRank p g.axis then
      match m.collFor p g with
      | some c =>
        let a := m.collOn p c g
        Mach.collFlow n (a.1.sendEnds p g) p (l ++ a.2)
      | none => Mach.collFlow n m p l
    else Mach.collFlow n (m.collSend p r g) p l
/-- Steps enough for every message a step can cause. -/
def flowFuel (m : Mach) (p : Nat) (l : List (Nat × CMsg)) : Nat :=
  64 + 8 * l.length + 8 * ((m.coll p).runs.length + 1) * (4 + ((List.range 5).map (fun a => m.axisSize p a)).sum)
/-- Grants for the staging that is free now (R438), as long as sending one frees more. -/
def Mach.collGrants : Nat → Mach → Nat → Mach
  | 0, m, _ => m
  | n + 1, m, p =>
    let a := m.grantAll p
    if a.2.isEmpty then a.1 else Mach.collGrants n (Mach.collFlow (flowFuel a.1 p a.2) a.1 p a.2) p
/-- The messages sent, and the grants that staging freed on the way allows. -/
def Mach.collOut (m : Mach) (p : Nat) (l : List (Nat × CMsg)) : Mach :=
  let m := Mach.collFlow (flowFuel m p l) m p l
  Mach.collGrants ((m.coll p).runs.length + 1) m p

/-- A link left without returning to the same partner: the collectives whose axis uses it end with LINK_LOST (R446). -/
def Mach.collLinkLost (m : Mach) (n : Nat) : Mach :=
  (List.range 32).foldl (fun m i =>
    let hit := (m.coll (i + 1)).runs.filter (fun c => bitAt (m.fld R.COL_TAXIS_LINKS [i + 1, c.axis]) n)
    if hit.isEmpty then m else (hit.foldl (fun m c => m.collFail (i + 1) c crLinkLost true) m).collOut (i + 1) []) m
/-- A violation, and the collectives that QUARANTINED ends (R430, R446). -/
def Mach.violation (m : Mach) (n code cls sq : Nat) : Mach :=
  let was := m.lstate n
  let m := m.violate n code cls sq
  if was ≠ lkQuarantined ∧ m.lstate n = lkQuarantined then m.collLinkLost n else m

/-- A late part of an ended collective (R318): once the whole of it has come, kept stale or discarded, and acknowledged. -/
def Mach.collLate (m : Mach) (p : Nat) (g : CMsg) : Option Mach :=
  let x := m.coll p
  if g.kind = cmShare then
    (x.lates.find? (fun l => l.axis == g.axis && l.k == g.k && l.ranks.contains g.rank)).map (fun l =>
      let bs := Tbl.get [] l.got g.rank ++ g.bytes
      let put (m : Mach) (l' : CLate) : Mach :=
        let y := m.coll p
        m.setColl p { y with lates := (y.lates.map (fun d => if d = l then l' else d)).filter (fun d => !d.ranks.isEmpty) }
      if bs.length < l.len then put m { l with got := Tbl.set [] l.got g.rank bs }
      else
        (put (m.keepStale p l.bucket l.step g.rank bs g.poisoned)
          { l with ranks := l.ranks.filter (fun r => r != g.rank), got := Tbl.set [] l.got g.rank [] }).collSend p g.rank
          { g with kind := cmAck, rank := m.axisRank p g.axis, nums := [], bytes := [], poisoned := false })
  else none

/-- A DONE that reaches the coordinator after its collective has ended here (R318): late, and stale for the next step under FOLD. -/
def Mach.doneLate (m : Mach) (p : Nat) (g : CMsg) : Option Mach :=
  let x := m.coll p
  if g.kind = cmDone then
    (x.dueDones.find? (fun l => l.axis == g.axis && l.k == g.k && l.ranks.contains g.rank)).map (fun l =>
      let due := (x.dueDones.map (fun d => if d = l then { d with ranks := d.ranks.filter (fun r => r != g.rank) } else d)).filter (fun d => !d.ranks.isEmpty)
      let late := if m.fld R.COL_TCTL_STRAGGLER [p] = 1 ∧ !x.overs.contains l.step then x.lateDones ++ [(l.bucket, l.step, g.rank)] else x.lateDones
      m.setColl p { x with dueDones := due, lateDones := late })
  else none

/-- A collective message of a job arrives on a link: its unit takes it; the job's partition acts on it, keeps it for a collective it
has not started, or answers a violation (R431, R445). -/
def Mach.collIn (m : Mach) (n src job : Nat) (g : CMsg) : Mach :=
  let cls := if g.kind < 0x28 then clCollective else clMemory
  if m.jobShut job then m else
  let sq := m.waitingSeq n cls
  let m := m.consumed n cls
  let p := m.jobPart job
  if p = 0 then (m.addSat R.MRD_STAT_UNCLAIMED [] 1).unreachable src job g.kind g.k
  else if m.member p g.axis g.rank ≠ src ∨ m.axisSize p g.axis ≤ g.rank ∨ !m.axisLinked p g.axis then m.violation n 0x07 cls sq
  else match m.collFor p g with
    | some c =>
      let a := m.collOn p c g
      a.1.collOut p a.2
    | none =>
      if g.kind = cmRts ∨ Tbl.get 0 (m.coll p).counts g.axis ≤ g.k then m.setColl p { m.coll p with early := (m.coll p).early ++ [g] }
      else match (m.collLate p g).orElse (fun _ => m.doneLate p g) with
        | some m => m
        | none =>
          if g.kind = cmShare ∨ g.kind = cmDone ∨ g.kind = cmResult then m.violation n 0x07 cls sq else m

/-! ### The ring (R435) -/

/-- Submitted entries: while the entry at NEXT holds SEAL = NEXT in bytes that a write has just covered. -/
def Mach.collSubmit (m : Mach) (p off n : Nat) : Nat → Mach
  | 0 => m
  | fuel + 1 =>
    let next := m.fld R.COL_CSTAT_NEXT [p]
    let cnt := m.fld R.COL_CRING_ENTRIES [p]
    let at_ := m.fld R.COL_CRING_BASE [p] * 64 + (if cnt = 0 then 0 else next % cnt) * 64
    if cnt ≠ 0 ∧ off ≤ at_ + 60 ∧ at_ + 64 ≤ off + n ∧ ofLe (m.loadAt p (mkAddr 1 (at_ + 60)) 4) = next then
      let x := m.coll p
      let m := m.setColl p { x with fifo := x.fifo ++ [(next % cnt, m.loadAt p (mkAddr 1 at_) 64)] }
      Mach.collSubmit (m.setFld R.COL_CSTAT_NEXT [p] ((next + 1) % 2 ^ 32)) p off n fuel
    else m

/-- What the member of rank r reads and writes for an entry: units of SRC and of DST. -/
def Mach.collSpan (m : Mach) (p : Nat) (c : Coll) (r : Nat) : Nat × Nat :=
  let big := m.axisSize p c.axis
  if c.op = coBarrier then (0, 0)
  else if c.op = coSend then (c.count, 0)
  else if c.op = coRecv then (0, c.count)
  else if c.op = coAllGather then (c.count, c.count * big)
  else if c.op = coBroadcast then (if r = c.peer then c.count else 0, c.count)
  else if c.op = coReduceScatter then (c.count, (m.share p c r).2 - (m.share p c r).1)
  else if c.op = coReduce then (c.count, if r = c.peer then c.count else 0)
  else (c.count, c.count)
/-- Where SRC and DST of the member of rank r of a package axis lie: rank r is the r-th set bit of DIES (R436, log entry 41). -/
def Mach.collPlace (m : Mach) (p : Nat) (c : Coll) (r : Nat) : Word × Word :=
  let most := m.collSpan p c (if c.op = coReduceScatter then 0 else c.peer)
  let die := (setBits 8 c.dies).getD r 0
  (adPlus c.src (Config.memberOffset die (most.1 * c.unit)), adPlus c.dst (Config.memberOffset die (most.2 * c.unit)))

/-- Whether n bytes at an address lie in the partition's Transom, outside its conduits' queues (R262), or in its HBM. -/
def Mach.collHas (m : Mach) (p : Nat) (w : Word) (write : Bool) (n : Nat) : Bool :=
  n == 0 || ((adSpace w == 1 || adSpace w == 2) && (m.segs p none write w n).isSome && !(adSpace w == 1 && m.conf.cfg.inQueue p (if write then adOffset40 w else adOffset w) n))

/-- The check of an entry before it starts (R437): on a package axis, every member's addresses. -/
def Mach.collCheck (m : Mach) (p : Nat) (c : Coll) : Nat :=
  let big := m.axisSize p c.axis
  let linked := m.axisLinked p c.axis
  let has (r : Nat) : Bool :=
    let span := m.collSpan p c r
    let at' := if linked then (c.src, c.dst) else m.collPlace p c r
    m.collHas p at'.1 false (span.1 * c.unit) && m.collHas p at'.2 true (span.2 * c.unit)
  if c.op = 0 ∨ 9 < c.op ∨ 4 < c.dtype ∨ leAt c.ent 36 20 ≠ 0 ∨ (c.reduces ∧ c.dtype = 0) ∨
     (c.op = coAllToAll ∧ c.count % big ≠ 0) ∨ ((c.op = coBroadcast ∨ c.op = coReduce ∨ c.op = coSend ∨ c.op = coRecv) ∧ big ≤ c.peer ∧ big ≠ 1)
  then crBadEntry
  else if !(if linked then [m.axisRank p c.axis] else List.range big).all has then crAddrRange
  else if 4 < c.axis ∨ big = 1 ∨ (!c.reduces ∧ c.dtype ≠ 0) ∨ (!linked ∧ popCount 8 c.dies ≠ big) then crAxis
  else crOk

/-- A package axis (R436): every member's data are in the module, and the collective runs whole. -/
def Mach.collPackage (m : Mach) (p : Nat) (c : Coll) : Mach :=
  let big := m.axisSize p c.axis
  let ranks := List.range big
  let read (lo hi r : Nat) : List Byte × Bool := m.collRead p (m.collPlace p c r).1 c.unit lo hi
  let put (m : Mach) (r off : Nat) (d : List Byte × Bool) : Mach := m.collWrite p (m.collPlace p c r).2 off d.1 d.2
  if c.reduces then
    let parts := ranks.map (fun r => read 0 c.count r)
    let sum := collSum c.dtype (parts.map (fun d => collElems c.dtype d.1))
    let ps := parts.any (fun d => d.2)
    let m := ranks.foldl (fun m r =>
      if c.op = coReduce ∧ r ≠ c.peer then m
      else
        let s := if c.op = coReduceScatter then m.share p c r else (0, c.count)
        put m r 0 (collBytes c.dtype ((sum.drop s.1).take (s.2 - s.1)), ps)) m
    let spot (r : Nat) : Nat := adOffset (m.collPlace p c r).2
    let figs := ranks.flatMap (fun o =>
      let s := m.share p c o
      m.shareFigs p c o (if c.op = coAllReduce then ranks.map (fun r => spot r + 4 * s.1) else [spot o]) ((sum.drop s.1).take (s.2 - s.1)))
    m.runOk p { c with verdict := some (ranks, [], big), figs := figs, poisoned := ps }
  else
    let blk := m.blockUnits p c
    let moves := if c.op = coAllGather then ranks.flatMap (fun r => ranks.map (fun t => (t, r * blk * c.unit, read 0 blk r)))
      else if c.op = coBroadcast then ranks.map (fun t => (t, 0, read 0 blk c.peer))
      else if c.op = coAllToAll then ranks.flatMap (fun r => ranks.map (fun t => (t, r * blk * c.unit, read (t * blk) ((t + 1) * blk) r)))
      else []
    let m := moves.foldl (fun m t => put m t.1 t.2.1 t.2.2) m
    m.runOk p { c with poisoned := moves.any (fun t => t.2.2.2) }
/-- A SEND and a RECV of one package axis meet in the order of their entries (R443): the SEND names the rank that receives and the RECV the rank that
sends, which are two (log entry 41). -/
def Mach.collMeet (m : Mach) (p : Nat) (c : Coll) : Mach :=
  match (m.coll p).runs.find? (fun d => d.axis == c.axis && d.op == (if c.op = coSend then coRecv else coSend) && d.peer != c.peer && d.dies == c.dies) with
  | none => m
  | some d =>
    let s := if c.op = coSend then c else d
    let r := if c.op = coSend then d else c
    if s.count ≠ r.count then (m.collFail p s crPeerMismatch false).collFail p r crPeerMismatch false
    else
      let x := m.collRead p (m.collPlace p s r.peer).1 s.unit 0 s.count
      let m := m.collWrite p (m.collPlace p r s.peer).2 0 x.1 x.2
      (m.runOk p s).runOk p { r with poisoned := x.2 }

/-- The first messages of a collective on a link axis. -/
def Mach.collBegin (m : Mach) (p : Nat) (c : Coll) : Mach × List (Nat × CMsg) :=
  let me := m.axisRank p c.axis
  if c.reduces then
    let a := m.grantAll p
    let b := a.1.collStep p c.axis c.k
    (b.1, a.2 ++ b.2)
  else if c.op = coSend then (m, [(c.peer, m.cmsg p c cmRts [c.nth, c.count, c.dtype] [] false)])
  else if c.op = coRecv then (m, [])
  else if c.op = coBarrier then (m, [(0, m.cmsg p c cmBarrier [0] [] false)])
  else
    let own := (c.op == coBroadcast && me != c.peer)
    let d := m.collRead p (adPlus c.src (m.blockOut p c me)) c.unit 0 (m.blockUnits p c)
    let m := if own then m else m.collWrite p c.dst (m.blockIn p c me) d.1 d.2
    (m, (m.collSources p c).map (fun r => (r, m.cmsg p c cmGrant [] [] false)))

/-- An entry with reserved OP at the front ends with BAD_ENTRY (R437); at most one per start. -/
def Mach.collStart (m : Mach) (p op : Nat) : Mach :=
  let x := m.coll p
  let st := m.pstate p
  if !m.running ∨ m.held p ∨ !(st == psActive || (st == psDraining && decide (1 < x.drain))) then m
  else match x.fifo with
    | [] => m
    | (slot, e) :: l =>
      let bad := decide (ceOp e = 0 ∨ 9 < ceOp e)
      if ceOp e ≠ op ∧ !bad then m
      else
        let axis := leAt e 8 1
        let peer := leAt e 10 2
        let ((k, nth), y) := x.counted e
        let c : Coll := { slot := slot, ent := e, axis := axis, k := k, start := m.now, nth := nth, granted := [], acked := [], parts := [],
                          doneSent := false, dones := [], deadline := 0, verdict := none, got := [], results := [], figs := [], poisoned := false, heard := [] }
        let x := { y with fifo := l, drain := y.drain - 1 }
        let code := if bad then crBadEntry else m.collCheck p c
        if code ≠ crOk then (m.setColl p x).collEnd p slot e code
        else
          let m := m.setColl p { x with runs := x.runs ++ [c] }
          let m := if c.grad && axis == 0 then
                     (match m.tstep p c.step with
                      | some t => m.setTstep p { t with handed := insertNat c.bucket t.handed }
                      | none => m) else m
          if !m.axisLinked p axis then (if op = coSend ∨ op = coRecv then m.collMeet p c else m.collPackage p c)
          else
            let a := m.collBegin p c
            let m := a.1.collOut p a.2
            let y := m.coll p
            let mine := y.early.filter (fun g => (g.axis == axis && g.k == k && g.kind != cmRts) ||
              (g.kind == cmRts && op == coRecv && g.axis == axis && g.rank == peer && g.nums.getD 0 0 == nth))
            let m := m.setColl p { y with early := y.early.filter (fun g => !mine.contains g) }
            mine.foldl (fun m g => match m.collFor p g with
              | some c => let a := m.collOn p c g; a.1.collOut p a.2
              | none => m) m

/-- COLLECTIVE_TIMEOUT (R447). -/
def Mach.collTimeout (m : Mach) (p : Nat) : Mach :=
  let ms := m.fld R.COL_CCFG_TIMEOUT_MS [p]
  let lim := (if ms = 0 then 1000 else ms) * 10 ^ 6
  let hit := (m.coll p).runs.filter (fun c => decide (c.start + lim ≤ m.now))
  if m.shut p ∨ hit.isEmpty then m else (hit.foldl (fun m c => m.collFail p c crTimeout false) m).collOut p []

/-- STRAGGLER_DEADLINE (R317): the buckets whose T_dl has come with a quorum proceed. -/
def Mach.collDeadline (m : Mach) (p : Nat) : Mach :=
  if m.shut p then m else (m.coll p).runs.foldl (fun m c =>
    if m.collDue p c then
      let a := m.collDecide p c
      a.1.collOut p a.2
    else m) m

end Sys2Proof.Machine
end

