-- ==== Sys2Proof/Machine/Spans.lean ====
section
/-! DEFINITION. The words of matrix, vector and copy commands (R103, R161, R172), offload arenas (R312, R313), the memory that the references of a command take, and the memory routes its accesses use (R26, R40, R393). -/

namespace Sys2Proof.Machine

/-- CVT word of a command. -/
def QCmd.cvt (q : QCmd) : Word := q.desc.w6
/-- SEED of a command. -/
def QCmd.seed (q : QCmd) : Word := q.desc.w4

/-! ### The MXC word (R103) -/

/-- A_FMT. -/
def mxA (w : Word) : Nat := bits w.toNat 39 36
/-- B_FMT. -/
def mxB (w : Word) : Nat := bits w.toNat 35 32
/-- MODE. -/
def mxMode (w : Word) : Nat := bits w.toNat 27 26
/-- The number of slices P of a tile (R103). -/
def mxP (w : Word) : Nat := 2 ^ mxSplit w
/-- SLICE. -/
def mxSlice (w : Word) : Nat := bits w.toNat 22 19
/-- SROUND. -/
def mxSround (w : Word) : Bool := bitAt w.toNat 18
/-- ADDEND. -/
def mxAddend (w : Word) : Bool := bitAt w.toNat 17
/-- KGROUPS. -/
def mxG (w : Word) : Nat := bits w.toNat 15 0

/-- Rows and columns of the tile (R103). -/
def mxRows (w : Word) : Nat := if mxShape w = 2 then 128 else 64
def mxCols (w : Word) : Nat := if mxShape w = 3 then 128 else 64

/-- The first global K-group of a command and how many it joins (R116). -/
def mxFirst (w : Word) : Nat := if mxSplit w = 0 then 0 else mxSlice w * ceilDiv (mxG w) (mxP w)
def mxCount (w : Word) : Nat :=
  if mxSplit w = 0 then mxG w else min ((mxSlice w + 1) * ceilDiv (mxG w) (mxP w)) (mxG w) - mxFirst w

/-! ### The VXC word (R172) -/

/-- VOP. -/
def vxOp (w : Word) : Nat := bits w.toNat 63 56
/-- A_FMT. -/
def vxA (w : Word) : Nat := bits w.toNat 55 52
/-- B_FMT. -/
def vxB (w : Word) : Nat := bits w.toNat 51 48
/-- LEN. -/
def vxLen (w : Word) : Nat := bits w.toNat 47 24
/-- ROWS. -/
def vxRows (w : Word) : Nat := bits w.toNat 23 8
/-- PARAM. -/
def vxParam (w : Word) : Nat := bits w.toNat 7 0

/-- The cost of an operation (R173): cycles per 128 elements, cycles per row; none for INV, INVROOT and reserved codes. -/
def vxCost (op : Nat) : Option (Nat × Nat) :=
  if 1 ≤ op ∧ op ≤ 6 then some (1, 0)
  else if 0x08 ≤ op ∧ op ≤ 0x0B then some (4, 0)
  else if op = 0x0C ∨ op = 0x0D then some (2, 0)
  else if op = 0x0E ∨ op = 0x0F then some (8, 0)
  else if 0x10 ≤ op ∧ op ≤ 0x13 then some (8, 0)
  else if 0x20 ≤ op ∧ op ≤ 0x22 then some (1, 14)
  else if op = 0x28 then some (15, 28)
  else if op = 0x29 then some (6, 28)
  else if op = 0x2A then some (4, 22)
  else if op = 0x2B then some (6, 36)
  else if op = 0x30 then some (8, 30)
  else none
/-- INV or INVROOT. -/
def vxInv (op : Nat) : Bool := op == 0x40 || op == 0x41
/-- Whether R173 lists a VOP. -/
def vxKnown (op : Nat) : Bool := (vxCost op).isSome || vxInv op
/-- Whether an operation uses B (R173). -/
def vxUsesB (op : Nat) : Bool := (decide (1 ≤ op ∧ op ≤ 5)) || op == 0x0F || op == 0x2A || op == 0x2B || op == 0x30
/-- Whether C names a parameter block (R173). -/
def vxBlock (op : Nat) : Bool := op == 0x06 || op == 0x28 || op == 0x29 || vxInv op
/-- Whether an operation needs C: FMA's tensor or a parameter block; XENT's C is a second output if named. -/
def vxUsesC (op : Nat) : Bool := op == 0x03 || vxBlock op
/-- One value per row. -/
def vxReduces (op : Nat) : Bool := (decide (0x20 ≤ op ∧ op ≤ 0x22)) || op == 0x29 || op == 0x30

/-! ### The copy word (R161) -/

/-- BYTES of a copy word (R161). -/
def cpBytes (q : QCmd) : Nat := bits q.desc.w5.toNat 63 24

/-! ### Offload arenas (R312, R313) -/

/-- The arena that a range of a partition touches: base and bytes in its space, with whether the range lies inside it. -/
def Mach.arenaOf (m : Mach) (p : Nat) (w : Word) (n : Nat) : Option (Nat × Bool) :=
  ((List.range 2).filterMap (fun i =>
    let b := m.fld R.COL_TARENA_BASE [p, i] * 2 ^ 21
    let e := b + m.fld R.COL_TARENA_SIZE [p, i] * 2 ^ 21
    let o := adOffset w
    if (adSpace w = 2 ∨ adSpace w = 3) ∧ m.fld R.COL_TARENA_SPACE [p, i] = adSpace w ∧ o < e ∧ b < o + n then some (b, decide (b ≤ o ∧ o + n ≤ e)) else none)).head?
/-- Bytes of the slots of n decoded bytes. -/
def arenaBytes (n : Nat) : Nat := ceilDiv n 4096 * 4160
/-- How a copy treats its bytes: 0 unchanged, 1 encoded, 2 decoded; or DESC_INVALID (R312, R313). -/
def Mach.arenaMode (m : Mach) (p : Nat) (a d : Word) (n : Nat) : Except Nat Nat :=
  let lens (w : Word) : Option (Nat × Bool) :=
    match m.arenaOf p w 1 with
    | some _ => m.arenaOf p w (arenaBytes n)
    | none => m.arenaOf p w n
  match lens a, lens d with
  | none, none => .ok 0
  | some (b, true), none => if n % 4096 = 0 ∧ (adOffset a - b) % 4160 = 0 then .ok 2 else .error cDescInvalid
  | none, some (b, true) => if n % 4096 = 0 ∧ (adOffset d - b) % 4160 = 0 then .ok 1 else .error cDescInvalid
  | _, _ => .error cDescInvalid

/-! ### The memory of a command -/

/-- A range that a command reads or writes: whether it writes it, address, bytes. -/
abbrev Span := Bool × Word × Nat
/-- The ranges that a tensor read from memory takes: header and elements, and the fine exponents where its header puts them (R61). -/
def Mach.tensorSpans (m : Mach) (p pane : Nat) (w : Word) (code rows len : Nat) : List Span :=
  match fmtOf code with
  | none => []
  | some f =>
    if f.block = 0 then [(false, w, f.elemBytes rows len)]
    else
      (false, w, 64 + f.elemBytes rows len) ::
      (match m.segs p (some pane) false w 64 with
       | some l => [(false, adPlus w (leAt (m.readSegs l) 8 8), f.blocks rows len)]
       | none => [])
/-- Bytes of the reduction slot of a split tile (R398). -/
def mxSlotBytes (w : Word) : Nat := 64 + 16384 * (mxP w + b2n (mxAddend w))
/-- Rows of A of a vector command: n for each block of INV and INVROOT (R177). -/
def vxInRows (w : Word) : Nat := if vxInv (vxOp w) then vxRows w * vxLen w else vxRows w
/-- Results per row of a vector command. -/
def vxOutLen (w : Word) : Nat := if vxReduces (vxOp w) then 1 else vxLen w
/-- The range behind an optional reference. -/
def spanOf (write : Bool) (w : Option Word) (n : Nat) : List Span := w.toList.map (fun a => (write, a, n))
/-- The ranges of a matrix command. -/
def Mach.mxSpans (m : Mach) (pane : Nat) (q : QCmd) : List Span :=
  let w := q.desc.w5
  let t (r : Option Word) (code rows len : Nat) : List Span := r.toList.flatMap (fun a => m.tensorSpans q.part pane a code rows len)
  t q.a (mxA w) (mxRows w) (32 * mxCount w) ++ t q.b (mxB w) (mxCols w) (32 * mxCount w) ++
  (if mxSplit w ≠ 0 then spanOf true q.c (mxSlotBytes w) else if mxAddend w then t q.c 0 (mxRows w) (mxCols w) else []) ++
  (if mxSplit w = 0 ∨ mxSlice w = 0 then spanOf true q.d ((dstFmt q.cvt).tensorBytes (mxRows w) (mxCols w)) else [])
/-- FALLBACK of a parameter block (R177). -/
def vxFallback (blk : List Byte) : Word := BitVec.ofNat 64 (leAt blk 8 8)
/-- The ranges of a vector command. -/
def Mach.vxSpans (m : Mach) (pane : Nat) (q : QCmd) : List Span :=
  let w := q.desc.w5
  let op := vxOp w
  let t (r : Option Word) (code rows len : Nat) : List Span := r.toList.flatMap (fun a => m.tensorSpans q.part pane a code rows len)
  let blk := match q.c with
    | some c => (m.segs q.part (some pane) false c 64).toList.map (fun l => vxFallback (m.readSegs l))
    | none => []
  t q.a (vxA w) (vxInRows w) (vxLen w) ++
  (if op = 0x30 then spanOf false q.b (4 * vxRows w) else if vxUsesB op then t q.b (vxB w) (vxRows w) (if op = 0x2B then 2 * vxLen w else vxLen w) else []) ++
  (if op = 0x03 then t q.c 0 (vxRows w) (vxLen w) else if op = 0x30 then spanOf true q.c (4 * vxRows w * vxLen w)
   else if vxBlock op then spanOf false q.c 64 ++ (if vxInv op then blk.map (fun a => (true, a, 8)) else []) else []) ++
  spanOf true q.d ((dstFmt q.cvt).tensorBytes (vxInRows w) (vxOutLen w))
/-- The ranges of a copy, as long as its bytes or, in an arena, as its slots (R312). -/
def Mach.cpSpans (m : Mach) (q : QCmd) : List Span :=
  let n := cpBytes q
  let mode := match q.a, q.d with
    | some a, some d => m.arenaMode q.part a d n
    | _, _ => .ok 0
  let len (k : Nat) : Nat := match mode with
    | .ok j => if j = k then arenaBytes n else n
    | .error _ => n
  spanOf false q.a (len 2) ++ spanOf true q.d (len 1)
/-- The ranges of memory that the references of a command take. -/
def Mach.cmdSpans (m : Mach) (pane : Nat) (q : QCmd) : List Span :=
  if q.kind = 0 then m.mxSpans pane q else if q.kind = 1 then m.vxSpans pane q else m.cpSpans q

/-! ### Memory routes (R26, R40, R42, R393) -/

/-- The dies on which a range of Transom or of HBM lies. -/
def Mach.spanDies (m : Mach) (p : Nat) (s : Span) : List Nat :=
  let o := if s.1 then adOffset40 s.2.1 else adOffset s.2.1
  let units (size o : Nat) : List Nat := (List.range ((o % size + s.2.2 + size - 1) / size)).map (fun i => o / size + i)
  match adSpace s.2.1 with
  | 1 => (units (2 ^ 22) o).filterMap (fun k =>
      match Tbl.get 0 m.tier.slices (p * 4096 + k) with
      | 0 => none
      | s + 1 => if k < 4096 then some (s / 256) else none)
  | 2 => (units (2 ^ 21) (adOffset s.2.1)).filterMap (fun v => (m.pageOf p v).map (fun e => frameDie e.frame))
  | _ => []
/-- The memory routes that the accesses of a command use. -/
def Mach.memRoutes (m : Mach) (pane : Nat) (q : QCmd) : List Nat :=
  (((m.cmdSpans pane q).flatMap (fun s => m.spanDies q.part s)).filter (fun d => d != dieOf pane)).filterMap (fun d => m.conf.cfg.memRoute q.part (dieOf pane) d)
/-- A memory route of a command crosses a failed direction (R42): the command ends ABORTED (R36). -/
def Mach.memCut (m : Mach) (pane : Nat) (q : QCmd) : Bool := (m.memRoutes pane q).any (fun r => m.deadRoute r)
/-- The wires of a direction that a memory route of a command crosses are being tested: the direction takes no transfers (R42), so that the
command neither starts nor ends. -/
def Mach.memTested (m : Mach) (pane : Nat) (q : QCmd) : Bool :=
  (m.memRoutes pane q).any (fun r => (m.conf.cfg.route r).any (fun e => m.routeTested e))
/-- What the checks of a command answer, a reference that a failed direction cuts off being ABORTED (R36, R42). -/
def Mach.orCut (m : Mach) (pane : Nat) (q : QCmd) (r : Except Nat Mach) : Except Nat Mach :=
  match r with
  | .ok m' => .ok m'
  | .error code => .error (if code = cAddrRange ∧ m.memCut pane q = true then cAborted else code)
/-- The head of a queue is held so. -/
def Mach.headTested (m : Mach) (pane : Nat) (e : EngineId) : Bool := (((m.pane pane).queue e).head?.map (fun q => m.memTested pane q)).getD false
/-- The wire tests of what goes over a route are past: another access is in front (R42). -/
def Mach.clearTests (m : Mach) (rt : Nat) : Mach :=
  { m with core := { m.core with tested := m.core.tested.filter (fun t => t / 64 != rt), retries := m.core.retries.filter (fun e => e.1 / 32 != rt) } }
/-- A command has ended: the next access over its memory routes has had no wire test yet (R42). -/
def Mach.clearMem (m : Mach) (pane : Nat) (q : QCmd) : Mach := (m.memRoutes pane q).foldl (fun m r => m.clearTests r) m

end Sys2Proof.Machine
end

