-- ==== Sys2Proof/Machine/Deliver.lean ====
section
/-! DEFINITION. The results of matrix and vector commands on their way out: conversion, destination, transfers over routes (R36, R125, R160, R165, R645), poison (R377), counts, and the end of the command. -/

namespace Sys2Proof.Machine

/-- Rows of a result. -/
def Run.rows (r : Run) : Nat := if r.width = 0 then 0 else r.vals.length / r.width

/-- The largest finite magnitude a conversion meets (R70, R75). -/
def Run.localMax (r : Run) : Fp := maxFinite (r.vals.map f32)

/-- Whether a result waits for the common maximum of R71. -/
def Run.needsMax (r : Run) : Bool := cvtScaled r.cmd.cvt && cvtScale r.cmd.cvt == 1 && r.amax.isNone

/-- The coarse scale of a result (R70). -/
def Mach.runScale (m : Mach) (r : Run) : Fp :=
  m.coarseScale r.cmd.part r.cmd.cvt r.cmd.desc.step (match r.amax with
    | some c => f32 c
    | none => r.localMax)

/-- The bytes of a result and its counts. -/
def Mach.runBytes (m : Mach) (r : Run) : List Byte × CvtCounts :=
  convert r.cmd.cvt r.cmd.seed (m.runScale r) r.rows r.width (r.vals.map f32) .zero

/-- The class of the island a route ends at (R32). -/
def Mach.routeDstClass (m : Mach) (rt : Nat) : Nat := ((m.conf.cfg.route rt).map (fun e => routeDst e / 4096)).getD 0

/-- A transfer enters its route behind those in flight (R36). -/
def Mach.sendXfer (m : Mach) (rt : Nat) (x : Xfer) : Mach := m.setXfers rt (m.xfersOf rt ++ [x])

/-- The part of a result's bytes that is row i (R645); of a scaled result its elements and then their fine exponents, the tensor's header
left out, is the model's choice (log entry 19). -/
def rowResult (r : Run) (bs : List Byte) (i : Nat) : List Byte :=
  let f := dstFmt r.cmd.cvt
  if cvtScaled r.cmd.cvt then
    let n := f.elemBytes 1 r.width
    let k := f.blocks 1 r.width
    (bs.drop (64 + i * n)).take n ++ (bs.drop (f.scaleOffset r.rows r.width + i * k)).take k
  else
    let n := bs.length / max 1 r.rows
    (bs.drop (i * n)).take n
/-- The transfers of a result whose D names a route: whole to a pane; per output row a header from the pane store and
the row padded to 64 bytes to a Louvre or sampler (R645). -/
def Mach.sendResult (m : Mach) (pane : Nat) (r : Run) : Mach :=
  match r.cmd.d with
  | none => m
  | some w =>
    let rt := adRoute w
    let (bs, _) := m.runBytes r
    let x (off : Nat) (b : List Byte) : Xfer :=
      { part := r.cmd.part, pane := pane, queue := r.cmd.kind, src := r.cmd.src, sealNo := r.cmd.desc.sealNo, offset := off, bytes := b, more := false, poisoned := r.poisoned, tags := [], retries := [] }
    let cls := m.routeDstClass rt
    if cls = 1 ∨ cls = 2 then
      (List.range r.rows).foldl (fun m i =>
        let row := rowResult r bs i
        m.sendXfer rt (x 0 (m.load (paneKey pane (adOffset w + 64 * i)) 64 ++ row ++ List.replicate (roundUp row.length 64 - row.length) 0))) m
    else m.sendXfer rt (x (adOffset w) bs)

/-- Whether a result goes over a route. -/
def QCmd.overRoute (q : QCmd) : Bool := (q.d.map (fun w => adSpace w == 4)).getD false

/-- A command is held by back-pressure of a conduit: what it sends waits for a Louvre half to take it (R260, R263). -/
def Mach.pressed (m : Mach) (pane : Nat) (q : QCmd) : Bool :=
  (q.d.map (fun w => adSpace w == 4 && m.routeDstClass (adRoute w) == 1)).getD false && m.hasXfers pane q
/-- Two commands are parts of one command that converts in mode CURRENT (R71): the spec does not say how its panes are known, and the model
takes those of one partition, engine, STEP, LAYER_ID and OP_ID (log entry 57). -/
def QCmd.partOf (q r : QCmd) : Bool :=
  q.part == r.part && q.kind == r.kind && q.desc.step == r.desc.step && q.desc.layer == r.desc.layer && q.desc.opId == r.desc.opId &&
  cvtScaled q.cvt && cvtScale q.cvt == 1
/-- A part of the command of a run has not started on some pane. -/
def Mach.groupWaits (m : Mach) (r : Run) : Bool :=
  (m.conf.cfg.panes r.cmd.part).any (fun n => ((m.pane n).mq ++ (m.pane n).vq).any (fun q => q.partOf r.cmd))

/-- The check of a destination before a command starts: a code, 0 where it passes. n is what it writes. -/
def Mach.destCheck (m : Mach) (pane : Nat) (q : QCmd) (rows n : Nat) : Nat :=
  let hatch := match q.src with
    | .hatch _ _ _ => true
    | .core _ _ => false
  match q.d with
  | none => cOk
  | some w =>
    if adSpace w = 4 ∧ (m.routeDstClass (adRoute w) = 1 ∨ m.routeDstClass (adRoute w) = 2) then
      (if adOffset w % 64 ≠ 0 ∨ 2 ^ 22 < adOffset w + 64 * rows then cAddrRange
       else match m.destSegs q.part pane w n hatch with
         | .ok _ => cOk
         | .error e => e)
    else match m.destSegs q.part pane w n hatch with
      | .ok _ => cOk
      | .error e => e

/-- The results written to a destination in spaces 0, 1, 2, 3 or to the vector input queue (space 5). The queue takes the FP32 values as they
drained, with a CVT word too, whose counts and record the conversion still updates: the model's choice (log entry 58). -/
def Mach.writeResult (m : Mach) (pane : Nat) (r : Run) (bs : List Byte) : Mach :=
  match r.cmd.d with
  | none => m
  | some w =>
    if adSpace w = 5 then
      let p := m.pane pane
      m.setPane pane { p with vin := p.vin ++ r.vals.map (fun v => (v, r.poisoned)) }
    else if adSpace w = 4 then m
    else match m.destSegs r.cmd.part pane w bs.length true with
      | .ok (l, op) => (chunksOf l bs r.poisoned).foldl (fun m c => m.putAtop op c) m
      | .error _ => m

/-- A second output at C, always FP32 (R168); a space-1 destination like any other, ATOP included (R395). -/
def Mach.writeSecond (m : Mach) (pane : Nat) (r : Run) : Mach :=
  match r.cmd.c with
  | some w =>
    if r.vals2.isEmpty then m
    else match m.destSegs r.cmd.part pane w (4 * r.vals2.length) false with
      | .ok (l, op) => (chunksOf l (packElems 32 r.vals2) r.poisoned).foldl (fun m c => m.putAtop op c) m
      | .error _ => m
  | none => m

/-- The counts of a vector command (R82, R179), and the exchange of its FALLBACK word (R179). -/
def Mach.vxEffects (m : Mach) (pane : Nat) (r : Run) : Mach :=
  if r.cmd.kind ≠ 1 then m
  else
    let m := m.addPaneCvt pane ⟨r.decSat, r.decFlush, 0, false⟩
    match r.fallback with
    | none => m.addVx pane r.nonfinite r.tries 0
    | some k =>
      let old := m.loadLe k 8
      ({ m with mem := writeBytes m.mem k (leBytes 8 1) }).addVx pane r.nonfinite r.tries (b2n (old == 0))

/-- A started command whose results are complete writes them and ends: TOKEN_OVERFLOW first (R164), unless it has begun to write, then the
writes, the counts, the poison record, the token and the report (R165). -/
def Mach.completeRun (m : Mach) (pane : Nat) (r : Run) : Mach :=
  if !r.begun && (m.pane pane).tokenFull r.cmd.desc.signal then m.failCmd pane r.cmd cTokenOverflow
  else
    let m := if r.cmd.kind = 0 then m.addMx pane (m.crecKey r.cmd.part r.cmd.desc.w5) ⟨r.trunc, r.nonfinite, r.ovf, r.flush⟩ else m
    let s := m.runScale r
    let (bs, c) := m.runBytes r
    let m := m.writeResult pane r bs
    let m := m.writeSecond pane r
    let m := m.updateRecord r.cmd.part r.cmd.cvt r.cmd.desc.step s r.localMax c
    let m := if r.cmd.cvt = 0 then m else m.addPaneCvt pane c
    let m := m.vxEffects pane r
    let m := if r.poisoned then m.recordPoisonUsed pane r.cmd else m
    let m := m.clearMem pane r.cmd
    m.finish pane r.cmd cOk r.poisoned (if r.poisoned then [] else outCodes r.cmd.cvt r.rows r.width bs) c.sat

/-- A run with nothing counted. -/
def Run.fresh (q : QCmd) (bound : Nat) (vals : List Nat) (width : Nat) (poisoned : Bool) : Run :=
  { cmd := q, ran := 0, bound := bound, vals := vals, width := width, vals2 := [], decSat := 0, decFlush := 0, nonfinite := 0,
    tries := 0, fallback := none, trunc := 0, ovf := 0, flush := 0, amax := none, poisoned := poisoned, drained := false, reduced := false, landed := false }

/-- A declared bound in cycles lies over 500 µs at a pane's TARGET_MHZ (R102, R174). -/
def Mach.tooLong (m : Mach) (pane cycles : Nat) : Bool := decide (500 * m.fld R.PNE_CLOCK_TARGET_MHZ [pane] < cycles)

end Sys2Proof.Machine
end

