-- ==== Sys2Proof/Machine/CopyOps.lean ====
section
/-! DEFINITION. Copy commands: their checks (R160, R161, R312, R313, R395, R458), what they move (R313, R377, R395), and their end (R165). -/

namespace Sys2Proof.Machine

/-- Pieces cut at the 64-byte lines they touch, with the offset of each in the byte stream from o. -/
def lineSegs : Nat → List (Nat × Nat) → Nat → List (Nat × Nat × Nat)
  | 0, _, _ => []
  | _ + 1, [], _ => []
  | f + 1, (k, len) :: l, o =>
    let t := min len (64 - k % 64)
    if len = 0 then lineSegs f l o
    else (k, t, o) :: lineSegs f ((k + t, len - t) :: l) (o + t)

/-! ### The check before a copy starts -/

/-- What a copy reads and writes: pieces, ATOP, arena mode. -/
structure Plan where
  src : List (Nat × Nat)
  dst : List (Nat × Nat)
  atop : Nat
  mode : Nat
deriving DecidableEq, Repr

/-- A command comes from a hatch. -/
def QCmd.fromHatch (q : QCmd) : Bool :=
  match q.src with
  | .hatch _ _ _ => true
  | .core _ _ => false
/-- The check of a copy (R160, R161, R312, R313, R395, R402, R458): its plan, or the code it fails with. -/
def Mach.copyPlan (m : Mach) (pane : Nat) (q : QCmd) : Except Nat Plan :=
  match q.a, q.d with
  | some a, some d =>
    let n := cpBytes q
    let host := q.fromHatch
    let okA := decide (adSpace a ≤ 3) || (host && adSpace a == 8)
    let okD := decide (adSpace d ≤ 4) || (host && adSpace d == 8)
    if !(q.desc.wellFormed && tokenOk q.desc.wait && tokenOk q.desc.signal) then .error cDescInvalid
    else if !okA || !okD || (adSpace a == 8 && adSpace d == 8) || adRoute a != 0 || (adSpace d != 4 && adRoute d != 0) then .error cDescInvalid
    else if n = 0 ∨ n % 64 ≠ 0 ∨ bits q.desc.w5.toNat 23 0 ≠ 0 ∨ q.desc.w6 ≠ 0 then .error cDescInvalid
    else match m.arenaMode q.part a d n with
      | .error e => .error e
      | .ok mode =>
        match m.segs q.part (some pane) false a (if mode = 2 then arenaBytes n else n),
              m.destSegs q.part pane d (if mode = 1 then arenaBytes n else n) host with
        | some l, .ok (l', op) => .ok { src := l, dst := l', atop := op, mode := mode }
        | none, _ => .error cAddrRange
        | _, .error e => .error e
  | _, _ => .error cDescInvalid

/-! ### Moving bytes -/

/-- Whether pieces meet poison: a tag, or a line that came back poisoned to this copy (R408, R459). -/
def Mach.metPoison (m : Mach) (lost : List Nat) (l : List (Nat × Nat)) : Bool :=
  m.segsPoisoned l || l.any (fun s => (linesOf s.1 s.2).any (fun x => lost.contains x))
/-- The decoded bytes n from byte o of a copy's source, as pieces of the stream: bytes, and whether they carry poison. -/
def Mach.srcAt (m : Mach) (g : Plan) (lost : List Nat) (o n : Nat) : List Byte × Bool :=
  if g.mode = 2 then
    let j := o / 4096
    let hd := cutSegs g.src (4160 * j) 64
    let mask := ofLe ((m.readSegs hd).take 8)
    let i := o % 4096 / 64
    if bitAt mask i then
      let l := cutSegs g.src (4160 * j + 64 + 64 * popCount i mask + o % 64) n
      (m.readSegs l, m.metPoison lost hd || m.metPoison lost l)
    else (List.replicate n 0, m.metPoison lost hd)
  else
    let l := cutSegs g.src o n
    (m.readSegs l, m.metPoison lost l)
/-- One page of an encoded copy: the bytes of its slot by units of 64, each with its poison (R313). A unit that carries poison is kept. -/
def Mach.encodePage (m : Mach) (g : Plan) (lost : List Nat) (j : Nat) : List (List Byte × Bool) :=
  let us := (List.range 64).map (fun i => m.srcAt g lost (4096 * j + 64 * i) 64)
  let keep := us.map (fun u => u.2 || u.1.any (fun b => b != 0))
  let mask := keep.zipIdx.foldl (fun (a : Nat) (x : Bool × Nat) => if x.1 then a + 2 ^ x.2 else a) 0
  (leBytes 64 mask, false) :: ((us.zip keep).filter (fun x => x.2)).map (fun x => x.1)
/-- The part of a copy from decoded byte lo to hi: the destination, and whether poison was moved (R377, R378, R396). -/
def Mach.copyBytes (m : Mach) (g : Plan) (lost : List Nat) (lo hi : Nat) : Mach × Bool :=
  if g.mode = 1 then
    ((List.range ((hi - lo) / 4096)).map (fun i => lo / 4096 + i)).foldl (fun (a : Mach × Bool) j =>
      let us := m.encodePage g lost j
      us.zipIdx.foldl (fun (a : Mach × Bool) (u : (List Byte × Bool) × Nat) =>
        ((chunksOf (cutSegs g.dst (4160 * j + 64 * u.2) 64) u.1.1 u.1.2).foldl (fun m c => m.putChunk c) a.1, a.2 || u.1.2)) a) (m, false)
  else
    let l := lineSegs ((hi - lo) / 32 + g.dst.length + 2) (cutSegs g.dst lo (hi - lo)) lo
    l.foldl (fun (a : Mach × Bool) (x : Nat × Nat × Nat) =>
      let (bs, ps) := m.srcAt g lost x.2.2 x.2.1
      (a.1.putAtop g.atop { key := x.1, bytes := bs, poisoned := ps }, a.2 || ps)) (m, false)
/-- The units of a page that its header in an arena names (R313). -/
def Mach.slotUnits (m : Mach) (l : List (Nat × Nat)) (j : Nat) : Nat :=
  let mask := ofLe ((m.readSegs (cutSegs l (4160 * j) 64)).take 8)
  ((List.range 64).filter (fun i => bitAt mask i)).length
/-- The pieces that a part of a copy reads and writes, as memory holds them after it: of a page in an arena its header and the units that its
header names (R314). -/
def Mach.planPart (m : Mach) (g : Plan) (lo hi : Nat) : List (Nat × Nat) × List (Nat × Nat) :=
  let e (mode : Nat) (l : List (Nat × Nat)) : List (Nat × Nat) :=
    if g.mode = mode then ((List.range ((hi - lo) / 4096)).map (fun i => lo / 4096 + i)).flatMap (fun j => cutSegs l (4160 * j) (64 + 64 * m.slotUnits l j))
    else cutSegs l lo (hi - lo)
  (e 2 g.src, e 1 g.dst)
/-- A step of a partition that reads a poisoned line of a shared region is marked until the region's page is repaired (R576). -/
def Mach.markRead (m : Mach) (p step : Nat) (l : List (Nat × Nat)) : Mach :=
  let hit := l.filter (fun s => decide (64 ≤ m.frameOwnerAt s.1) && m.poisonedAt s.1 s.2)
  if hit.isEmpty then m
  else
    let fs := hit.map (fun s => s.1 % 2 ^ 72 / 2 ^ 21)
    let rs := m.fix.regions.map (fun (x : RegionFix) =>
      if fs.contains x.frame && !x.marked.contains (p, step) then { x with marked := x.marked ++ [(p, step)] } else x)
    let w := Tbl.get Train.init m.trains p
    let ss := w.steps.map (fun (t : TStep) => if t.step = step then { t with marked := true } else t)
    { m with fix := { m.fix with regions := rs }, trains := Tbl.set Train.init m.trains p { w with steps := ss } }
/-- What the watch unit reads of a part of a copy: its units of 64 bytes that carry no poison, each with its offset (R530). -/
def Mach.copySeen (m : Mach) (g : Plan) (lost : List Nat) (lo hi : Nat) : List (Nat × List Byte) :=
  let clean (o : Nat) (u : List Byte × Bool) : Option (Nat × List Byte) := if u.2 then none else some (o, u.1)
  if g.mode = 1 then
    (List.range ((hi - lo) / 4096)).flatMap (fun i =>
      (m.encodePage g lost (lo / 4096 + i)).zipIdx.filterMap (fun u => clean (lo + 4096 * i + u.2) u.1))
  else (List.range ((hi - lo) / 64)).filterMap (fun i => clean (lo + 64 * i) (m.srcAt g lost (lo + 64 * i) 64))
/-- A copy that is watched, with the part from its progress to hi read by the watch unit (R530). -/
def Mach.watchPart (m : Mach) (g : Plan) (r : Run) (hi : Nat) : Run :=
  if (r.cmd.watched.getD []).isEmpty then r else { r with cmd := { r.cmd with seen := r.cmd.seen ++ m.copySeen g r.vals r.cmd.progress hi } }
/-- The bytes of a run from its progress to hi moved, metered and marked; entries they complete in the collective ring are submitted
(R435). -/
def Mach.copyTo (m : Mach) (pane : Nat) (r : Run) (hi : Nat) : Mach × Bool :=
  match m.copyPlan pane r.cmd with
  | .error _ => (m, false)
  | .ok g =>
    let a := m.copyBytes g r.vals r.cmd.progress hi
    let part := a.1.planPart g r.cmd.progress hi
    let m := ((a.1.traffic r.cmd.part false part.1).traffic r.cmd.part true part.2).markRead r.cmd.part r.cmd.desc.step part.1
    let d := r.cmd.d.getD 0
    let n := hi - r.cmd.progress
    (if adSpace d = 1 then m.collSubmit r.cmd.part (adOffset40 d + r.cmd.progress) n (n / 64 + 1) else m, a.2)

/-! ### Start, stop and end -/

/-- A copy that reads or writes host memory (R458). -/
def QCmd.onHost (q : QCmd) : Bool := [q.a, q.d].any (fun o => (o.map (fun w => adSpace w == 8)).getD false)
/-- A destination over a route (R36). -/
def QCmd.routed (q : QCmd) : Bool := (q.d.map (fun d => adSpace d == 4)).getD false
/-- A routed copy whose frame a Louvre or a sampler takes whole. -/
def Mach.toFrame (m : Mach) (q : QCmd) : Bool := q.routed && (q.d.map (fun d => m.routeDstClass (adRoute d))).getD 0 != 0
/-- Where the piece of a routed copy that starts at its progress ends: at the next 64 KiB boundary on the way to a pane, where the copy can
stop (R184, R185); a frame to a Louvre or a sampler stays whole. -/
def Mach.pieceEnd (m : Mach) (q : QCmd) : Nat :=
  if !m.toFrame q then min (cpBytes q) ((q.progress / 65536 + 1) * 65536) else cpBytes q
/-- The units of 64 bytes of the next piece of a routed copy, each with its poison. -/
def Mach.pieceUnits (m : Mach) (g : Plan) (r : Run) : List (List Byte × Bool) :=
  (List.range ((m.pieceEnd r.cmd - r.cmd.progress) / 64)).map (fun i => m.srcAt g r.vals (r.cmd.progress + 64 * i) 64)
/-- Those that carry poison (R377). -/
def Mach.pieceTags (m : Mach) (g : Plan) (r : Run) : List Nat :=
  ((m.pieceUnits g r).zipIdx.filter (fun (u : (List Byte × Bool) × Nat) => u.1.2)).map (fun u => u.2)
/-- A piece enters its route; the rest of a frame joins the part that stayed there at a boundary (R184). -/
def Mach.sendJoined (m : Mach) (rt pane : Nat) (q : QCmd) (x : Xfer) : Mach :=
  let cut (y : Xfer) : Bool := y.sentBy pane q && y.more
  if m.toFrame q && (m.xfersOf rt).any cut then
    m.setXfers rt ((m.xfersOf rt).map (fun y =>
      if cut y then { y with bytes := y.bytes ++ x.bytes, more := x.more, tags := y.tags ++ x.tags.map (fun i => i + y.bytes.length / 64) } else y))
  else m.sendXfer rt x
/-- A copy over a route sends its next piece (R36, R164): each 64-byte unit of it that carries poison is named (R377). -/
def Mach.sendPiece (m : Mach) (pane : Nat) (g : Plan) (r : Run) : Mach :=
  let q := r.cmd
  let d := q.d.getD 0
  let lo := q.progress
  let hi := m.pieceEnd q
  let us := m.pieceUnits g r
  let tags := m.pieceTags g r
  let part := m.planPart g lo hi
  ((m.traffic q.part false part.1).markRead q.part q.desc.step part.1).sendJoined (adRoute d) pane q
    { part := q.part, pane := pane, queue := 2, src := q.src, sealNo := q.desc.sealNo, offset := adOffset d + lo, bytes := (us.map (fun u => u.1)).flatten,
      more := decide (hi < cpBytes q), poisoned := false, tags := tags, retries := [] }
/-- A copy takes a place in its engine; over a route its first piece leaves (R36, R162). -/
def Mach.copyGo (m : Mach) (pane : Nat) (q : QCmd) : Except Nat Mach :=
  match m.copyPlan pane q with
  | .error e => .error e
  | .ok g =>
    let p := m.pane pane
    let r := { Run.fresh q 0 [] 0 q.poisoned with landed := decide (0 < q.progress) }
    let r := if q.routed then { r with poisoned := q.poisoned || !(m.pieceTags g r).isEmpty } else r
    let r := if q.routed then m.watchPart g r (m.pieceEnd q) else r
    let m' := m.setPane pane { p with cruns := p.cruns ++ [r] }
    .ok (if q.routed then m'.sendPiece pane g r else m')
/-- A watched copy whose bytes move in memory, with the part up to hi read. -/
def Mach.watchMove (m : Mach) (pane : Nat) (r : Run) (hi : Nat) : Run :=
  match m.copyPlan pane r.cmd with
  | .error _ => r
  | .ok g => if r.cmd.routed then r else m.watchPart g r hi
/-- The FP32 elements of a watched copy's output. A copy moves bytes of no stated format, so the elements are free (log entry 99). -/
def QCmd.seenCodes (q : QCmd) : List Nat :=
  if q.seen.isEmpty then [] else (Config.copyElems (q.seen.flatMap (fun u => u.2))).map (fun x => x.toNat)
/-- The end of a copy (R165): its bytes are moved, its token counts, its record says so. Data that the host marked as poison are recorded
(R459). -/
def Mach.copyEnd (m : Mach) (pane : Nat) (r : Run) : Mach :=
  if !r.begun && (m.pane pane).tokenFull r.cmd.desc.signal then m.failCmd pane r.cmd cTokenOverflow
  else
    let r := m.watchMove pane r (cpBytes r.cmd)
    let a := if r.cmd.routed then (m, false) else m.copyTo pane r (cpBytes r.cmd)
    let ps := a.2 || r.poisoned
    let host := (r.cmd.a.map (fun w => adSpace w == 8)).getD false
    let m := a.1
    let m := if host && ps then m.recordPoisonUsed pane r.cmd else m
    let m := m.clearMem pane r.cmd
    m.finish pane r.cmd cOk ps r.cmd.seenCodes 0
/-- The part of a frame past a boundary leaves its route: it follows once its copy goes on (R184). -/
def Mach.cutFrame (m : Mach) (pane : Nat) (q : QCmd) (hi : Nat) : Mach :=
  let rt := adRoute (q.d.getD 0)
  m.setXfers rt ((m.xfersOf rt).map (fun x =>
    if x.sentBy pane q then { x with bytes := x.bytes.take hi, more := true, tags := x.tags.filter (fun i => decide (i < hi / 64)) } else x))
/-- What a copy reaches can take no more of it for now: its host port is down, or a direction it crosses is being tested (R42, R476). -/
def Mach.copyStuck (m : Mach) (pane : Nat) (q : QCmd) : Bool := (q.onHost && !m.portUp q.part) || m.memTested pane q
/-- A copy in flight stops at its next 64 KiB boundary (R184, R185): it goes back to the front of its queue with its progress, or ends
there. Over a route the piece on its way is the last before the boundary; a copy whose last piece is on its way keeps its place, and so does a
frame that its receiver has taken. -/
def Mach.copyPause (m : Mach) (pane : Nat) : Mach :=
  let rs := (m.pane pane).cruns
  let hi (r : Run) : Nat := (r.cmd.progress / 65536 + 1) * 65536
  let stays (r : Run) : Bool := r.cmd.routed && (decide (cpBytes r.cmd ≤ hi r) || (m.toFrame r.cmd && !m.hasXfers pane r.cmd))
  let m := m.setPane pane { m.pane pane with cruns := rs.filter stays }
  let back (r : Run) (hi : Nat) (ps : Bool) : QCmd := { r.cmd with progress := hi, poisoned := ps, resumed := true, seen := r.cmd.seen.filter (fun u => decide (u.1 < hi)) }
  let step (a : Mach × List QCmd) (r : Run) : Mach × List QCmd :=
    if r.cmd.routed then (if a.1.toFrame r.cmd then a.1.cutFrame pane r.cmd (hi r) else a.1, a.2 ++ [back r (hi r) r.poisoned])
    else if a.1.copyStuck pane r.cmd then (a.1, a.2 ++ [back r r.cmd.progress r.poisoned])
    else if cpBytes r.cmd ≤ hi r then (a.1.copyEnd pane r, a.2)
    else
      let r := a.1.watchMove pane r (hi r)
      let b := a.1.copyTo pane r (hi r)
      (b.1, a.2 ++ [back r (hi r) (r.poisoned || b.2)])
  let a := (rs.filter (fun r => !stays r)).foldl step (m, [])
  let p := a.1.pane pane
  (a.1.setPane pane { p with cq := a.2 ++ p.cq }).queueSync pane

end Sys2Proof.Machine
end

