-- ==== Sys2Proof/Machine/LinkOps.lean ====
section
/-! DEFINITION. Link states (R412 to R414, R423 to R425), discovery and the time parent (R428, R432), synchronisation (R508 to R514). -/

namespace Sys2Proof.Machine

/-! ### Link states -/

/-- A link-layer message leaves at once, outside credits and replay: NEG, and HELLO and VIOLATION in QUARANTINED (R423, R430). -/
def Mach.frame (m : Mach) (n mtype : Nat) (body : List Byte) : Mach :=
  let bs := leBytes 2 m.moduleId ++ leBytes 2 0 ++ leBytes 1 mtype ++ leBytes 1 16 ++ leBytes 2 0 ++ leBytes 4 body.length ++ leBytes 4 0 ++ body
  (flitsOf clControl (m.fld R.MRD_LPEER_MODULE [n]) 0 0 false (bs.length / 240 + 1) true bs).foldl (fun m f => m.transmit n f false clControl) m

/-- TRAIN with the replay kept (R424). -/
def Mach.toTrain (m : Mach) (n : Nat) : Mach := (m.setLstate n lkTrain 0).linkLeft n
/-- A DOWN link has no partner. -/
def Mach.forgetPartner (m : Mach) (n : Nat) : Mach := m.setLink n { m.link n with known := false }
/-- DOWN with a code. -/
def Mach.toDown (m : Mach) (n code : Nat) : Mach := (((m.setLstate n lkDown code).setFld R.MRD_LSTATE_WIDTH [n] 0).linkLeft n).forgetPartner n
/-- Replay cleared: messages in it are lost, and the collectives they carried (R424, R446). -/
def Mach.loseReplay (m : Mach) (n : Nat) : Mach := (m.clearReplay n).collLinkLost n
/-- A CORRECTED record of a link (R562). -/
def Mach.linkRecord (m : Mach) (n : Nat) : Mach := m.place (ErrRec.mk0 sevCorrected 0 ecLink (isl 5 n) n 0)
/-- The link is under a margining run (R642). -/
def Mach.linkTested (m : Mach) (n : Nat) : Bool := m.margining && m.pwr.margin == 2 && m.pwr.target / 18 == n
/-- ENABLE (R424); of the link under test it waits (R642). The factory chart holds every link DOWN (R211). -/
def Mach.linkEnable (m : Mach) (n : Nat) : Mach :=
  if !m.running || m.lstate n != lkDown || m.flag R.CFG_RUN_FACTORY [] then m
  else if m.linkTested n then { m with pwr := { m.pwr with enables := insertNat n m.pwr.enables } }
  else (m.setLink n { m.link n with enabled := true }).toTrain n
/-- An ENABLE that waits for the end of a margining run is withdrawn. -/
def Mach.forgetEnable (m : Mach) (n : Nat) : Mach := { m with pwr := { m.pwr with enables := eraseNat n m.pwr.enables } }
/-- DISABLE (R424). -/
def Mach.linkDisable (m : Mach) (n : Nat) : Mach := (m.loseReplay n).setLink n { (m.clearReplay n).link n with enabled := false } |>.toDown n 0 |>.forgetEnable n
/-- RELEASE (R430). -/
def Mach.linkRelease (m : Mach) (n : Nat) : Mach :=
  if m.lstate n = lkQuarantined then
    let m := (m.loseReplay n).setFlds [n] [(R.MRD_LVIOL_WINDOW, 0), (R.MRD_LVIOL_TOTAL, 0)]
    (m.setLink n { m.link n with viols := [] }).toTrain n
  else m
/-- WIDEN: DEGRADED with 16 good lanes (R424). -/
def Mach.linkWiden (m : Mach) (n : Nat) : Mach :=
  if m.lstate n = lkDegraded ∧ 16 ≤ popCount 18 ((m.link n).good) then m.toTrain n else m
/-- RETRAIN (R424). -/
def Mach.linkRetrain (m : Mach) (n : Nat) : Mach := if m.linkUp n then (m.toTrain n).linkRecord n else m
/-- The 100 ms retry timer of an enabled DOWN link (R424). -/
def Mach.linkRetry (m : Mach) (n : Nat) : Mach :=
  if m.running && m.lstate n == lkDown && !m.linkTested n && (m.link n).enabled && decide ((m.link n).since + 10 ^ 8 ≤ m.now) then m.toTrain n else m

/-- This module's NEG (R423). -/
def Mach.sendNeg (m : Mach) (n : Nat) : Mach :=
  m.frame n 5 (leBytes 2 m.moduleId ++ leBytes 2 (m.fld R.MRD_ID_FABRIC []) ++ leBytes 8 (m.fld R.PRT_SERIAL_SERIAL []) ++
    leBytes 1 (m.fld R.MRD_LSTATE_WIDTH [n]) ++ (List.range 6).flatMap (fun c => leBytes 2 (clSlots c)) ++
    leBytes 1 (m.fld R.MRD_ID_VER_MIN []) ++ leBytes 1 (m.fld R.MRD_ID_VER_MAX []))

/-- LANE_TRAINING_DONE (R413): the lowest lanes that lock and deskew; 16, 12 or 8 of them are active. On a DEGRADED link it says which lanes are
good now, for WIDEN (R424, log entry 88). -/
def Mach.laneTrained (m : Mach) (n locked : Nat) : Mach :=
  let good := setBits 18 locked
  let w := if 16 ≤ good.length then 16 else if 12 ≤ good.length then 12 else 8
  if m.lstate n = lkDegraded then m.setLink n { m.link n with good := (good.map (fun i => 2 ^ i)).sum }
  else if m.lstate n ≠ lkTrain ∨ good.length < 8 then m
  else
    let act := good.take w
    let m := m.setLink n { m.link n with good := (good.map (fun i => 2 ^ i)).sum, lanes := act, known := false }
    let m := (m.setLstate n lkNegotiate 0).setFlds [n] [(R.MRD_LSTATE_WIDTH, w), (R.MRD_LSTATE_LANES_ACTIVE, (act.map (fun i => 2 ^ i)).sum)]
    m.sendNeg n
/-- LANE_TRAINING_TIMEOUT (R424). -/
def Mach.laneTimeout (m : Mach) (n : Nat) : Mach :=
  if m.lstate n = lkTrain ∧ (m.link n).since + 5 * 10 ^ 7 ≤ m.now then m.toDown n 1 else m

/-- The unacknowledged flits of a class leave again in order (R420); the eighth replay of one of them retrains the link (R421). -/
def Mach.resend (m : Mach) (n c : Nat) : Mach :=
  let x := m.linkCls n c
  if x.unacked.isEmpty then m
  else
    let fs := x.unacked.map (fun f => { f with tries := f.tries + 1 })
    let m := (m.setLinkCls n c { x with unacked := fs, ackAt := m.now }).addSat R.MRD_LERR_REPLAYS [n] 1
    let m := m.countFor 0 (isl 5 n) 3 1
    let m := fs.foldl (fun m f => m.transmit n f false c) m
    if fs.any (fun f => decide (8 ≤ f.tries)) then m.toTrain n else m

/-- The link reaches UP or DEGRADED: credits loaded, as many as slots are free; the neighbour set; unacknowledged flits resent, then what waits leaves
in the order of R422 (R419, R424, R425). The root's FREE ends when a link reaches UP (R512). -/
def Mach.linkComesUp (m : Mach) (n : Nat) (slots : List Nat) : Mach :=
  let m := m.setLstate n (if m.fld R.MRD_LSTATE_WIDTH [n] = 16 then lkUp else lkDegraded) 0
  let m := (m.setFlds [n] [(R.MRD_LSTATE_VERSION, 1), (R.MRD_LPEER_NEIGHBOUR, 1)]).setLink n { m.link n with helloAt := m.now, missed := 0, known := true }
  let m := [clShutter, clTime, clControl, clConduit, clCollective, clMemory].foldl (fun m c =>
    let x := m.linkCls n c
    let fs := x.unacked.map (fun f => { f with tries := 0 })
    let m := m.setLinkCls n c { x with credits := slots.getD c 0 - fs.length, rxCredit := clSlots c - m.slotsHeld n c, freed := 0, unacked := fs, nakOut := false }
    fs.foldl (fun m f => m.transmit n f false c) m) m
  let m := m.pump n
  let m := if m.isRoot && m.gtState == gtFree && m.lstate n == lkUp then m.setFlds [] [(R.GRT_STATUS_STATE, gtSynced), (R.GRT_STATUS_ALIGN_NS, 2)] else m
  m.timeParent

/-- NEG (R423): refusal, no common version, or agreement; a new partner has announced no distance yet (R432). One that contradicts what a link in
use agreed on is a violation (R429). -/
def Mach.neg (m : Mach) (n md fabric serial : Nat) (slots : List Nat) (lo hi : Nat) : Mach :=
  let v := min (m.fld R.MRD_ID_VER_MAX []) hi
  if m.linkUp n ∧ (fabric ≠ m.fld R.MRD_LPEER_FABRIC [n] ∨ v ≠ m.fld R.MRD_LSTATE_VERSION [n] ∨ v < lo) then m.violation n 0x06 clControl 0
  else if m.lstate n ≠ lkNegotiate then m
  else
    let me := m.moduleId
    let twin := (List.range 10).any (fun k => k != n && (m.link k).known && m.fld R.MRD_LPEER_MODULE [k] == md && m.fld R.MRD_LSERIAL_SERIAL [k] != serial)
    let m := if (m.link n).lastSerial = serial + 1 then m else m.setFld R.MRD_LPEER_DISTANCE [n] 0xFF
    let m := (m.setFlds [n] [(R.MRD_LPEER_MODULE, md), (R.MRD_LPEER_FABRIC, fabric)]).setFld R.MRD_LSERIAL_SERIAL [n] serial
    let last := (m.link n).lastSerial
    let m := if last ≠ 0 ∧ last ≠ serial + 1 then m.loseReplay n else m
    let m := m.setLink n { m.link n with lastSerial := serial + 1 }
    if me = 0xFFFF ∨ 4095 < me ∨ 4095 < md ∨ fabric ≠ m.fld R.MRD_ID_FABRIC [] ∨ md = me ∨ twin then m.toDown n 3
    else if v < lo ∨ v < m.fld R.MRD_ID_VER_MIN [] then m.toDown n 2
    else m.linkComesUp n slots
/-- NEG_TIMEOUT (R424). -/
def Mach.negTimeout (m : Mach) (n : Nat) : Mach :=
  if m.lstate n = lkNegotiate ∧ (m.link n).since + 10 ^ 6 ≤ m.now then m.toDown n 4 else m

/-- The lowest good spare of a link (R413). -/
def Mach.spareLane (m : Mach) (n : Nat) : Option Nat :=
  ((setBits 18 (m.link n).good).filter (fun i => !(m.link n).lanes.contains i)).head?
/-- A physical lane marked failed. -/
def Mach.markLane (m : Mach) (n i : Nat) : Mach :=
  let f := m.fld R.MRD_LSTATE_LANES_FAILED [n] ||| 2 ^ i
  let g := (((setBits 18 (m.link n).good).filter (fun k => k != i)).map (fun k => 2 ^ k)).sum
  (m.setFld R.MRD_LSTATE_LANES_FAILED [n] f).setLink n { m.link n with good := g }
/-- The logical position j moves onto a spare. -/
def Mach.swapLane (m : Mach) (n j sp : Nat) : Mach :=
  let l := (m.link n).lanes.set j sp
  (m.setLink n { m.link n with lanes := l }).setFld R.MRD_LSTATE_LANES_ACTIVE [n] (l.map (fun i => 2 ^ i)).sum
/-- LANE_FAILED (R414). The codeword boundary that LANE_SWAP names is a free value: between two flits of the model it lies where the swap is (log
entry 88). -/
def Mach.laneFailed (m : Mach) (n i : Nat) : Mach :=
  let l := (m.link n).lanes
  let was := l.contains i
  if !m.linkUp n then m
  else
    let m := (m.markLane n i).linkRecord n
    if !was then m
    else match m.spareLane n with
      | some sp => ((m.swapLane n (l.idxOf i) sp).sendLocal n 4 0 (leBytes 1 (l.idxOf i) ++ leBytes 1 sp ++ leBytes 8 m.free.toNat)).drew
      | none => m.toTrain n
/-- LANE_SWAP (R414): the partner moves a logical position. -/
def Mach.laneSwap (m : Mach) (n j : Nat) : Mach :=
  let l := (m.link n).lanes
  let m := m.consumed n clControl
  if !m.linkUp n ∨ l.length ≤ j then m
  else
    let m := m.markLane n (l.getD j 0)
    match m.spareLane n with
    | some sp => m.swapLane n j sp
    | none => m.toTrain n

/-! ### Discovery (R426, R428) -/

/-- HELLO_TIMER. -/
def Mach.hellos (m : Mach) : Mach :=
  if !m.running then m else
  (List.range 10).foldl (fun m n =>
    let body := leBytes 2 m.moduleId ++ leBytes 2 (m.fld R.MRD_ID_FABRIC []) ++ leBytes 8 (m.fld R.PRT_SERIAL_SERIAL []) ++
      leBytes 1 (m.fld R.PRT_STATUS_FEED_ID []) ++ leBytes 1 n ++ leBytes 1 m.distance
    if m.linkUp n then m.sendLocal n 1 0 body else if m.lstate n = lkQuarantined then m.frame n 1 body else m) m
/-- HELLO. -/
def Mach.hello (m : Mach) (n md fabric serial feed peerLink dist : Nat) : Mach :=
  let sq := m.waitingSeq n clControl
  let m := m.consumed n clControl
  if !m.linkUp n then m
  else if md ≠ m.fld R.MRD_LPEER_MODULE [n] ∨ serial ≠ m.fld R.MRD_LSERIAL_SERIAL [n] then (m.toTrain n).linkRecord n
  else if fabric ≠ m.fld R.MRD_LPEER_FABRIC [n] then m.violation n 0x06 clControl sq
  else
    let m := m.setFlds [n] [(R.MRD_LPEER_FEED_ID, feed), (R.MRD_LPEER_LINK, peerLink), (R.MRD_LPEER_DISTANCE, dist), (R.MRD_LPEER_NEIGHBOUR, 1)]
    (m.setLink n { m.link n with helloAt := m.now, missed := 0 }).timeParent
/-- HELLO_MISSED: three HELLOs, each of 1 ms and at most 5 % more. -/
def Mach.helloMissed (m : Mach) (n : Nat) : Mach :=
  if m.linkUp n ∧ m.flag R.MRD_LPEER_NEIGHBOUR [n] ∧ (m.link n).helloAt + 3150000 ≤ m.now then
    ((m.setFld R.MRD_LPEER_NEIGHBOUR [n] 0).setLink n { m.link n with missed := 3 }).linkRecord n
  else m

/-! ### Exchanges (R432, R511) -/

/-- SYNC_TIMER: a child sends SYNC_REQ to its parent. -/
def Mach.syncTimer (m : Mach) : Mach :=
  if !m.running ∨ m.isRoot ∨ m.srv.parent = 0 then m
  else
    let n := m.srv.parent - 1
    let t1 := m.now * 16
    { m with srv := { m.srv with syncT1 := Tbl.set 0 m.srv.syncT1 n (t1 + 1) } }.sendLocal n 8 0 (leBytes 8 t1)
/-- SYNC_REQ: the parent answers with its stamps. -/
def Mach.syncReq (m : Mach) (n t1 : Nat) : Mach :=
  let m := m.consumed n clTime
  if m.linkUp n then m.sendLocal n 9 0 (leBytes 8 t1 ++ leBytes 8 (m.now * 16) ++ leBytes 8 (m.now * 16)) else m
/-- Integer division by 2 towards minus infinity of a sum of stamps. -/
def halfInt (a : Int) : Int := a / 2
/-- The rate estimate of the offsets of the last 8 exchanges (R511), within the 200 ppm by which the rate is slewed. How the estimate is
made of them is open (log entry 91). -/
def rateOf (offs : List Int) : Int := max (-200000) (min 200000 (Config.rateOf offs))

/-- An exchange with a measured offset in 1/16 tick (R511, R512). -/
def Mach.steer (m : Mach) (off : Int) : Mach :=
  let m := { m with srv := { m.srv with lastExch := m.now } }
  let m := m.setFld R.GRT_STATUS_OFFSET [] (wrapInt 32 off)
  let near : Int := 10000 * 16
  if off < -near then
    (if m.gtState = gtSynced ∨ m.gtState = gtAcquiring ∨ m.gtState = gtHoldover then
      { m with srv := { m.srv with good := 0, slew := 0 } }.setFlds [] [(R.GRT_STATUS_STATE, gtHoldover), (R.GRT_STATUS_CODE, 1)] else m)
  else if near < off then 
    let now := (m.now + (off / 16).toNat) % 2 ^ 64
    { m with now := now, srv := { m.srv with lastExch := now, good := 0, slew := 0 } }
  else
    let fine := decide (-128 ≤ off ∧ off ≤ 128)
    let good := if fine then m.srv.good + 1 else 0
    let rate := (m.srv.rate ++ [off]).drop ((m.srv.rate.length + 1) - 8)
    let m := { m with srv := { m.srv with good := good, slew := off, rate := rate, rateEst := rateOf rate } }
    let m := if m.fld R.GRT_STATUS_CODE [] = 1 then m.setFld R.GRT_STATUS_CODE [] 0 else m
    if (m.gtState = gtAcquiring ∧ 8 ≤ good) ∨ (m.gtState = gtHoldover ∧ fine) then
      m.setFlds [] [(R.GRT_STATUS_STATE, gtSynced), (R.GRT_STATUS_ALIGN_NS, m.alignNs)]
    else m
/-- SYNC_RESP: offset and path delay (R432). -/
def Mach.syncResp (m : Mach) (n t1 t2 t3 : Nat) : Mach :=
  let m := m.consumed n clTime
  if m.srv.parent ≠ n + 1 ∨ Tbl.get 0 m.srv.syncT1 n ≠ t1 + 1 then m
  else
    let t4 := m.now * 16
    let off := halfInt (((t2 : Int) - t1) - ((t4 : Int) - t3))
    let delay := halfInt (((t4 : Int) - t1) - ((t3 : Int) - t2))
    { m with srv := { m.srv with syncT1 := Tbl.set 0 m.srv.syncT1 n 0, pathDelay := delay } }.steer off
/-- SYNC_HOLDOVER_TIMEOUT (R512). -/
def Mach.holdover (m : Mach) : Mach :=
  if m.gtState = gtSynced ∧ !m.isRoot ∧ m.srv.lastExch + 10 ^ 7 ≤ m.now then m.setFld R.GRT_STATUS_STATE [] gtHoldover else m
/-- TIME_ROOT_WRITE (R512, R513). -/
def Mach.timeRoot (m : Mach) (v : Bool) : Mach :=
  let was := m.isRoot
  let m := m.setFlds [] [(R.MRD_ID_TIME_ROOT, b2n v), (R.GRT_STATUS_ROOT, b2n v)]
  if v && !was then
    let m := { m with srv := { m.srv with slew := 0, good := 0 } }.timeParent
    if m.gtState ≠ gtFree ∨ (List.range 10).any (fun n => m.lstate n == lkUp) then
      m.setFlds [] [(R.GRT_STATUS_STATE, gtSynced), (R.GRT_STATUS_ALIGN_NS, 2), (R.GRT_STATUS_CODE, 0)]
    else m
  else if was && !v then
    let m := m.setFlds [] [(R.GRT_STATUS_STATE, gtFree), (R.GRT_STATUS_ALIGN_NS, 255), (R.GRT_STATUS_DISTANCE, 0xFF)]
    m.timeParent
  else m
/-- GRT_SET (R510). -/
def Mach.grtSet (m : Mach) (v : Nat) : Mach :=
  if !(m.isRoot && m.gtState == gtFree) then m
  else if v ≤ m.now then m.setFld R.GRT_STATUS_CODE [] 2
  else { m with now := v % 2 ^ 64 }

/-- What the rate estimate adds to the correction in a tick: a whole tick whenever its parts have added up to one (R511); the root keeps its own
rate. -/
def Mach.rateTick (m : Mach) : Mach :=
  if m.isRoot then m else
  let acc := m.srv.rateAcc + m.srv.rateEst
  let whole : Int := if 10 ^ 9 ≤ acc then 1 else if acc ≤ -10 ^ 9 then -1 else 0
  { m with srv := { m.srv with rateAcc := acc - whole * 10 ^ 9, slew := m.srv.slew + whole * 16 } }

/-- In HOLDOVER the error bound grows by 1 ns in each millisecond (R512). -/
def Mach.heldTick (m : Mach) : Mach :=
  if m.gtState ≠ gtHoldover then { m with srv := { m.srv with heldTicks := 0 } }
  else if m.srv.heldTicks + 1 < 10 ^ 6 then { m with srv := { m.srv with heldTicks := m.srv.heldTicks + 1 } }
  else { m with srv := { m.srv with heldTicks := 0 } }.addSat R.GRT_STATUS_ALIGN_NS [] 1

/-- One tick of the reference clock: graticule time moves by one, or by two or none in a slewed tick, at most one in 5,000 (R511); in
HOLDOVER the error bound grows (R512). -/
def Mach.clockTick (m : Mach) : Mach :=
  let m := m.rateTick
  let ref := m.srv.refTick + 1
  let may := decide (m.srv.slewAt + 5000 ≤ ref)
  let up := may && decide (16 ≤ m.srv.slew)
  let down := may && decide (m.srv.slew ≤ -16)
  { m with now := (m.now + (if up then 2 else if down then 0 else 1)) % 2 ^ 64,
           srv := { m.srv with refTick := ref, slewAt := if up || down then ref else m.srv.slewAt,
                               slew := if up then m.srv.slew - 16 else if down then m.srv.slew + 16 else m.srv.slew } }.heldTick


end Sys2Proof.Machine
end

