-- ==== Sys2Proof/Machine/Louvre.lean ====
section
/-! DEFINITION. The arithmetic of the two Louvre halves (R247 to R254, R265 to R271). -/

namespace Sys2Proof.Machine

/-- A value rounded to BF16, to nearest even, as its code. -/
def toBf16 (x : Fp) : Nat :=
  match x with
  | .fin s m e =>
    let (m', e') := roundMag .nearest 7 bf16.emin m e
    if magLt bf16.vmax.1 bf16.vmax.2 m' e' then bf16.encode (.inf s) else bf16.encode (.fin s m' e')
  | x => bf16.encode x

/-- Sum of exp(x − m) over a shard in the order of R171; an element at −∞ takes part as +0 (R247, R249). -/
def expSum (m : Fp) (xs : List Fp) : Fp := rowSum (xs.map (fun x => if x = .inf true then .zero else (x.sub m).exp))

/-- The maximum over shards, and the sum S over shards in ascending SHARD (R247). -/
def shardMaxSum (shards : List (List Fp)) : Fp × Fp :=
  let ms := shards.map rowMax
  let m := ms.foldl Fp.max (.inf true)
  let term (xs : List Fp) : Fp :=
    let a := rowMax xs
    (expSum a xs).mul (if a = .inf true then .zero else (a.sub m).exp)
  (m, (shards.map term).foldl Fp.add .zero)

/-- One candidate placed in rank order: larger x first, for equal x the lower index (R247, R248); at most k are kept. -/
def insertTop (x : Fp) (i : Nat) : Nat → List (Fp × Nat) → List (Fp × Nat)
  | 0, _ => []
  | _ + 1, [] => [(x, i)]
  | k + 1, (y, j) :: l => if y.lt x then ((x, i) :: (y, j) :: l).take (k + 1) else (y, j) :: insertTop x i k l

/-- The k finite entries with the largest x, in rank order. Indices ascend in the list. -/
def topK (k : Nat) (xs : List Fp) : List (Fp × Nat) :=
  (xs.zipIdx).foldl (fun t p => if p.1.finite then insertTop p.1 p.2 k t else t) []

/-- The bytes of a record (R253, R254). -/
def recordBytes (step sq pos temp lse tail flags cdt : Nat) (entries : List (Nat × Nat)) : List Byte :=
  let b := leBytes 4 step ++ leBytes 4 sq ++ leBytes 4 pos ++ leBytes 2 entries.length ++ leBytes 2 temp ++ leBytes 4 lse ++ leBytes 4 tail ++
    leBytes 2 flags ++ leBytes 1 cdt ++ leBytes 5 0 ++ entries.flatMap (fun e => leBytes 5 (e.1 % 2 ^ 20 + e.2 % 2 ^ 16 * 2 ^ 24))
  b ++ List.replicate (roundUp b.length 64 - b.length) 0

/-- 1 / T rounded (R247). -/
def invTemp (temp : Nat) : Fp := (Fp.ofNat 1).div (.fin false temp (-8))

/-! ### The bounds of R252 -/

/-- A finite value in units of 2^-320. -/
def Fp.fx (x : Fp) : Int :=
  match x with
  | .fin s m e => if s then -(fxOf m e : Int) else fxOf m e
  | _ => 0
/-- The FP32 value nearest to one in units of 2^-320. -/
def fxNear (x : Int) : Fp := round32 .nearest (.fin (decide (x < 0)) x.natAbs (-320))
/-- A computed value if it lies within d of the exact one, else the exact one rounded (R252). -/
def heldTo (d : Nat) (r : Int × Int) (z : Fp) : Fp := if z.finite && decide (z.fx ≤ r.2 + d ∧ r.1 ≤ z.fx + d) then z else fxNear r.1
/-- exp(x − m) for x at most m, −∞ included. -/
def expDiff (m x : Fp) : Encl :=
  match x with
  | .fin _ _ _ => expNeg ((m.fx - x.fx).toNat, (m.fx - x.fx).toNat)
  | _ => (0, 0)
/-- The sum of exp(x − m). -/
def expTotal (m : Fp) (xs : List Fp) : Encl := xs.foldl (fun (a : Encl) x => (a.1 + (expDiff m x).1, a.2 + (expDiff m x).2)) (0, 0)
/-- n of R252. -/
def rowN (x : List (List Fp)) : Nat := (x.foldl (fun a s => max a s.length) 0 + 127) / 128 + 7 + x.length + 3
/-- LSE, tail and log-probabilities of a row held to the bounds of R252: x by shard, its maximum, the top entries. -/
def recordHeld (x : List (List Fp)) (m : Fp) (top : List (Fp × Nat)) (lse tail : Fp) (lp : List Fp) : Fp × Fp × List Fp :=
  if !m.finite then (lse, tail, lp)
  else
    let u := 2 ^ 296
    let n := rowN x
    let e := expTotal m x.flatten
    let s : Encl := (max fxOne e.1, e.2)
    let l : Int × Int := (m.fx + (lnEncl s.1 (-320)).2.1, m.fx + (lnEncl s.2 (-320)).2.2)
    let absL := min l.1.natAbs l.2.natAbs
    let rest := expTotal m ((x.flatten.zipIdx.filter (fun (v : Fp × Nat) => !top.any (fun t => t.2 == v.2))).map (fun v => v.1))
    let t := enclDiv rest s
    (heldTo ((n + 3) * u + absL / 2 ^ 24) l lse, heldTo ((n + top.length + 4) * u) (t.1, t.2) tail,
     (top.zip lp).map (fun (v : (Fp × Nat) × Fp) =>
       let d := v.1.1.fx - l.1
       heldTo (d.natAbs / 512 + (n + 4) * u + (absL + v.1.1.fx.natAbs) / 2 ^ 24) (v.1.1.fx - l.2, d) v.2))

/-- The record of a row of teacher logits by shard (R247 to R252): its bytes, NONFINITE, SHORT. -/
def emitRecord (k temp cdt step sq pos : Nat) (z : List (List Fp)) : List Byte × Bool × Bool :=
  if z.any (fun s => s.any (fun x => x == .nan || x == .inf false)) then
    (recordBytes step sq pos temp (toF32 .nan) (toF32 .nan) 1 cdt [], true, false)
  else
    let x := z.map (fun s => s.map (fun v => v.mul (invTemp temp)))
    let (m, s) := shardMaxSum x
    if m = .inf true then (recordBytes step sq pos temp (toF32 (.inf true)) 0 2 cdt [], false, true)
    else
      let lse := m.add s.ln
      let top := topK k x.flatten
      let st := (top.map (fun e => (e.1.sub m).exp)).foldl Fp.add .zero
      let tail := Fp.zero.max ((s.sub st).div s)
      let short := decide (top.length < k)
      let (lse, tail, lp) := recordHeld x m top lse tail (top.map (fun e => bf16.decode (toBf16 (e.1.sub lse))))
      (recordBytes step sq pos temp (toF32 lse) (toF32 tail) (2 * b2n short) cdt ((top.zip lp).map (fun e => (e.1.2, toBf16 e.2))), false, short)

/-! ### The loss half -/

/-- Settings of a loss computation: LVR_CWEIGHT, HARD, NF_POLICY, VOCAB. -/
structure LossCfg where
  wkd : Fp
  alpha : Fp
  hard : Bool
  nf : Bool
  vocab : Nat
deriving DecidableEq, Repr

/-- What a row comes to: gradient per shard, KL, CE, LOSS, FLAGS of the loss entry, and whether the tail was clamped. -/
structure LossOut where
  grads : List (List Fp)
  kl : Fp
  ce : Fp
  loss : Fp
  flags : Nat
  clamped : Bool
deriving DecidableEq, Repr

/-- The loss and gradient of a record and a student row by shard (R265 to R271). -/
def lossRow (c : LossCfg) (rcd : List Byte) (poisoned : Bool) (label : Nat) (s : List (List Fp)) : LossOut :=
  let temp := leAt rcd 14 2
  let t := Fp.fin false temp (-8)
  let kn := leAt rcd 12 2
  let entries := (List.range kn).map (fun i => leAt rcd (32 + 5 * i) 5)
  let idx := entries.map (fun e => e % 2 ^ 20)
  let logp := entries.map (fun e => bf16.decode (e / 2 ^ 24 % 2 ^ 16))
  let tail := f32 (leAt rcd 20 4)
  let tnf := bitAt (leAt rcd 24 2) 0
  let y := s.map (fun v => v.map (fun x => x.mul (invTemp temp)))
  let (my, sy) := shardMaxSum y
  let lseq := my.add sy.ln
  let (ms, ss) := shardMaxSum s
  let lser := ms.add ss.ln
  let yf := y.flatten
  let sf := s.flatten
  let valid := c.hard && decide (label < c.vocab)
  let at' (l : List Fp) (i : Nat) : Fp := l.getD i .zero
  let p := logp.map Fp.exp
  let st := (idx.map (fun i => ((at' yf i).sub my).exp)).foldl Fp.add .zero
  let q0 := (sy.sub st).div sy
  let tpos := Fp.zero.lt tail
  let clamp := tpos && q0.lt (.pow2 (-126))
  let qtail := if clamp then .pow2 (-126) else q0
  let kl0 := (((p.zip logp).zip idx).map (fun e => e.1.1.mul (e.1.2.sub ((at' yf e.2).sub lseq)))).foldl Fp.add .zero
  let kl1 := if tpos then kl0.add (tail.mul (tail.ln.sub qtail.ln)) else kl0
  let ratio := if tpos then tail.div qtail else .zero
  let wt := c.wkd.mul t
  let ce := if valid then lser.sub (at' sf label) else .zero
  let nanAll := poisoned || (tnf && !c.nf)
  let drop := tnf && c.nf && !poisoned
  let kl := if nanAll then .nan else if drop then .zero else kl1
  let loss := if nanAll then .nan else ((wt.mul t).mul kl).add (c.alpha.mul ce)
  let hardTerm (sj : Fp) (j : Nat) : Fp := c.alpha.mul (((sj.sub lser).exp).sub (if j = label then Fp.ofNat 1 else .zero))
  let g (j : Nat) (sj yj : Fp) : Fp :=
    if nanAll then .nan
    else if drop then (if valid then hardTerm sj j else .zero)
    else
      let q := (yj.sub lseq).exp
      let pj := match (idx.zip p).find? (fun e => e.1 == j) with
                | some e => e.2
                | none => ratio.mul q
      let g0 := wt.mul (q.sub pj)
      if valid then g0.add (hardTerm sj j) else g0
  let starts := (s.foldl (fun (acc : List Nat × Nat) v => (acc.1 ++ [acc.2], acc.2 + v.length)) ([], 0)).1
  let grads := ((s.zip y).zip starts).map (fun e => ((e.1.1.zip e.1.2).zipIdx).map (fun v => g (e.2 + v.2) v.1.1 v.1.2))
  let ignored := decide (c.vocab ≤ label) && label != 0xFFFFFFFF
  { grads := grads, kl := kl, ce := ce, loss := loss,
    flags := b2n tnf + 2 * b2n (clamp && !nanAll && !drop) + 4 * b2n poisoned + 8 * b2n drop + 16 * b2n ignored,
    clamped := clamp && !nanAll && !drop }

end Sys2Proof.Machine
end

