-- ==== Sys2Proof/Machine/ConduitOps.lean ====
section
/-! DEFINITION. Conduits (R236 to R283): state, slots, queue regions, opening, credits, records on their way, halting and closing. -/

namespace Sys2Proof.Machine

/-! ### States, codes and lookups -/

/-- Conduit states (R277). -/
def cdClosed : Nat := 0
def cdOpening : Nat := 1
def cdOpen : Nat := 2
def cdDraining : Nat := 3
def cdHalted : Nat := 4
/-- LVR_CSTATE codes. -/
def lvOk : Nat := 0
def lvParam : Nat := 1
def lvBusy : Nat := 2
def lvQueueShort : Nat := 3
def lvMismatch : Nat := 4
def lvShard : Nat := 5
def lvLink : Nat := 6
def lvPeerMismatch : Nat := 7
def lvPeerTimeout : Nat := 8
def lvReconfigured : Nat := 9

/-- A conduit beside its registers. -/
def Mach.cond (m : Mach) (c : Nat) : Cond := Tbl.get Cond.init m.conds c
/-- A conduit replaced. -/
def Mach.setCond (m : Mach) (c : Nat) (x : Cond) : Mach := { m with conds := Tbl.set Cond.init m.conds c x }
/-- STATE of a conduit. -/
def Mach.cdState (m : Mach) (c : Nat) : Nat := m.fld R.LVR_CSTATE_STATE [c]
/-- The partition of a conduit (R200), 0 where the image defines none. -/
def Mach.cdPart (m : Mach) (c : Nat) : Nat := ((m.conf.cfg.conduitOf c).map (fun e => leAt e 1 1)).getD 0
/-- ROUTE of a conduit. -/
def Mach.cdRoute (m : Mach) (c : Nat) : Option (List Byte) := (m.conf.cfg.conduitOf c).bind (fun e => m.conf.cfg.route (leAt e 6 2))
/-- The die of the emit half, if this module has it (R239, R274). -/
def Mach.cdEmit (m : Mach) (c : Nat) : Option Nat :=
  (m.cdRoute c).bind (fun e => if routeSrc e / 4096 = 1 then some (routeSrc e % 4096) else none)
/-- The die of the loss half, if this module has it. -/
def Mach.cdLoss (m : Mach) (c : Nat) : Option Nat :=
  (m.cdRoute c).bind (fun e => if routeDst e / 4096 = 1 then some (routeDst e % 4096) else none)
/-- The other half is on another module. -/
def Mach.cdRemote (m : Mach) (c : Nat) : Bool := m.flag R.LVR_CREMOTE_REMOTE [c]
/-- The link of a remote conduit: the link island that its ROUTE names (R274, R276). -/
def Mach.cdLink (m : Mach) (c : Nat) : Option Nat :=
  (m.cdRoute c).bind (fun e => if routeDst e / 4096 = 5 then some (routeDst e % 4096) else if routeSrc e / 4096 = 5 then some (routeSrc e % 4096) else none)
/-- The link of a remote conduit has left UP and DEGRADED since it opened, whether or not it is back: what comes after the loss is held until the
conduit halts, so that no gap is ever consumed (R276). -/
def Mach.cdLost (m : Mach) (c : Nat) : Bool :=
  m.cdRemote c && (m.cdState c == cdOpen || m.cdState c == cdDraining) && (m.cdLink c).any (fun n => !m.linkUp n || (m.link n).downs != (m.cond c).downs)
/-- The partition's pause or its stop freezes a conduit (R277, R544). -/
def Mach.cdFrozen (m : Mach) (c : Nat) : Bool := m.pstate (m.cdPart c) == psPaused || !m.running || m.shut (m.cdPart c)
/-- A conduit takes work: OPEN or DRAINING, not frozen, its link not lost, its Louvre not stopped. -/
def Mach.cdRuns (m : Mach) (c : Nat) : Bool :=
  (m.cdState c == cdOpen || m.cdState c == cdDraining) && !m.cdFrozen c && !m.cdLost c &&
  ! [m.cdEmit c, m.cdLoss c].any (fun d => match d with
    | some d => m.core.stopped.contains (isl 1 d)
    | none => false)

/-! ### Slots (R240, R244, R272) -/

/-- Conduits that are not CLOSED on one half of a die. -/
def Mach.cdCount (m : Mach) (emit : Bool) (die : Nat) : Nat :=
  ((List.range 64).filter (fun c => m.cdState c != cdClosed && (if emit then m.cdEmit c else m.cdLoss c) == some die)).length
/-- Student rows that a loss half holds, for a VOCAB (R272). -/
def lossRows (vocab : Nat) : Nat := min 4 (2 ^ 23 / (4 * max 1 vocab))
/-- Row slots of a conduit on a half (R240), within what R272 holds of student rows, at least one. -/
def Mach.cdSlots (m : Mach) (emit : Bool) (die vocab : Nat) : Nat :=
  let n := max 1 (m.cdCount emit die)
  if emit then 4 / n else max 1 (lossRows vocab / n)
/-- Student rows that count against a conduit's slots: its own, and every slot where the rows of all conduits of the half fill it (R272). -/
def Mach.lossTaken (m : Mach) (c die : Nat) : Nat :=
  let rows := ((List.range 64).filter (fun k => m.cdState k != cdClosed && m.cdLoss k == some die)).map (fun k => (m.cond k).srows.length)
  if lossRows (m.fld R.LVR_CCTL_VOCAB [c]) ≤ rows.sum then max 4 (m.cond c).srows.length else (m.cond c).srows.length

/-- LVR_STATUS of a die follows the conduits. -/
def Mach.lvrSync (m : Mach) (die : Nat) : Mach :=
  let cs := (List.range 64).filter (fun c => m.cdState c != cdClosed)
  let er := ((cs.filter (fun c => m.cdEmit c == some die)).map (fun c => (m.cond c).trows.length + (m.cond c).ready.length)).sum
  let lr := ((cs.filter (fun c => m.cdLoss c == some die)).map (fun c => (m.cond c).srows.length)).sum
  m.setFlds [die] [(R.LVR_STATUS_EMIT_CONDUITS, m.cdCount true die), (R.LVR_STATUS_LOSS_CONDUITS, m.cdCount false die),
    (R.LVR_STATUS_EMIT_ROWS, min er 15), (R.LVR_STATUS_LOSS_ROWS, min lr 15)]
/-- LVR_STATUS of the dies of a conduit. -/
def Mach.cdSync (m : Mach) (c : Nat) : Mach :=
  let m := match m.cdEmit c with
    | some d => m.lvrSync d
    | none => m
  match m.cdLoss c with
  | some d => m.lvrSync d
  | none => m

/-- A state change of a conduit, with its event vector (R472). -/
def Mach.setCdState (m : Mach) (c st code : Nat) : Mach :=
  ((m.setFlds [c] [(R.LVR_CSTATE_STATE, st), (R.LVR_CSTATE_CODE, code)]).cdSync c).vfVector (m.cdPart c) 7

/-! ### Queue region (R259) -/

/-- Record slot size (R253, R259). -/
def slotBytes (k : Nat) : Nat := roundUp (32 + 5 * k) 64
/-- Where the queue region of a conduit begins in its partition's Transom space, and its length. -/
def Mach.cdQueue (m : Mach) (c : Nat) : Nat × Nat :=
  match m.conf.cfg.conduitOf c with
  | some e => (leAt e 12 4 * 2 ^ 20, leAt e 10 2 * 2 ^ 20)
  | none => (0, 0)
/-- The enabled taps of a conduit (R255). -/
def Mach.cdTaps (m : Mach) (c : Nat) : List Nat :=
  (List.range (((m.conf.cfg.conduitOf c).map (fun e => leAt e 9 1)).getD 0)).filter (fun t => m.flag R.LVR_TAP_ENABLE [c, t])
/-- Bytes of one slot of a tap. -/
def Mach.tapSlot (m : Mach) (c t : Nat) : Nat := m.fld R.LVR_TAP_SLOT_KIB [c, t] * 1024
/-- The offset of slot i of the records, and of slot i of a tap, in Transom space. -/
def Mach.recOff (m : Mach) (c i : Nat) : Nat := (m.cdQueue c).1 + i * slotBytes (m.cond c).k
def Mach.tapOff (m : Mach) (c t i : Nat) : Nat :=
  (m.cdQueue c).1 + (m.cond c).limit * slotBytes (m.cond c).k +
  (((m.cdTaps c).filter (fun u => decide (u < t))).map (fun u => m.fld R.LVR_TAP_SLOTS [c, u] * m.tapSlot c u)).sum + i * m.tapSlot c t

/-- The pieces of n bytes of a partition's Transom space, as the module reaches them. -/
def Mach.transomSegs (m : Mach) (p off n : Nat) : Option (List (Nat × Nat)) := m.segs p none false (mkAddr 1 off) n

/-- Zero a range of a partition's Transom space. -/
def Mach.zeroTransom (m : Mach) (p off n : Nat) : Mach :=
  match m.transomSegs p off n with
  | some l => l.foldl (fun m s => m.zero s.1 s.2) m
  | none => m
/-- Bytes into a partition's Transom space, poisoned or not. -/
def Mach.putTransom (m : Mach) (p off : Nat) (bs : List Byte) (ps : Bool) : Mach :=
  match m.transomSegs p off bs.length with
  | some l => (chunksOf l bs ps).foldl (fun m c => m.putChunk c) m
  | none => m
/-- Bytes of a partition's Transom space, and whether a line of them is poisoned. -/
def Mach.getTransom (m : Mach) (p off n : Nat) : List Byte × Bool :=
  match m.transomSegs p off n with
  | some l => (m.readSegs l, m.segsPoisoned l)
  | none => (List.replicate n 0, false)

/-! ### Gradients and tap frames on their way -/

/-- The number of a conduit as a sender of transfers: above the panes. -/
def cdSender (c : Nat) : Nat := 4096 + c
/-- Transfers of a conduit of one kind (0 gradients, 1 taps) in flight. -/
def Mach.cdInFlight (m : Mach) (c kind : Nat) : Bool := m.core.xfers.any (fun e => e.2.any (fun x => x.pane == cdSender c && x.queue == kind))
/-- Drop every transfer of a conduit. -/
def Mach.cdDrop (m : Mach) (c : Nat) : Mach := m.dropXfers (fun x => x.pane == cdSender c)

/-! ### Closing and halting (R277) -/

/-- A conduit becomes CLOSED: contents discarded, queue region zeroed. -/
def Mach.cdClose (m : Mach) (c code : Nat) : Mach :=
  if m.cdState c = cdClosed then m
  else
    let (b, n) := m.cdQueue c
    let m := (m.zeroTransom (m.cdPart c) b n).cdDrop c
    let m := (m.setCond c Cond.init).setFlds [c] [(R.LVR_CSTATE_QUEUED, 0), (R.LVR_CSTATE_CREDITS, 0)]
    m.setCdState c cdClosed code

/-- A conduit halts with a code and a CORRECTED record; what it holds is kept. -/
def Mach.cdHalt (m : Mach) (c code : Nat) : Mach :=
  if m.cdState c = cdOpen ∨ m.cdState c = cdDraining then
    let m := m.setCdState c cdHalted code
    m.place (ErrRec.mk0 sevCorrected (m.cdPart c) ecConduitHalt (match m.cdLoss c, m.cdEmit c with
      | some d, _ => isl 1 d
      | none, some d => isl 1 d
      | none, none => 0xFFFF) (c * 256 + code) 0)
  else m

/-- A DRAINING conduit with every record consumed and every credit back becomes CLOSED. The loss side of a remote conduit has them when its open
rows have had their records and no credit waits to leave. -/
def Mach.cdDrained (m : Mach) (c : Nat) : Mach :=
  let x := m.cond c
  let emitDone := (m.cdEmit c).isNone || (x.trows.isEmpty && x.ready.isEmpty && m.fld R.LVR_CSTATE_CREDITS [c] == x.limit &&
    x.taps.all (fun t => t.2.used == 0))
  let lossDone := (m.cdLoss c).isNone || (x.flight.isEmpty && x.rbuf.isEmpty && m.fld R.LVR_CSTATE_QUEUED [c] == 0 && x.pass.isNone &&
    x.taps.all (fun t => t.2.queued == t.2.delivered) && !m.cdInFlight c 0 && !m.cdInFlight c 1 &&
      ((m.cdEmit c).isSome || (x.srows.isEmpty && x.crets == 0)))
  if m.cdState c = cdDraining ∧ emitDone ∧ lossDone then m.cdClose c lvOk else m

/-- CLOSE (R277). -/
def Mach.cdCloseCmd (m : Mach) (c : Nat) : Mach :=
  if m.cdState c = cdOpen then (m.setCdState c cdDraining (m.fld R.LVR_CSTATE_CODE [c])).cdDrained c else m

/-- Every conduit of a partition closes (R277). -/
def Mach.closeConduits (m : Mach) (p code : Nat) : Mach :=
  (List.range 64).foldl (fun m c => if m.cdPart c = p then m.cdClose c code else m) m
/-- Every conduit of a partition receives CLOSE (R489). -/
def Mach.drainConduits (m : Mach) (p : Nat) : Mach :=
  (List.range 64).foldl (fun m c => if m.cdPart c = p then m.cdCloseCmd c else m) m
/-! ### Messages to the peer (R274, R276; log entry 17) -/

/-- A message of a remote conduit can leave now. -/
def Mach.cdLinked (m : Mach) (c : Nat) : Bool := m.jobOf (m.cdPart c) != 0 && (m.cdLink c).any (fun n => m.linkUp n)
/-- What a conduit sends to its other half can leave now: on a local one always, on a remote one while its link carries traffic and has not
been lost. -/
def Mach.cdCanSend (m : Mach) (c : Nat) : Bool := !m.cdRemote c || (m.cdLinked c && !m.cdLost c)
/-- A conduit message to the other side on the conduit's own link: MTYPE, body; the peer's conduit number in TAG. -/
def Mach.cdSend (m : Mach) (c mtype : Nat) (body : List Byte) (poison : Bool) : Mach :=
  match m.cdLink c with
  | none => m
  | some n =>
    if m.cdLinked c then
      m.sendOn n (m.fld R.LVR_CREMOTE_PEER_MODULE [c]) (m.jobOf (m.cdPart c)) mtype 16 (m.fld R.LVR_CREMOTE_PEER_CONDUIT [c]) m.moduleId body poison
    else m
/-- The RESETs that waited for a partition's step boundary take effect (R277, R281); the peer's side ends too. -/
def Mach.resetConduits (m : Mach) (p : Nat) : Mach :=
  (List.range 64).foldl (fun m c =>
    if m.cdPart c = p ∧ (m.cond c).resetReq then (if m.cdRemote c then m.cdSend c 0x33 [2] false else m).cdClose c lvOk else m) m

/-! ### Credits (R260) -/

/-- Ready records leave while credits last. -/
def Mach.cdEmitReady : Nat → Mach → Nat → Mach
  | 0, m, _ => m
  | n + 1, m, c =>
    let x := m.cond c
    match x.ready with
    | [] => m
    | r :: l =>
      if m.fld R.LVR_CSTATE_CREDITS [c] = 0 ∨ !m.cdCanSend c then m
      else
        let m := (m.setFld R.LVR_CSTATE_CREDITS [c] (m.fld R.LVR_CSTATE_CREDITS [c] - 1)).addWrap R.LVR_CROWS_RECORDS [c] 1
        let m := m.countFor 0 (isl 1 ((m.cdEmit c).getD 0)) 2 1
        let m := if m.cdRemote c then (m.setCond c { x with ready := l }).cdSend c 0x30 r.bytes r.poisoned
                 else m.setCond c { x with ready := l, flight := x.flight ++ [r] }
        Mach.cdEmitReady n m c
/-- Ready records leave, and LVR_STATUS follows. -/
def Mach.cdPump (m : Mach) (c : Nat) : Mach := (Mach.cdEmitReady ((m.cond c).ready.length) m c).cdSync c

/-- A credit goes back to the emit half; on a remote conduit it waits for the link. -/
def Mach.cdReturnCredit (m : Mach) (c : Nat) : Mach :=
  if m.cdRemote c && m.cdCanSend c then m.cdSend c 0x33 [0] false else m.setCond c { m.cond c with crets := (m.cond c).crets + 1 }

/-! ### Opening (R278) -/

/-- The dies that a route touches: a Louvre end, and the dies its PATH joins (R259, R37). -/
def edgeDies (e : Nat) : Nat × Nat :=
  ([(0, 1), (1, 2), (2, 3), (4, 5), (5, 6), (6, 7), (0, 4), (1, 5), (2, 6), (3, 7), (8, 0), (8, 4), (9, 3), (9, 7)][e]?).getD (0, 0)
def routeDies (e : List Byte) : List Nat :=
  let ends := ([routeSrc e, routeDst e].filter (fun i => i / 4096 == 1)).map (fun i => i % 4096)
  ends ++ (routeEdges e).flatMap (fun k => [(edgeDies k).1, (edgeDies k).2])

/-- A finite FP32 code. -/
def finite32 (c : Nat) : Bool := (f32 c).finite

/-- The checks of OPEN in the order of R278: 0, or the code. -/
def Mach.cdCheck (m : Mach) (c : Nat) : Nat :=
  match m.conf.cfg.conduitOf c, m.cdRoute c with
  | some e, some rt =>
    let p := leAt e 1 1
    let k := m.fld R.LVR_CCTL_K [c]
    let temp := m.fld R.LVR_CCTL_TEMP [c]
    let vocab := m.fld R.LVR_CCTL_VOCAB [c]
    let n := m.fld R.LVR_CLRING_ENTRIES [c]
    let remote := m.cdRemote c
    let tapOk (t : Nat) : Bool := decide (1 ≤ m.fld R.LVR_TAP_SLOTS [c, t] ∧ 1 ≤ m.fld R.LVR_TAP_SLOT_KIB [c, t] ∧ m.fld R.LVR_TAP_SLOT_KIB [c, t] ≤ 4096) &&
      (match m.cdLoss c with
       | none => true
       | some d => match m.conf.cfg.route (m.fld R.LVR_TAP_ROUTE [c, t]) with
         | some r => leAt r 2 1 == 1 && leAt r 3 1 == p && routeSrc r == isl 1 d && decide (routeDst r < 4096) && (m.conf.cfg.panes p).contains (routeDst r)
         | none => false)
    let ends := if remote then (m.cdEmit c).isSome && routeDst rt / 4096 == 5 || (m.cdLoss c).isSome && routeSrc rt / 4096 == 5
                else (m.cdEmit c).isSome && (m.cdLoss c).isSome
    let full := (match m.cdEmit c with
                 | some d => decide (4 ≤ m.cdCount true d)
                 | none => false) || (match m.cdLoss c with
                 | some d => decide (4 ≤ m.cdCount false d)
                 | none => false)
    let need := leAt e 16 2 * slotBytes k + ((m.cdTaps c).map (fun t => m.fld R.LVR_TAP_SLOTS [c, t] * m.tapSlot c t)).sum
    let queueHere := (m.cdLoss c).isSome
    if m.conf.cfg.shared p then lvParam
    else if k = 0 ∨ 1024 < k ∨ vocab < k then lvParam
    else if temp < 0x40 ∨ 0x2000 < temp then lvParam
    else if vocab = 0 ∨ 2 ^ 20 < vocab then lvParam
    else if !finite32 (m.fld R.LVR_CWEIGHT_W_KD [c]) || !finite32 (m.fld R.LVR_CWEIGHT_ALPHA [c]) then lvParam
    else if n ≠ 0 ∧ (m.transomSegs p (m.fld R.LVR_CLRING_BASE [c] * 64) (n * 32)).isNone then lvParam
    else if !(m.cdTaps c).all tapOk then lvParam
    else if !ends || full then lvParam
    else if queueHere && decide ((m.cdQueue c).2 < need) then lvQueueShort
    else if queueHere && (m.transomSegs p (m.cdQueue c).1 (m.cdQueue c).2).isNone then lvParam
    else if !(routeDies rt).contains (leAt e 8 1) then lvParam
    else 0
  | _, _ => lvParam

/-- How often the link of a conduit has left UP and DEGRADED. -/
def Mach.cdDowns (m : Mach) (c : Nat) : Nat := ((m.cdLink c).map (fun n => (m.link n).downs)).getD 0
/-- A conduit opens with the settings in force (R275, R277). What the peer sent while a freeze held its answer back stays. -/
def Mach.cdOpenNow (m : Mach) (c k temp : Nat) (nf : Bool) (credits : Nat) : Mach :=
  let x := m.cond c
  let m := m.setCond c { Cond.init with k := k, temp := temp, nf := nf, limit := credits, openedAt := m.now, flight := x.flight, crets := x.crets,
                                        held := x.held, downs := m.cdDowns c }
  let m := m.setFlds [c] [(R.LVR_CSTATE_CREDITS, credits), (R.LVR_CSTATE_QUEUED, 0), (R.LVR_CROWS_RECORDS, 0), (R.LVR_CROWS_LOSS_ROWS, 0),
    (R.LVR_CPACE_TEACHER_STALL, 0), (R.LVR_CPACE_STUDENT_WAIT, 0), (R.LVR_CQUEUE_SLOT_BYTES, slotBytes k), (R.LVR_CQUEUE_HIGH_WATER, 0)]
  m.setCdState c cdOpen lvOk

/-- CREDITS of the CONDUIT entry. -/
def Mach.cdCredits (m : Mach) (c : Nat) : Nat := ((m.conf.cfg.conduitOf c).map (fun e => leAt e 16 2)).getD 0

/-- TAPS of the CONDUIT entry. -/
def Mach.cdTapCount (m : Mach) (c : Nat) : Nat := ((m.conf.cfg.conduitOf c).map (fun e => leAt e 9 1)).getD 0
/-- Bytes that the queue of a conduit holds for records beside its taps (R259). -/
def Mach.cdRoom (m : Mach) (c : Nat) : Nat :=
  (m.cdQueue c).2 - ((m.cdTaps c).map (fun t => m.fld R.LVR_TAP_SLOTS [c, t] * m.tapSlot c t)).sum
/-- What a side exchanges with the other one (R275; log entry 17): 1 its OPEN, 3 its acceptance, 4 its refusal; the registers of a PeerReply. -/
def Mach.cdExchange (m : Mach) (c code : Nat) : Mach :=
  m.cdSend c 0x33 ([BitVec.ofNat 8 code] ++ leBytes 4 (m.fld R.LVR_CCTL_VOCAB [c]) ++ leBytes 1 (m.cdTapCount c) ++ leBytes 2 (m.cdCredits c) ++
    leBytes 4 (m.cdRoom c) ++ leBytes 2 (m.fld R.LVR_CCTL_K [c]) ++ leBytes 2 (m.fld R.LVR_CCTL_TEMP [c]) ++ leBytes 1 (m.fld R.LVR_CCTL_NF_POLICY [c])) false
/-- The two sides of an OPEN fit each other (R275): the same VOCAB and TAPS, and no more CREDITS of the emit side than the loss side's queue holds
records of the emit side's K. -/
def Mach.cdAgrees (m : Mach) (c : Nat) (r : PeerReply) : Bool :=
  r.vocab == m.fld R.LVR_CCTL_VOCAB [c] && r.taps == m.cdTapCount c &&
  (if (m.cdEmit c).isSome then decide (m.cdCredits c * slotBytes (m.fld R.LVR_CCTL_K [c]) ≤ r.capacity) else decide (r.credits * slotBytes r.k ≤ m.cdRoom c))
/-- The exchange of OPEN reaches an OPENING side (R275): one that does not fit refuses it on either side; K, TEMP, NF_POLICY and CREDITS in force
are the emit side's. The peer's own OPEN gets an answer. -/
def Mach.peerReply (m : Mach) (c : Nat) (r : PeerReply) : Mach :=
  if r.accept && m.cdAgrees c r then
    let m := if r.ask then m.cdExchange c 3 else m
    if (m.cdEmit c).isSome then m.cdOpenNow c (m.fld R.LVR_CCTL_K [c]) (m.fld R.LVR_CCTL_TEMP [c]) (m.flag R.LVR_CCTL_NF_POLICY [c]) (m.cdCredits c)
    else m.cdOpenNow c r.k r.temp r.nf r.credits
  else ((if r.ask then m.cdExchange c 4 else m).setCond c Cond.init).setCdState c cdClosed lvPeerMismatch
/-- The peer's OPEN reaches a side that is not OPENING (R275): a CLOSED one refuses it where it does not fit and otherwise leaves it to its own OPEN;
an OPEN one says again whether it fits; another gives no answer (log entry 86). -/
def Mach.peerAsks (m : Mach) (c : Nat) (r : PeerReply) : Mach :=
  if !r.ask || !m.cdRemote c then m
  else if m.cdState c = cdClosed then (if m.cdAgrees c r then m else m.cdExchange c 4)
  else if m.cdState c = cdOpen then m.cdExchange c (if m.cdAgrees c r then 3 else 4)
  else m
/-- OPEN (R277, R278): only in CLOSED. -/
def Mach.cdOpenCmd (m : Mach) (c : Nat) : Mach :=
  if m.cdState c ≠ cdClosed then m
  else
    let code := m.cdCheck c
    if code ≠ 0 then m.setFld R.LVR_CSTATE_CODE [c] code
    else if m.cdRemote c then ((m.setCond c { Cond.init with openedAt := m.now, downs := m.cdDowns c }).setCdState c cdOpening lvOk).cdExchange c 1
    else m.cdOpenNow c (m.fld R.LVR_CCTL_K [c]) (m.fld R.LVR_CCTL_TEMP [c]) (m.flag R.LVR_CCTL_NF_POLICY [c]) (m.cdCredits c)

/-! ### Shards (R242 to R246) -/

/-- The payload of a shard frame as FP32 codes. -/
def shardCodes (fmt n : Nat) (bs : List Byte) : List Nat :=
  (List.range n).map (fun i => if fmt = 1 then leAt bs (64 + 2 * i) 2 * 65536 else leAt bs (64 + 4 * i) 4)

/-- The shard a frame carries. -/
def shardOf (bs : List Byte) (poisoned : Bool) : Shard :=
  { idx := leAt bs 24 2, base := leAt bs 16 4, label := leAt bs 12 4, route := leAt bs 32 2, offset := leAt bs 40 8,
    codes := shardCodes (leAt bs 29 1) (leAt bs 20 4) bs, poisoned := poisoned }

/-- Whether a shard agrees with the shards of its open row (R243). -/
def shardFits (row : LRow) (shards : Nat) (s : Shard) : Bool :=
  shards == row.shards && row.got.all (fun g =>
    g.idx != s.idx && decide (g.base + g.codes.length ≤ s.base ∨ s.base + s.codes.length ≤ g.base) &&
    (decide (g.idx < s.idx) == decide (g.base < s.base)))

/-- Every shard of a row is there (R243). -/
def LRow.complete (r : LRow) : Bool := r.got.length == r.shards
/-- The shards of a row in ascending SHARD. -/
def LRow.sorted (r : LRow) : List Shard := (List.range r.shards).flatMap (fun i => r.got.filter (fun s => s.idx == i))
/-- The shards of a complete row cover the vocabulary exactly: they are disjoint, in order, and as long together. -/
def LRow.covers (r : LRow) (vocab : Nat) : Bool :=
  (r.got.map (fun s => s.codes.length)).sum == vocab && r.got.all (fun s => decide (s.base + s.codes.length ≤ vocab))

/-- What a shard does to the rows of a half: it waits for a slot, is discarded, breaks R243, or joins. -/
inductive ShardFate where
  | waits
  | discarded
  | invalid
  | joins (rows : List LRow)
deriving DecidableEq, Repr

/-- The rows of a half with a shard (R243, R244, R246). slots is what the conduit may hold open, taken what it holds. -/
def placeShard (rows : List LRow) (taken slots vocab : Nat) (draining : Bool) (bs : List Byte) (poisoned : Bool) : ShardFate :=
  let s := shardOf bs poisoned
  let n := leAt bs 26 2
  let ok := decide (1 ≤ n ∧ n ≤ 256 ∧ s.idx < n ∧ 1 ≤ leAt bs 20 4 ∧ leAt bs 20 4 ≤ 2 ^ 20 ∧ leAt bs 29 1 ≤ 1 ∧ s.base + s.codes.length ≤ vocab)
  let mine (r : LRow) : Bool := r.step == leAt bs 0 4 && r.seqId == leAt bs 4 4 && r.pos == leAt bs 8 4 && !r.complete
  if !ok then .invalid
  else match rows.find? mine with
    | some r =>
      if !shardFits r n s then .invalid
      else
        let r' := { r with got := r.got ++ [s] }
        if r'.complete && !r'.covers vocab then .invalid
        else .joins (rows.map (fun x => if x = r then r' else x))
    | none =>
      if draining then .discarded
      else if slots ≤ taken then .waits
      else
        let r' : LRow := { step := leAt bs 0 4, seqId := leAt bs 4 4, pos := leAt bs 8 4, shards := n, got := [s] }
        if r'.complete && !r'.covers vocab then .invalid else .joins (rows ++ [r'])

/-- The logits of a row by shard. -/
def LRow.values (r : LRow) : List (List Fp) := r.sorted.map (fun s => s.codes.map f32)
/-- A row holds a poisoned shard. -/
def LRow.poisoned (r : LRow) : Bool := r.got.any (fun s => s.poisoned)

/-- A discarded shard (R246). -/
def Mach.lvrDiscard (m : Mach) (die : Nat) : Mach := m.addSat R.LVR_STATUS_DISCARDS [die] 1

/-- The head transfer of a route leaves it: a frame is consumed at its Louvre. -/
def Mach.popXfer (m : Mach) (rt : Nat) : Mach := m.setXfers rt ((m.xfersOf rt).drop 1)

/-- A record belongs to a student row (R264). -/
def Rec.pairs (r : Rec) (row : LRow) : Bool := leAt r.bytes 0 4 == row.step && leAt r.bytes 4 4 == row.seqId && leAt r.bytes 8 4 == row.pos
/-- The oldest record meets the oldest open student row (R264): one that differs halts the conduit, both stay held. -/
def Mach.cdPair (m : Mach) (c : Nat) : Mach :=
  let x := m.cond c
  match x.rbuf, x.srows with
  | r :: _, row :: _ => if x.pass.isNone && !r.pairs row then m.cdHalt c lvMismatch else m
  | _, _ => m
/-- A record reaches the loss half (R261). -/
def Mach.recordIn (m : Mach) (c : Nat) (r : Rec) : Mach :=
  let x := m.cond c
  let queued := m.fld R.LVR_CSTATE_QUEUED [c]
  if x.rbuf.length < 4 ∧ queued = 0 then (m.setCond c { x with rbuf := x.rbuf ++ [r] }).cdPair c
  else
    let slot := (x.qhead + queued) % max 1 x.limit
    let m := m.putTransom (m.cdPart c) (m.recOff c slot) r.bytes r.poisoned
    let m := m.setFld R.LVR_CSTATE_QUEUED [c] (queued + 1)
    m.setFld R.LVR_CQUEUE_HIGH_WATER [c] (max (m.fld R.LVR_CQUEUE_HIGH_WATER [c]) (queued + 1))

/-- A tap of a conduit. -/
def Cond.tap (x : Cond) (t : Nat) : TapSt := Tbl.get TapSt.init x.taps t
/-- A tap replaced. -/
def Cond.setTap (x : Cond) (t : Nat) (v : TapSt) : Cond := { x with taps := Tbl.set TapSt.init x.taps t v }

/-- A tap frame enters the queue of the loss half (R259). -/
def Mach.tapIn (m : Mach) (c t : Nat) (bs : List Byte) (ps : Bool) : Mach :=
  let x := m.cond c
  let v := x.tap t
  let m := m.putTransom (m.cdPart c) (m.tapOff c t (v.queued % max 1 (m.fld R.LVR_TAP_SLOTS [c, t]))) bs ps
  m.setCond c (x.setTap t { v with queued := v.queued + 1 })

/-- A tap credit comes back to the emit half. -/
def Mach.tapCredit (m : Mach) (c t n : Nat) : Mach :=
  let x := m.cond c
  let v := x.tap t
  (m.setCond c (x.setTap t { v with used := v.used - n })).cdDrained c

/-! ### Messages that a freeze holds back (R277) -/

/-- A message waits for the end of a freeze. -/
def Mach.cdHold (m : Mach) (c : Nat) (x : CdMsg) : Mach := m.setCond c { m.cond c with held := (m.cond c).held ++ [x] }
/-- A conduit runs again: what waited takes effect in its order. -/
def Mach.cdUnhold (m : Mach) (c : Nat) : Mach :=
  let l := (m.cond c).held
  l.foldl (fun m x =>
    match x with
    | .tap t bs ps => m.tapIn c t bs ps
    | .credit t n => m.tapCredit c t n
    | .reply r => if m.cdState c = cdOpening then m.peerReply c r else m.peerAsks c r
    | .reset => m.cdClose c lvOk) (m.setCond c { m.cond c with held := [] })

/-! ### Pace (R280) -/

/-- A complete student row of the loss half has no record (R280): the records held go to the oldest rows. -/
def Cond.rowWaits (x : Cond) (queued : Nat) : Bool := (x.srows.drop (x.rbuf.length + queued)).any LRow.complete
/-- One tick of the pace counters of a conduit. -/
def Mach.cdPace (m : Mach) (c : Nat) : Mach :=
  let x := m.cond c
  let st := !x.ready.isEmpty && m.fld R.LVR_CSTATE_CREDITS [c] == 0
  let s1 := x.stall + b2n st
  let w1 := x.wait + b2n (x.rowWaits (m.fld R.LVR_CSTATE_QUEUED [c]))
  let m := m.setCond c { x with stall := s1 % 1024, wait := w1 % 1024 }
  (m.addSat R.LVR_CPACE_TEACHER_STALL [c] (s1 / 1024)).addSat R.LVR_CPACE_STUDENT_WAIT [c] (w1 / 1024)
/-- A credit that waited for the link of a remote conduit leaves. -/
def Mach.cdSendCredit (m : Mach) (c : Nat) : Mach :=
  let x := m.cond c
  if m.cdRemote c && (m.cdEmit c).isNone && x.crets != 0 && m.cdCanSend c then (m.setCond c { x with crets := x.crets - 1 }).cdSend c 0x33 [0] false else m
/-- One tick of a conduit: what a freeze or a link held back goes on, and the pace is counted; a RESET whose partition has no command started
takes effect (R226, R277). A frozen conduit stays as it is. -/
def Mach.cdTick (m : Mach) (c : Nat) : Mach :=
  let m := if (m.cond c).resetReq && !m.anyStarted (m.cdPart c) && !m.cdFrozen c then m.resetConduits (m.cdPart c) else m
  let m := if m.cdFrozen c then m else m.cdUnhold c
  if m.cdRuns c then ((if m.cdRemote c then m.cdPump c else m).cdSendCredit c).cdPace c else m

end Sys2Proof.Machine
end

