-- ==== Sys2Proof/Machine/Matrix.lean ====
section
/-! DEFINITION. The matrix engine (03): exact products, the K-group adder, the join order, stochastic joins, wide precision, split-K, the drain. -/

namespace Sys2Proof.Machine

/-- The passes of a wide-precision mode in join order (R129); one pass in native mode. -/
def mxPasses (mode : Nat) : List (Nat × Nat) :=
  if mode = 1 then [(0, 2), (1, 1), (2, 0), (0, 1), (1, 0), (0, 0)]
  else if mode = 2 then [(2, 2), (1, 2), (2, 1), (0, 2), (1, 1), (2, 0), (0, 1), (1, 0), (0, 0)]
  else if mode = 3 then [(0, 1), (1, 0), (0, 0)]
  else [(0, 0)]

/-- Whether a format pair runs in a mode (R100). -/
def mxPairOk (w : Word) : Bool :=
  if mxMode w = 0 then (mxA w == 1 && mxB w == 1) || (decide (2 ≤ mxA w ∧ mxA w ≤ 6) && decide (2 ≤ mxB w ∧ mxB w ≤ 6))
  else mxA w == 0 && mxB w == 0

/-- The checks of R104 and R116 on an MXC word. -/
def Mach.mxOk (m : Mach) (p : Nat) (w : Word) : Bool :=
  decide (mxA w ≤ 6) && decide (mxB w ≤ 6) && decide (mxShape w ≤ 3) && decide (mxSplit w ≤ 4) && !bitAt w.toNat 16 && mxG w != 0 &&
  mxPairOk w && (mxSplit w == 0 || decide (mxShape w ≤ 1)) && decide (mxSlice w < mxP w) &&
  (mxCrec w == 0xFFFFFF || (m.crecKey p w).isSome) && mxCount w != 0

/-- Cycles per K-group and half (R100). -/
def mxCycles (w : Word) : Nat := if mxA w ≤ 1 then 128 else if mxA w = 6 ∧ mxB w = 6 then 16 else 32
/-- The duration of R101. D (R126) is 128 for shapes 2 and 3; for shapes 0 and 1 it is 0 where the next command of the queue, known when
this one starts, carries the run on, and 64 where this one is its last (log entry 11). -/
def mxBound (w : Word) (more : Bool) : Nat :=
  let h := if mxShape w ≤ 1 then 1 else 2
  h * ((mxPasses (mxMode w)).length * mxCount w) * mxCycles w + (if mxShape w ≤ 1 then (if more then 0 else 64) else 128)

/-! ### The K-group adder (R105 to R111) -/

/-- The group sum of the products of one K-group, and the products it truncates. -/
def groupSum (ps : List Fp) : Fp × Nat :=
  let fin := ps.filter (fun x => x.finite && !x.isZero)
  let emax := (fin.map Fp.expo).foldl max (-100000)
  let inWin := fin.filter (fun x => decide (emax - 30 ≤ x.expo))
  let trunc := fin.length - inWin.length
  let pos := ps.any (fun x => x == .inf false)
  let negi := ps.any (fun x => x == .inf true)
  if ps.any (fun x => x == .nan) then (.nan, trunc)
  else if pos && negi then (.nan, trunc)
  else if pos then (.inf false, trunc)
  else if negi then (.inf true, trunc)
  else
    let s := inWin.foldl Fp.addExact .zero
    (if s.isZero then .zero else s, trunc)

/-! ### Joins (R112 to R115, R119, R121) -/

/-- One join: the exact sum rounded once to FP32, and whether it overflowed from finite operands (R114). -/
def join (mode : RMode) (a b : Fp) : Fp × Nat :=
  let r := round32 mode (a.addExact b)
  (r, b2n (a.finite && b.finite && !r.finite))

/-- The random word of a join: a = 1 for the accumulator joins of shape 0x1 (R121). -/
def joinMode (sround : Bool) (seed : Word) (a e j : Nat) : RMode :=
  if sround then .stochastic (rng16 seed 2 (a * 2 ^ 40 + e * 2 ^ 20 + j)) else .nearest

/-- The running sum over a join sequence of (global index, group sum): shapes 0x0, 0x2, 0x3 (R113). -/
def joinAll (sround : Bool) (seed : Word) (e : Nat) (acc : Fp × Nat) (l : List (Nat × Fp)) : Fp × Nat :=
  l.foldl (fun a s =>
    let (r, o) := join (joinMode sround seed 0 e s.1) a.1 s.2
    (r, a.2 + o)) acc

/-- The running sum of shape 0x1: pair sums, then their joins (R113). -/
def joinPairs (sround : Bool) (seed : Word) (e : Nat) : Fp × Nat → List (Nat × Fp) → Fp × Nat
  | acc, [] => acc
  | acc, [s] =>
    let (t, o1) := join (joinMode sround seed 0 e s.1) .zero s.2
    let (r, o2) := join (joinMode sround seed 1 e s.1) acc.1 t
    (r, acc.2 + o1 + o2)
  | acc, s :: s' :: l =>
    let (t, o1) := join (joinMode sround seed 0 e s.1) s.2 s'.2
    let (r, o2) := join (joinMode sround seed 1 e s.1) acc.1 t
    joinPairs sround seed e (r, acc.2 + o1 + o2) l

/-- A piece of an FP32 operand (R128). -/
def piece (i : Nat) (x : Fp) : Fp :=
  let x0 := rtzBf16 x
  if i = 0 then x0
  else
    let r1 := x.addExact x0.neg
    let x1 := rtzBf16 (round32 .toZero r1)
    if i = 1 then x1 else rtzBf16 (round32 .toZero (r1.addExact x1.neg))

/-- The result of one output element over its row of A and row of B: value before the drain, truncations, overflows. -/
def mxElement (w seed : Word) (e : Nat) (a b : List Fp) : Fp × Nat × Nat :=
  let full := (a.zip b).map (fun p => p.1.mulExact p.2)
  let special := mxMode w != 0 && full.any (fun x => !x.finite)
  let n := mxCount w
  let seqs := ((mxPasses (mxMode w)).zipIdx).flatMap (fun ps =>
    let ab := if mxMode w = 0 then full
              else (a.zip b).map (fun p => (piece ps.1.1 p.1).mulExact (piece ps.1.2 p.2))
    (List.range n).map (fun g => (ps.2 * mxG w + (mxFirst w + g), groupSum ((ab.drop (32 * g)).take 32))))
  let trunc := (seqs.map (fun s => s.2.2)).sum
  let l := seqs.map (fun s => (s.1, s.2.1))
  if special then ((groupSum full).1, 0, 0)
  else
    let (r, o) := if mxShape w = 1 then joinPairs (mxSround w) seed e (.zero, 0) l else joinAll (mxSround w) seed e (.zero, 0) l
    (r, trunc, o)

/-- The drain of one element (R123, R124): scaled, the addend added, with overflow, flush and non-finite counts. Under a COARSE that is no power
of two the product is not exact; the model rounds it once to nearest even, its own choice (log entry 64). -/
def drainElement (s acc : Fp) (addend : Option Fp) : Fp × Nat × Nat × Nat :=
  let y := round32 .nearest (acc.mulExact s)
  let o1 := b2n (acc.finite && !y.finite)
  let fl := b2n (acc.finite && !acc.isZero && y.isZero)
  match addend with
  | none => (y, o1, fl, b2n (!y.finite))
  | some c =>
    let z := round32 .nearest (y.addExact c)
    (z, o1 + b2n (y.finite && c.finite && !z.finite), fl, b2n (!z.finite))

/-- Rows of a list. -/
def nthRow (xs : List Fp) (len i : Nat) : List Fp := (xs.drop (i * len)).take len

/-- A matrix command computed: its checks (R104, R160, R102), its operands, its joins and its drain. How A and B lie in memory, and that each
slice of a split tile has tensors of its own with rows as long as its share of K, is the model's choice (log entry 65); so are the order of
the checks where several fail (log entry 80), and ADDR_RANGE for a D with an ATOP, which only copies and vector commands select (R395, log
entry 79). -/
def Mach.mxStart (m : Mach) (pane : Nat) (q : QCmd) : Except Nat Mach :=
  let w := q.desc.w5
  let needC := mxAddend w || mxSplit w != 0
  let more := ((m.pane pane).mq.head?.map QCmd.oneBank).getD false
  if !(q.desc.wellFormed && tokenOk q.desc.wait && tokenOk q.desc.signal) then .error cDescInvalid
  else if !(refOk [0, 1] q.a && refOk [0, 1] q.b && refOk [0, 1] q.c && refOk [0, 1, 5] q.d) then .error cDescInvalid
  else if q.a.isNone || q.b.isNone || q.d.isNone || (needC && q.c.isNone) then .error cMxInvalid
  else if !m.mxOk q.part w then .error cMxInvalid
  else if m.cvtCheck q.part q.cvt ≠ cOk then .error (m.cvtCheck q.part q.cvt)
  else if m.tooLong pane (mxBound w more) then .error cMxTooLong
  else
    let k := 32 * mxCount w
    let rows := mxRows w
    let cols := mxCols w
    let cAddr := q.c.getD 0
    let slotOk := mxSplit w == 0 || (adSpace cAddr == 1 && (m.segs q.part (some pane) true cAddr (mxSlotBytes w)).isSome)
    let atop := q.d.any (fun d => adSpace d == 1 && adAtop d != 0)
    let dest := if atop then cAddrRange else if mxSplit w = 0 ∨ mxSlice w = 0 then m.destCheck pane q rows ((dstFmt q.cvt).tensorBytes rows cols) else cOk
    if !slotOk then .error (if adSpace cAddr = 1 then cAddrRange else cDescInvalid)
    else if dest ≠ cOk then .error dest
    else match m.tensor q.part pane (q.a.getD 0) (mxA w) rows k, m.tensor q.part pane (q.b.getD 0) (mxB w) cols k with
      | .error e, _ => .error e
      | _, .error e => .error e
      | .ok a, .ok b =>
        let addT := if mxAddend w ∧ mxSplit w = 0 then m.tensor q.part pane cAddr 0 rows cols else .ok { coarse := .pow2 0, vals := [], poisoned := false }
        match addT with
        | .error e => .error e
        | .ok c =>
          let s := a.coarse.mulExact b.coarse
          let es := (List.range (rows * cols)).map (fun e =>
            let (acc, tr, o) := mxElement w q.seed e (nthRow a.vals k (e / cols)) (nthRow b.vals k (e % cols))
            let (y, o2, fl, nf) := drainElement s acc (if c.vals.isEmpty then none else c.vals[e]?)
            (toF32 y, tr, o + o2, fl, nf))
          let r := Run.fresh q (mxBound w more) (es.map (fun x => x.1)) cols (a.poisoned || b.poisoned || c.poisoned)
          let r := { r with trunc := (es.map (fun x => x.2.1)).sum, ovf := (es.map (fun x => x.2.2.1)).sum,
                            flush := (es.map (fun x => x.2.2.2.1)).sum, nonfinite := (es.map (fun x => x.2.2.2.2)).sum }
          let p := m.pane pane
          .ok (m.setPane pane { p with mrun := some r, mdrain := p.front })

/-- Whether the head of a queue is held under R77. -/
def Mach.headDelayed (m : Mach) (pane : Nat) (e : EngineId) : Bool :=
  match (m.pane pane).queue e with
  | [] => false
  | q :: _ => m.cvtWaits q.part q.cvt q.desc.step

/-- MATRIX (R101, R163): the head of the matrix queue starts, after its checks. -/
def Mach.matrixStart (m : Mach) (pane : Nat) : Mach :=
  if m.headDelayed pane .matrix || m.headTested pane .matrix then m else m.startHead pane .matrix (fun m q => m.orCut pane q (m.mxStart pane q))

/-- A slice drains into its reduction slot (R116, R118, R398, R142). -/
def Mach.sliceArrives (m : Mach) (pane : Nat) (r : Run) : Mach :=
  let q := r.cmd
  let w := q.desc.w5
  let mine := mxSlice w
  let mxc := BitVec.ofNat 64 (putBits w.toNat 22 19 0)
  match m.slotKey q.part q.slotAddr 0, m.segs q.part none true (adPlus q.slotAddr (64 + 16384 * mine)) 16384 with
  | some k, some l =>
    let st := m.loadLe (k + 10) 1
    let arrived := m.loadLe (k + 8) 2
    let counts : MxCounts := ⟨r.trunc, 0, r.ovf, r.flush⟩
    if st = 1 ∨ st = 2 then m.finish pane q cMxSplitAbort false [] 0
    else if st ≠ 0 then m.finish pane q cMxInvalid false [] 0
    else if arrived ≠ 0 ∧ m.loadLe k 4 ≠ q.desc.step then m.finish pane q cMxInvalid false [] 0
    else if arrived ≠ 0 ∧ (m.loadLe (k + 16) 8 ≠ mxc.toNat ∨ m.loadLe (k + 24) 8 ≠ q.seed.toNat) then
      let m := m.storeLe (k + 10) 1 3
      let m := m.finish pane q cMxInvalid false [] 0
      m.endTile q.part q.slotAddr q.desc.step cMxInvalid cMxInvalid
    else if bitAt arrived mine then m.failCmd pane q cMxInvalid
    else
      let m := if arrived = 0 then
                 (((m.storeLe k 4 q.desc.step).storeLe (k + 4) 1 (mxP w)).storeLe (k + 16) 8 mxc.toNat).storeLe (k + 24) 8 q.seed.toNat
               else m
      let m := (chunksOf l (packElems 32 r.vals) r.poisoned).foldl (fun m c => m.putChunk c) m
      let m := m.storeLe (k + 8) 2 (arrived ||| 2 ^ mine)
      let m := m.addMx pane (m.crecKey q.part w) counts
      let p := m.pane pane
      let m := m.setPane pane { p with split := p.split ++ [{ r with drained := true }] }
      let m := m.clearMem pane q
      if m.slotFull r && !m.zeroDrained q then m.abandonTile q.part q.slotAddr q.desc.step else m
  | _, _ => m.failCmd pane q cAddrRange

/-- MATRIX_DRAIN (R123 to R126): the older of the commands in flight drains; its tile is written, waits for its common maximum, or lands in its slot. -/
def Mach.matrixDrained (m : Mach) (pane : Nat) : Mach :=
  let p := m.pane pane
  match p.front with
  | none => m
  | some r =>
    if r.drained || m.core.stopped.contains pane || m.memTested pane r.cmd then m
    else if r.cmd.isSplit then (m.setPane pane (p.setFront none)).sliceArrives pane r
    else if r.needsMax then m.setPane pane (p.setFront (some { r with drained := true }))
    else (m.setPane pane (p.setFront none)).completeRun pane r

/-- One level of the split-K tree with its overflows (R117). -/
def pairJoin : List (Fp × Nat) → List (Fp × Nat)
  | a :: b :: l =>
    let (r, o) := join .nearest a.1 b.1
    (r, a.2 + b.2 + o) :: pairJoin l
  | l => l

/-- The tree over the partials of one element, then the addend (R117): value and overflows. -/
def splitTree (qs : List Fp) (addend : Option Fp) : Fp × Nat :=
  let (y, o) := ((List.range 4).foldl (fun l _ => pairJoin l) (qs.map (fun q => (q, 0)))).headD (.zero, 0)
  match addend with
  | none => (y, o)
  | some c =>
    let (z, o2) := join .nearest y c
    (z, o + o2)

/-! ### Slices whose destination or slot overlaps another slice's operands (R139) -/

/-- Whether two lists of pieces of memory meet. -/
def segsMeet (a b : List (Nat × Nat)) : Bool := a.any (fun x => b.any (fun y => decide (x.1 < y.1 + y.2) && decide (y.1 < x.1 + x.2)))
/-- The pieces of memory that row i of an operand tensor takes, its header included. -/
def Mach.rowSegs (m : Mach) (p pane : Nat) (w : Word) (code len i : Nat) : List (Nat × Nat) :=
  let at_ (o n : Nat) : List (Nat × Nat) := (m.segs p (some pane) false (adPlus w o) n).getD []
  match fmtOf code with
  | none => []
  | some f =>
    let n := f.elemBytes 1 len
    if f.block = 0 then at_ (i * n) n
    else at_ 0 64 ++ at_ (64 + i * n) n ++ at_ (leAt (m.readSegs (at_ 0 64)) 8 8 + i * f.blocks 1 len) (f.blocks 1 len)
/-- Where a slice writes: its destination, over a route too, and the reduction slot of its tile. -/
def Mach.sliceWrites (m : Mach) (pane : Nat) (q : QCmd) : List (Nat × Nat) :=
  let w := q.desc.w5
  let n := (dstFmt q.cvt).tensorBytes (mxRows w) (mxCols w)
  let dest := match q.d with
    | none => []
    | some d =>
      if adSpace d = 4 then (match m.conf.cfg.route (adRoute d) with
        | some e => if routeDst e < 4096 then [(paneKey (routeDst e) (adOffset d), n)] else []
        | none => [])
      else (m.segs q.part (some pane) true d n).getD []
  dest ++ (m.segs q.part none false q.slotAddr (64 + 16384 * (mxP w + b2n (mxAddend w)))).getD []
/-- The drained slices of the tile that a slice belongs to, each with its pane. -/
def Mach.tileRuns (m : Mach) (q : QCmd) : List (Nat × QCmd) :=
  (m.conf.cfg.panes q.part).flatMap (fun n => ((m.pane n).split.filter (fun x => x.cmd.ofTile q.part q.slotAddr q.desc.step)).map (fun x => (n, x.cmd)))
/-- The rows and the columns of the tile whose elements R139 leaves undefined: those computed from a row of A, or of B, that the destination
or the slot of another slice of the tile overlaps. -/
def Mach.tileClash (m : Mach) (q : QCmd) : List Nat × List Nat :=
  let l := m.tileRuns q
  let hit (ref : QCmd → Option Word) (code : Word → Nat) (i : Nat) : Bool := l.any (fun x =>
    match ref x.2 with
    | none => false
    | some w =>
      let mine := m.rowSegs x.2.part x.1 w (code x.2.desc.w5) (32 * mxCount x.2.desc.w5) i
      l.any (fun y => mxSlice y.2.desc.w5 != mxSlice x.2.desc.w5 && segsMeet mine (m.sliceWrites y.1 y.2)))
  ((List.range (mxRows q.desc.w5)).filter (hit (fun x => x.a) mxA), (List.range (mxCols q.desc.w5)).filter (hit (fun x => x.b) mxB))

/-- A reduced tile is written and its slices complete (R117, R142, R398). A SIGNAL token without room fails its slices with TOKEN_OVERFLOW
(R164), and the tile is abandoned, nothing of it written. r is slice 0's run as it waits, r' the same with the reduced tile. -/
def Mach.tileWritten (m : Mach) (pane k : Nat) (r r' : Run) : Mach :=
  let q := r'.cmd
  let w := q.desc.w5
  let sig := m.tileSignals q.part q.slotAddr q.desc.step
  if sig.any (fun x => m.tokenSpills sig x.1 x.2) then
    (m.storeLe (k + 10) 1 2).endTileBy q.part q.slotAddr q.desc.step (fun n c => if m.tokenSpills sig n c.desc.signal then cTokenOverflow else cMxSplitAbort)
      [] 0
  else
    let s := m.runScale r'
    let (bs, c) := m.runBytes r'
    let m := m.writeResult pane r' bs
    let m := m.updateRecord q.part q.cvt q.desc.step s r'.localMax c
    let m := if q.cvt = 0 then m else m.addPaneCvt pane c
    let m := m.addMx pane (m.crecKey q.part w) ⟨0, r'.nonfinite, r'.ovf, 0⟩
    let m := m.storeLe (k + 10) 1 1
    let m := m.clearMem pane q
    let p := m.pane pane
    let m := m.setPane pane { p with split := p.split.map (fun x => if x = r then r' else x) }
    m.endTileBy q.part q.slotAddr q.desc.step (fun _ _ => cOk) (outCodes q.cvt r'.rows r'.width bs) c.sat

/-- SPLITK_REDUCTION (R117, R398, R142): the slot whose slice 0 drained on this pane is reduced once all P bits of
ARRIVED are set; every slice of the tile completes. An element that R139 leaves undefined is a free value (log entry 2). -/
def Mach.splitReduced (m : Mach) (pane : Nat) : Mach :=
  let ready (r : Run) : Bool :=
    mxSlice r.cmd.desc.w5 == 0 && !r.reduced &&
    (match m.slotKey r.cmd.part r.cmd.slotAddr 0 with
     | some k => m.loadLe (k + 10) 1 == 0 && decide (m.loadLe (k + 8) 2 % 2 ^ mxP r.cmd.desc.w5 = 2 ^ mxP r.cmd.desc.w5 - 1)
     | none => false)
  if m.core.stopped.contains pane then m else
  match (m.pane pane).split.find? ready with
  | none => m
  | some r =>
    if m.memTested pane r.cmd then m else
    let q := r.cmd
    let w := q.desc.w5
    let n := mxRows w * mxCols w
    let part (s : Nat) : List Byte := match m.segs q.part none false (adPlus q.slotAddr (64 + 16384 * s)) 16384 with
      | some l => m.readSegs l
      | none => List.replicate 16384 0
    let poisoned := match m.segs q.part none false (adPlus q.slotAddr 64) (16384 * (mxP w + b2n (mxAddend w))) with
      | some l => m.segsPoisoned l
      | none => false
    let ps := (List.range (mxP w)).map part
    let ad := part (mxP w)
    let clash := m.tileClash q
    let open_ (e : Nat) : Bool := clash.1.contains (e / mxCols w) || clash.2.contains (e % mxCols w)
    let es := (List.range n).map (fun e =>
      if open_ e then
        let v := (Config.freeWord (m.freeCtr + e)).toNat
        (f32 (v % 2 ^ 32), v / 2 ^ 32 % (mxP w + 1))
      else splitTree (ps.map (fun b => f32 (leAt b (4 * e) 4))) (if mxAddend w then some (f32 (leAt ad (4 * e) 4)) else none))
    let m := { m with freeCtr := m.freeCtr + n }
    let vals := es.map (fun x => toF32 x.1)
    let nf := (es.filter (fun x => !x.1.finite)).length
    let r' := { r with vals := vals, poisoned := r.poisoned || poisoned, ovf := (es.map (fun (x : Fp × Nat) => x.2)).sum, nonfinite := nf }
    let code := m.destCheck pane q (mxRows w) ((dstFmt q.cvt).tensorBytes (mxRows w) (mxCols w))
    match m.slotKey q.part q.slotAddr 0 with
    | none => m
    | some k =>
      if code ≠ cOk then (m.storeLe (k + 10) 1 2).endTile q.part q.slotAddr q.desc.step cMxSplitAbort code
      else if r'.needsMax then
        let p := m.pane pane
        m.setPane pane { p with split := p.split.map (fun x => if x = r then { r' with reduced := true } else x) }
      else m.tileWritten pane k r r'

/-! ### CURRENT reductions (R71, R96) -/

/-- The run of a pane whose conversion waits for the common maximum: a drained matrix command, a reduced tile, or a vector command. -/
def Mach.awaiting (m : Mach) (c : PaneId × EngineId) : Option Run :=
  let p := m.pane c.1.val
  match c.2 with
  | .matrix => (p.front.toList ++ p.split).find? (fun r => r.needsMax && (if r.cmd.isSplit then r.reduced else r.drained))
  | .vector => p.vrun.filter (fun r => r.needsMax)
  | .copy => none
/-- The common maximum given to one command, which then goes on: a matrix command or a tile completes, a vector command sends over its
route or waits for its completion. -/
def Mach.giveMax (m : Mach) (a : Nat) (c : PaneId × EngineId) : Mach :=
  match m.awaiting c with
  | none => m
  | some r =>
    let pane := c.1.val
    let r' := { r with amax := some a }
    if c.2 = .vector then
      let m := m.setPane pane { m.pane pane with vrun := some r' }
      if r.cmd.overRoute then m.sendResult pane r' else m
    else if r.cmd.isSplit then
      match m.slotKey r.cmd.part r.cmd.slotAddr 0 with
      | none => m
      | some k => m.tileWritten pane k r r'
    else (m.setPane pane ((m.pane pane).setFront none)).completeRun pane r'
/-- The contexts of a partition that hold a part of the command of a run and have not reached the reduction yet. -/
def Mach.partsLeft (m : Mach) (r : Run) (cs : List (PaneId × EngineId)) : Bool :=
  (m.conf.cfg.panes r.cmd.part).any (fun n =>
    let p := m.pane n
    !cs.any (fun c => c.1.val == n) &&
    (p.mq ++ p.vq ++ (p.mruns ++ p.vrun.toList ++ p.split).map (fun x => x.cmd)).any (fun q => q.partOf r.cmd && (!q.isSplit || q.isSlice0)))
/-- CURRENT_REDUCTION_DONE (R71, R96): every named pane waits with its part of one command, and no other pane of the partition holds a part
of it; all get the largest of their maxima. Which contexts make up one command is the model's choice (log entry 57). -/
def Mach.currentDone (m : Mach) (cs : List (PaneId × EngineId)) : Mach :=
  let runs := cs.filterMap m.awaiting
  if cs.any (fun c => m.core.stopped.contains c.1.val || (m.awaiting c).any (fun r => m.memTested c.1.val r.cmd)) then m else
  match runs with
  | [] => m
  | r0 :: _ =>
    if runs.length = cs.length &&
       runs.all (fun r => r.cmd.partOf r0.cmd) && !m.partsLeft r0 cs
    then
      let a := toF32 ((runs.map Run.localMax).foldl Fp.max .zero)
      cs.foldl (fun m c => m.giveMax a c) m
    else m

/-! ### Meanings -/

/-- MATRIX (R101). -/
def execMatrix (pane : PaneId) (s : State) : Res := s.withM (s.m.matrixStart pane)
/-- MATRIX_DRAIN (R123). -/
def execMatrixDrain (pane : PaneId) (s : State) : Res := s.withM (s.m.matrixDrained pane)
/-- SPLITK_REDUCTION (R117). -/
def execSplitkReduction (pane : PaneId) (s : State) : Res := s.withM (s.m.splitReduced pane)
/-- CURRENT_REDUCTION_DONE (R96). -/
def execCurrentReductionDone (cmds : List (PaneId × EngineId)) (s : State) : Res := s.withM (s.m.currentDone cmds)

end Sys2Proof.Machine
end

