-- ==== Sys2Proof/Machine/VecInv.lean ====
section
/-! DEFINITION. The small-matrix inverse and inverse root (R177 to R179): Cholesky with shifts, forward substitution, the diagonal rule. -/

namespace Sys2Proof.Machine

/-- A square block by rows. -/
abbrev Block := List (List Fp)

/-- Element (i, j) of a block. -/
def Block.at (b : Block) (i j : Nat) : Fp := (b.getD i []).getD j .zero

/-- A dot product in the order of R171 with fused multiply-adds; +0 for length 0 (R178). -/
def dot (xs ys : List Fp) : Fp :=
  let ps := xs.zip ys
  tree128 Fp.add ((List.range 128).map (fun l =>
    ((List.range ((ps.length + 127 - l) / 128)).map (fun k => ps.getD (k * 128 + l) (.zero, .zero))).foldl
      (fun acc p => p.1.fma p.2 acc) .zero))

/-- Whether a value is below another, or is not a finite number (R178). -/
def badPivot (pivot tau : Fp) : Bool := !pivot.finite || pivot.lt tau

/-- Column j of the factorisation (R178): the rows of L so far, each row holding its first columns. -/
def cholColumn (a : Block) (n : Nat) (eps tau : Fp) (l : Block) (j : Nat) : Option Block :=
  let lj := l.getD j []
  let d := (a.at j j).add eps
  let pivot := d.sub (dot lj lj)
  if badPivot pivot tau then none
  else
    let p := pivot.sqrt
    some ((l.zipIdx).map (fun ri =>
      if ri.2 < j ∨ n ≤ ri.2 then ri.1
      else if ri.2 = j then ri.1 ++ [p]
      else ri.1 ++ [((a.at ri.2 j).sub (dot ri.1 lj)).div p]))

/-- One try of the factorisation with a shift (R178). -/
def cholTry (a : Block) (n : Nat) (eps tau : Fp) : Option Block :=
  (List.range n).foldl (fun l j => l.bind (fun l => cholColumn a n eps tau l j)) (some (List.replicate n []))

/-- Column c of W = L⁻¹, from row c down (R178). -/
def invColumn (l : Block) (n c : Nat) : List Fp :=
  (List.range (n - c - 1)).foldl (fun w k =>
    let i := c + 1 + k
    w ++ [((dot (((l.getD i []).drop c).take (i - c)) w).div (l.at i i)).neg]) [(Fp.ofNat 1).div (l.at c c)]

/-- W by columns, each with its leading zeros. -/
def invColumns (l : Block) (n : Nat) : List (List Fp) :=
  (List.range n).map (fun c => List.replicate c .zero ++ invColumn l n c)

/-- The block INVROOT writes: W by rows (R178). -/
def wRows (cols : List (List Fp)) (n : Nat) : Block :=
  (List.range n).map (fun i => (List.range n).map (fun c => (cols.getD c []).getD i .zero))

/-- The block INV writes: Wᵀ W (R178). -/
def wtw (cols : List (List Fp)) (n : Nat) : Block :=
  (List.range n).map (fun i => (List.range n).map (fun j =>
    let h := if i < j then j else i
    dot ((cols.getD h []).drop h) ((cols.getD (if i < j then i else j) []).drop h)))

/-- What one block comes to: its rows, the shifted tries, whether it fell back, whether it was NaN. -/
structure InvOut where
  rows : Block
  tries : Nat
  fell : Bool
  nan : Bool
deriving DecidableEq, Repr

/-- One block of INV or INVROOT (R177 to R179). -/
def invBlock (root : Bool) (n : Nat) (pivotRel eps0Rel : Fp) (a : Block) : InvOut :=
  let low := (List.range n).flatMap (fun i => (List.range (i + 1)).map (fun j => a.at i j))
  if low.any (fun x => !x.finite) then { rows := List.replicate n (List.replicate n .nan), tries := 0, fell := false, nan := true }
  else
    let diag := (List.range n).map (fun i => a.at i i)
    let pr := if pivotRel.isZero then .pow2 (-20) else pivotRel
    let er := if eps0Rel.isZero then .pow2 (-16) else eps0Rel
    let t := (rowSum diag).div (Fp.ofNat n)
    let e0 := if Fp.zero.lt t then er.mul t else er
    let top := (diag.foldl Fp.max (.inf true)).max e0
    let tau := pr.mul top
    let shifts := [Fp.zero, e0, e0.mul (Fp.ofNat 2), e0.mul (Fp.ofNat 4), e0.mul (Fp.ofNat 8)]
    let found := (shifts.zipIdx).findSome? (fun s => (cholTry a n s.1 tau).map (fun l => (l, s.2)))
    match found with
    | some (l, t) =>
      let cols := invColumns l n
      { rows := if root then wRows cols n else wtw cols n, tries := t, fell := false, nan := false }
    | none =>
      let e8 := e0.mul (Fp.ofNat 8)
      let m (i : Nat) : Fp :=
        let x := ((a.at i i).max .zero).add e8
        if root then approxFp 0x0D x else approxFp 0x0C x
      { rows := (List.range n).map (fun i => (List.range n).map (fun j => if i = j then m i else .zero)),
        tries := 4, fell := true, nan := false }

end Sys2Proof.Machine
end

