-- ==== Sys2Proof/Machine/Vector.lean ====
section
/-! DEFINITION. The vector engine (04, R168 to R180): the VXC word, its checks and bound, element, row and small-matrix operations, completion, and the start of a delayed conversion. -/

namespace Sys2Proof.Machine

/-- The per-block bound of R178: five factorisations and one completion. -/
def invBound (root : Bool) (n : Nat) : Nat :=
  5 * ceilDiv (n ^ 3 * 55000) (256 ^ 3) + ceilDiv (n ^ 3 * (if root then 26984 else 50984)) (256 ^ 3)

/-- The declared bound of R174. -/
def vxBound (w : Word) : Nat :=
  match vxCost (vxOp w) with
  | some (per, row) => 16 + vxRows w * (ceilDiv (vxLen w) 128 * per + row)
  | none => 16 + vxRows w * invBound (vxOp w == 0x41) (vxLen w)

/-- The checks of R175 that need no memory: VX_INVALID where this is false. -/
def vxOk (q : QCmd) : Bool :=
  let w := q.desc.w5
  let op := vxOp w
  vxKnown op && decide (vxA w ≤ 6) && decide (vxB w ≤ 6) && vxLen w != 0 && vxRows w != 0 && q.a.isSome && q.d.isSome &&
  (!vxUsesB op || q.b.isSome) && (!vxUsesC op || q.c.isSome) && !((q.a.map adSpace) == some 5 && vxA w != 0) &&
  !(op == 0x30 && vxB w != 0) && !(vxInv op && decide (256 < vxLen w))

/-- Whether a parameter block passes R175. -/
def vxParamsOk (blk : List Byte) : Bool :=
  let okRel (c : Nat) : Bool := (f32 c).finite && !(f32 c).lt .zero
  okRel (leAt blk 0 4) && okRel (leAt blk 4 4) && (blk.drop 16).all (fun b => b == 0) &&
  adSpace (vxFallback blk) == 1 && adRoute (vxFallback blk) == 0 && adOffset (vxFallback blk) % 8 == 0

/-! ### Row operations (R171, R176) -/

/-- SOFTMAX and LOGSUMEXP of a row x already scaled (R176). -/
def softRow (bad : Bool) (x : List Fp) : List Fp × Fp :=
  if bad || x.any (fun v => v == .nan || v == .inf false) then (x.map (fun _ => .nan), .nan)
  else
    let m := rowMax x
    if m = .inf true then (x.map (fun _ => .zero), .inf true)
    else
      let e := x.map (fun v => (v.sub m).exp)
      let s := rowSum e
      (e.map (fun v => v.div s), m.add s.ln)

/-- Whether a row holds a NaN or +∞ (R176). -/
def rowBad (a : List Fp) : Bool := a.any (fun v => v == .nan || v == .inf false)

/-- RMSNORM of a row (R173, R176): the product, then the quotient, each rounded (log entry 12). -/
def rmsRow (param : Nat) (a b : List Fp) : List Fp :=
  let d := (((rowSumSq a).div (Fp.ofNat a.length)).add (.pow2 (-(param : Int)))).sqrt
  (a.zip b).map (fun p => (p.1.mul p.2).div d)

/-- LAYERNORM of a row, gain and bias interleaved in b (R173, R176; log entry 12). -/
def layerRow (param : Nat) (a b : List Fp) : List Fp :=
  let n := Fp.ofNat a.length
  let mu := (rowSum a).div n
  let dx := a.map (fun v => v.sub mu)
  let d := (((rowSumSq dx).div n).add (.pow2 (-(param : Int)))).sqrt
  (dx.zipIdx).map (fun p => ((p.1.mul (b.getD (2 * p.2) .zero)).div d).add (b.getD (2 * p.2 + 1) .zero))

/-- XENT of a row and its label (R176): loss, gradient, and 1 for a label out of range. -/
def xentRow (a : List Fp) (label : Nat) : Fp × List Fp × Nat :=
  if label = 0xFFFFFFFF then (.zero, a.map (fun _ => .zero), 0)
  else if a.length ≤ label then (.zero, a.map (fun _ => .zero), 1)
  else
    let (p, l) := softRow false a
    (l.sub (a.getD label .zero), (p.zipIdx).map (fun v => if v.2 = label then v.1.sub (Fp.ofNat 1) else v.1), 0)

/-- What a vector command computes: results, second output, labels out of range, tries, fall-back, NaN blocks. -/
structure VxOut where
  vals : List Fp
  second : List Fp
  badLabels : Nat
  tries : Nat
  fell : Bool
  nanBlocks : Nat
deriving DecidableEq, Repr

/-- Results alone. -/
def VxOut.of (l : List Fp) : VxOut := { vals := l, second := [], badLabels := 0, tries := 0, fell := false, nanBlocks := 0 }

/-- The operations on one element (R169, R170). -/
def vxUnary (op : Nat) (x : Fp) : Fp := if op = 0x0E then x.sqrt else if op = 0x08 then x.exp else approxFp op x

/-- The results of an operation (R173): rows of len elements in a; b, c the other operands, p the parameter block. -/
def vxCompute (op rows len param : Nat) (a b c : List Fp) (labels : List Nat) (p : List Fp) : VxOut :=
  let row (xs : List Fp) (n i : Nat) : List Fp := nthRow xs n i
  let each (f : Nat → List Fp) : VxOut := .of ((List.range rows).flatMap f)
  let p0 := p.getD 0 .zero
  if op = 0x01 then .of ((a.zip b).map (fun x => x.1.add x.2))
  else if op = 0x02 then .of ((a.zip b).map (fun x => x.1.mul x.2))
  else if op = 0x03 then .of (((a.zip b).zip c).map (fun x => x.1.1.fma x.1.2 x.2))
  else if op = 0x04 then .of ((a.zip b).map (fun x => x.1.max x.2))
  else if op = 0x05 then .of ((a.zip b).map (fun x => x.1.min x.2))
  else if op = 0x06 then .of (a.map (fun x => x.fma p0 (p.getD 1 .zero)))
  else if op = 0x0F then .of ((a.zip b).map (fun x => x.1.div x.2))
  else if op = 0x20 then each (fun i => [rowSum (row a len i)])
  else if op = 0x21 then each (fun i => [rowMax (row a len i)])
  else if op = 0x22 then each (fun i => [rowSumSq (row a len i)])
  else if op = 0x28 then each (fun i => (softRow (rowBad (row a len i)) ((row a len i).map (fun x => x.mul p0))).1)
  else if op = 0x29 then each (fun i => [(softRow (rowBad (row a len i)) ((row a len i).map (fun x => x.mul p0))).2])
  else if op = 0x2A then each (fun i => rmsRow param (row a len i) (row b len i))
  else if op = 0x2B then each (fun i => layerRow param (row a len i) (row b (2 * len) i))
  else if op = 0x30 then
    let rs := (List.range rows).map (fun i => xentRow (row a len i) (labels.getD i 0))
    { VxOut.of (rs.map (fun r => r.1)) with second := rs.flatMap (fun r => r.2.1), badLabels := (rs.map (fun r => r.2.2)).sum }
  else if vxInv op then
    let bs := (List.range rows).map (fun k =>
      invBlock (op == 0x41) len p0 (p.getD 1 .zero) ((List.range len).map (fun i => row a len (k * len + i))))
    { vals := bs.flatMap (fun b => b.rows.flatten), second := [], badLabels := 0, tries := (bs.map (fun b => b.tries)).sum,
      fell := bs.any (fun b => b.fell), nanBlocks := (bs.filter (fun b => b.nan)).length }
  else .of (a.map (vxUnary op))

/-- Labels of XENT: one u32 per row (R173). -/
def labelsOf (n : Nat) (bs : List Byte) : List Nat := (List.range n).map (fun i => leAt bs (4 * i) 4)

/-- An operand that is decoded: values, counts of R82, poison. -/
def Mach.vxTensor (m : Mach) (q : QCmd) (pane : Nat) (w : Option Word) (code rows len : Nat) : Except Nat (List Fp × (Nat × Nat) × Bool) :=
  match w with
  | none => .ok ([], (0, 0), false)
  | some w =>
    match m.tensor q.part pane w code rows len with
    | .error e => .error e
    | .ok t => let (l, s, f) := t.decoded
               .ok (l, (s, f), t.poisoned)
/-- Element i of n × n blocks that follow one another lies in the lower triangle (R177). -/
def lowerElem (n i : Nat) : Bool := decide (i % n ≤ i / n % n)
/-- The blocks of INV and INVROOT in memory: of the upper triangle nothing is read (R177, R179). It stands as zeros here. -/
def Mach.invTensor (m : Mach) (q : QCmd) (pane : Nat) (w : Word) (rows len : Nat) : Except Nat (List Fp × (Nat × Nat) × Bool) :=
  match m.tensor q.part pane w (vxA q.desc.w5) rows len with
  | .error e => .error e
  | .ok t =>
    let t := { t with vals := t.vals.zipIdx.map (fun (v : Fp × Nat) => if lowerElem len v.2 then v.1 else .zero),
                      poisoned := m.rowsPoisoned q.part pane w (vxA q.desc.w5) rows len (fun i => i % len + 1) }
    let (l, s, f) := t.decoded
    .ok (l, (s, f), t.poisoned)

/-- A of a vector command: from the vector input queue (R165), or from memory; with the queue it leaves. -/
def Mach.vxOperandA (m : Mach) (q : QCmd) (pane rows len : Nat) : Except Nat (List Fp × (Nat × Nat) × Bool × List (Nat × Bool)) :=
  let vin := (m.pane pane).vin
  if (q.a.map adSpace) = some 5 then
    (if vin.length < rows * len then .error cVxInvalid
     else
       let l := vin.take (rows * len)
       let used := if vxInv (vxOp q.desc.w5) then (l.zipIdx.filter (fun (v : (Nat × Bool) × Nat) => lowerElem len v.2)).map (fun v => v.1) else l
       .ok (l.map (fun v => f32 v.1), (0, 0), used.any (fun v => v.2), vin.drop (rows * len)))
  else match if vxInv (vxOp q.desc.w5) then m.invTensor q pane (q.a.getD 0) rows len else m.vxTensor q pane q.a (vxA q.desc.w5) rows len with
    | .error e => .error e
    | .ok (l, c, p) => .ok (l, c, p, vin)

/-- A vector command computed: its checks (R160, R174, R175, R80), its operands, its results (R168, R173). -/
def Mach.vxStart (m : Mach) (pane : Nat) (q : QCmd) : Except Nat Mach :=
  let w := q.desc.w5
  let op := vxOp w
  let len := vxLen w
  let rows := vxInRows w
  if !(q.desc.wellFormed && tokenOk q.desc.wait && tokenOk q.desc.signal) then .error cDescInvalid
  else if !(refOk [0, 1, 5] q.a && refOk [0, 1] q.b && refOk [0, 1] q.c && refOk [0, 1, 4] q.d) then .error cDescInvalid
  else if !vxOk q then .error cVxInvalid
  else if m.cvtCheck q.part q.cvt ≠ cOk then .error (m.cvtCheck q.part q.cvt)
  else if m.tooLong pane (vxBound w) then .error cVxTooLong
  else
    let outLen := vxOutLen w
    let b := if op = 0x30 ∨ !vxUsesB op then none else q.b
    let c := if op = 0x03 then q.c else none
    let blkR := if vxBlock op then m.fetch q.part pane (q.c.getD 0) 64 else .ok ([], false)
    let labR := if op = 0x30 then m.fetch q.part pane (q.b.getD 0) (4 * rows) else .ok ([], false)
    let gradOk := !(op == 0x30) || q.c.isNone || (m.destSegs q.part pane (q.c.getD 0) (4 * rows * len) false).toOption.isSome
    let dest := m.destCheck pane q rows ((dstFmt q.cvt).tensorBytes rows outLen)
    match m.vxOperandA q pane rows len, m.vxTensor q pane b (vxB w) rows (if op = 0x2B then 2 * len else len), m.vxTensor q pane c 0 rows len, blkR, labR with
    | .error e, _, _, _, _ => .error e
    | _, .error e, _, _, _ => .error e
    | _, _, .error e, _, _ => .error e
    | _, _, _, .error e, _ => .error e
    | _, _, _, _, .error e => .error e
    | .ok (av, ac, ap, left), .ok (bv, bc, bp), .ok (cv, cc, cp), .ok (blk, kp), .ok (lab, lp) =>
      if vxInv op && !vxParamsOk blk then .error cVxInvalid
      else
        let fk := m.transomKey q.part (adOffset (vxFallback blk))
        if vxInv op && (fk.isNone || m.conf.cfg.inQueue q.part (adOffset (vxFallback blk)) 8) then .error cAddrRange
        else if !gradOk then .error cAddrRange
        else if dest ≠ cOk then .error dest
        else
          let p := (List.range 16).map (fun i => f32 (leAt blk (4 * i) 4))
          let o := vxCompute op (vxRows w) len (vxParam w) av bv cv (labelsOf rows lab) p
          let second := if q.c.isSome then o.second else []
          let nf := (o.vals.filter (fun x => !x.finite)).length + (second.filter (fun x => !x.finite)).length -
            o.nanBlocks * (len * len) + o.nanBlocks + o.badLabels
          let hp := (q.d.map (fun d => adSpace d == 4 && m.poisonedAt (paneKey pane (adOffset d)) (64 * rows) &&
            (m.routeDstClass (adRoute d) == 1 || m.routeDstClass (adRoute d) == 2))).getD false
          let r := Run.fresh q (vxBound w) (o.vals.map toF32) outLen (ap || bp || cp || kp || lp || hp)
          let r := { r with vals2 := second.map toF32, decSat := ac.1 + bc.1 + cc.1, decFlush := ac.2 + bc.2 + cc.2, nonfinite := nf,
                            tries := o.tries, fallback := if o.fell then fk else none }
          let m := m.setPane pane { m.pane pane with vrun := some r, vin := left }
          .ok (if q.overRoute && !r.needsMax then m.sendResult pane r else m)

/-- The head of the vector queue starts if its VOP is the row's, or is reserved and fails (R163, R175). -/
def Mach.vectorStart (m : Mach) (pane op : Nat) : Mach :=
  match (m.pane pane).vq with
  | [] => m
  | q :: _ =>
    if (vxOp q.desc.w5 = op ∨ !vxKnown (vxOp q.desc.w5)) ∧ !m.headDelayed pane .vector ∧ !m.headTested pane .vector then
      m.startHead pane .vector (fun m q => m.orCut pane q (m.vxStart pane q))
    else m

/-- VECTOR_COMPLETE (R165, R168): results written, counts, token and record; a result on a route completes once it is
delivered. -/
def Mach.vectorDone (m : Mach) (pane : Nat) : Mach :=
  match (m.pane pane).vrun with
  | none => m
  | some r =>
    if r.needsMax || m.core.stopped.contains pane || m.hasXfers pane r.cmd || m.memTested pane r.cmd then m
    else (m.setPane pane { m.pane pane with vrun := none }).completeRun pane r

/-- DELAYED_CONVERSION_START (R74, R77): a head that waited for its record to roll starts once it has rolled. -/
def Mach.delayedStart (m : Mach) (pane : Nat) (e : EngineId) : Mach :=
  match (m.pane pane).queue e with
  | [] => m
  | q :: _ =>
    if !(cvtScaled q.cvt && cvtScale q.cvt == 0) || m.headDelayed pane e then m
    else match e with
      | .matrix => m.matrixStart pane
      | .vector => m.vectorStart pane (vxOp q.desc.w5)
      | .copy => m

/-! ### Meanings -/

/-- ADD, VOP 0x01 (R173). -/
def execAdd (pane : PaneId) (s : State) : Res := s.withM (s.m.vectorStart pane 0x01)
/-- MUL, VOP 0x02 (R173). -/
def execMul (pane : PaneId) (s : State) : Res := s.withM (s.m.vectorStart pane 0x02)
/-- FMA, VOP 0x03 (R173). -/
def execFma (pane : PaneId) (s : State) : Res := s.withM (s.m.vectorStart pane 0x03)
/-- MAX, VOP 0x04 (R173). -/
def execMax (pane : PaneId) (s : State) : Res := s.withM (s.m.vectorStart pane 0x04)
/-- MIN, VOP 0x05 (R173). -/
def execMin (pane : PaneId) (s : State) : Res := s.withM (s.m.vectorStart pane 0x05)
/-- SCALE, VOP 0x06 (R173). -/
def execScale (pane : PaneId) (s : State) : Res := s.withM (s.m.vectorStart pane 0x06)
/-- EXP, VOP 0x08 (R173). -/
def execExp (pane : PaneId) (s : State) : Res := s.withM (s.m.vectorStart pane 0x08)
/-- EXP2, VOP 0x09 (R173). -/
def execExp2 (pane : PaneId) (s : State) : Res := s.withM (s.m.vectorStart pane 0x09)
/-- LOG, VOP 0x0A (R173). -/
def execLog (pane : PaneId) (s : State) : Res := s.withM (s.m.vectorStart pane 0x0A)
/-- LOG2, VOP 0x0B (R173). -/
def execLog2 (pane : PaneId) (s : State) : Res := s.withM (s.m.vectorStart pane 0x0B)
/-- RECIP, VOP 0x0C (R173). -/
def execRecip (pane : PaneId) (s : State) : Res := s.withM (s.m.vectorStart pane 0x0C)
/-- RSQRT, VOP 0x0D (R173). -/
def execRsqrt (pane : PaneId) (s : State) : Res := s.withM (s.m.vectorStart pane 0x0D)
/-- SQRT, VOP 0x0E (R173). -/
def execSqrt (pane : PaneId) (s : State) : Res := s.withM (s.m.vectorStart pane 0x0E)
/-- DIV, VOP 0x0F (R173). -/
def execDiv (pane : PaneId) (s : State) : Res := s.withM (s.m.vectorStart pane 0x0F)
/-- TANH, VOP 0x10 (R173). -/
def execTanh (pane : PaneId) (s : State) : Res := s.withM (s.m.vectorStart pane 0x10)
/-- SIGMOID, VOP 0x11 (R173). -/
def execSigmoid (pane : PaneId) (s : State) : Res := s.withM (s.m.vectorStart pane 0x11)
/-- SILU, VOP 0x12 (R173). -/
def execSilu (pane : PaneId) (s : State) : Res := s.withM (s.m.vectorStart pane 0x12)
/-- GELU, VOP 0x13 (R173). -/
def execGelu (pane : PaneId) (s : State) : Res := s.withM (s.m.vectorStart pane 0x13)
/-- RSUM, VOP 0x20 (R173). -/
def execRsum (pane : PaneId) (s : State) : Res := s.withM (s.m.vectorStart pane 0x20)
/-- RMAX, VOP 0x21 (R173). -/
def execRmax (pane : PaneId) (s : State) : Res := s.withM (s.m.vectorStart pane 0x21)
/-- RSUMSQ, VOP 0x22 (R173). -/
def execRsumsq (pane : PaneId) (s : State) : Res := s.withM (s.m.vectorStart pane 0x22)
/-- SOFTMAX, VOP 0x28 (R173). -/
def execSoftmax (pane : PaneId) (s : State) : Res := s.withM (s.m.vectorStart pane 0x28)
/-- LOGSUMEXP, VOP 0x29 (R173). -/
def execLogsumexp (pane : PaneId) (s : State) : Res := s.withM (s.m.vectorStart pane 0x29)
/-- RMSNORM, VOP 0x2A (R173). -/
def execRmsnorm (pane : PaneId) (s : State) : Res := s.withM (s.m.vectorStart pane 0x2A)
/-- LAYERNORM, VOP 0x2B (R173). -/
def execLayernorm (pane : PaneId) (s : State) : Res := s.withM (s.m.vectorStart pane 0x2B)
/-- XENT, VOP 0x30 (R173). -/
def execXent (pane : PaneId) (s : State) : Res := s.withM (s.m.vectorStart pane 0x30)
/-- INV, VOP 0x40 (R173). -/
def execInv (pane : PaneId) (s : State) : Res := s.withM (s.m.vectorStart pane 0x40)
/-- INVROOT, VOP 0x41 (R173). -/
def execInvroot (pane : PaneId) (s : State) : Res := s.withM (s.m.vectorStart pane 0x41)
/-- VECTOR_COMPLETE (R165). -/
def execVectorComplete (pane : PaneId) (s : State) : Res := s.withM (s.m.vectorDone pane)
/-- DELAYED_CONVERSION_START (R77). -/
def execDelayedConversionStart (pane : PaneId) (e : EngineId) (s : State) : Res := s.withM (s.m.delayedStart pane e)

end Sys2Proof.Machine
end

