-- ==== Sys2Proof/Machine/ServeOps.lean ====
section
/-! DEFINITION. The Gazetteer, its KV units, prefix handles and overlays, the output ring, the pipelines and the samplers (R326 to R369). -/

namespace Sys2Proof.Machine

/-! ### States and codes -/

/-- Entry states (R332). -/
def gsFree : Nat := 0
def gsAdmitted : Nat := 1
def gsPrefill : Nat := 2
def gsDecode : Nat := 3
def gsDone : Nat := 4
def gsCancelled : Nat := 5
def gsFailed : Nat := 6
def gsMigrating : Nat := 7
/-- Result codes and end reasons (R338). -/
def gcOk : Nat := 0
def gcBadDesc : Nat := 0x01
def gcBadModel : Nat := 0x02
def gcBadProfile : Nat := 0x03
def gcBadHandle : Nat := 0x04
def gcBadOverlay : Nat := 0x05
def gcTooLong : Nat := 0x06
def gcBusy : Nat := 0x07
def gcNoKv : Nat := 0x08
def gcNoStage : Nat := 0x09
def gcPromptFetch : Nat := 0x0A
def gcNotFound : Nat := 0x0B
def gcAlreadyDone : Nat := 0x0C
def gcSlotBusy : Nat := 0x0D
def gcStopToken : Nat := 0x20
def gcMaxNew : Nat := 0x21
def gcMaxCtx : Nat := 0x22
def gcCancelled : Nat := 0x23
def gcDeadline : Nat := 0x24
def gcShed : Nat := 0x25
def gcNonfinite : Nat := 0x26
def gcMaskEmpty : Nat := 0x27
def gcPipeline : Nat := 0x28
def gcPartition : Nat := 0x29
def gcRegionFailed : Nat := 0x2A
def gcHandleFull : Nat := 0x30
def gcOvlBusy : Nat := 0x31
def gcOvlFetch : Nat := 0x32
/-- Event kinds (R346, R596). -/
def ekAdmitted : Nat := 1
def ekRefused : Nat := 2
def ekEnd : Nat := 3
def ekCancel : Nat := 4
def ekHandle : Nat := 5
def ekOverlay : Nat := 6
def ekReleased : Nat := 7
def ekPromoted : Nat := 8

/-- Live states (R333). -/
def gsLive (s : Nat) : Bool := s == gsAdmitted || s == gsPrefill || s == gsDecode || s == gsMigrating
/-- States with a pipeline bound. -/
def GEnt.bound (e : GEnt) : Bool := e.pipe != 0xFF && (e.st == gsPrefill || e.st == gsDecode || e.st == gsMigrating)

/-! ### Lookups -/

/-- The global index of a partition's local entry (R331). -/
def Mach.entIdx (m : Mach) (p e : Nat) : Nat := m.fld R.GZT_PQUOTA_ENTRY_BASE [p] + e
/-- A local entry of a partition. -/
def Mach.ent (m : Mach) (p e : Nat) : GEnt := Tbl.get GEnt.init m.gzt.ents (m.entIdx p e)
/-- A local entry replaced. -/
def Mach.putEnt (m : Mach) (p e : Nat) (x : GEnt) : Mach := m.withGzt { m.gzt with ents := Tbl.set GEnt.init m.gzt.ents (m.entIdx p e) x }
/-- ENTRY_COUNT of a partition. -/
def Mach.entCount (m : Mach) (p : Nat) : Nat := m.fld R.GZT_PQUOTA_ENTRY_COUNT [p]
/-- The entries of a partition that are not FREE, with their local indices, in ascending index. -/
def Mach.entsOf (m : Mach) (p : Nat) : List (Nat × GEnt) :=
  let b := m.fld R.GZT_PQUOTA_ENTRY_BASE [p]
  (m.gzt.ents.filter (fun x => decide (b ≤ x.1 ∧ x.1 < b + m.entCount p))).map (fun x => (x.1 - b, x.2))
/-- The partition whose range holds a global entry, 0 if none. -/
def Mach.entPart (m : Mach) (g : Nat) : Nat :=
  (((List.range 32).map (fun i => i + 1)).find? (fun p => decide (m.fld R.GZT_PQUOTA_ENTRY_BASE [p] ≤ g ∧ g < m.fld R.GZT_PQUOTA_ENTRY_BASE [p] + m.entCount p))).getD 0
/-- The admissions of a partition that wait for their prompt. -/
def Mach.fetchesOf (m : Mach) (p : Nat) : List Fetch := Tbl.get [] m.gzt.fetches p
/-- The overlay fetches of a partition. -/
def Mach.ovlFetchesOf (m : Mach) (p : Nat) : List OvlFetch := Tbl.get [] m.gzt.ovlFetches p
/-- The live overlay versions of a partition. -/
def Mach.ovlsOf (m : Mach) (p : Nat) : List OvlVer := Tbl.get [] m.gzt.ovls p
/-- The handles of a partition by slot. -/
def Mach.handlesOfPart (m : Mach) (p : Nat) : List (Nat × Handle) :=
  (List.range (m.fld R.GZT_PQUOTA_HANDLES [p])).filterMap (fun k => (Tbl.get none m.gzt.handles (p * 4096 + k)).map (fun h => (k, h)))
/-- Pipeline states. -/
def plDisabled : Nat := 0
def plIdle : Nat := 1
def plRunning : Nat := 2
def plDraining : Nat := 3
/-- STATE of a pipeline. -/
def Mach.plState (m : Mach) (n : Nat) : Nat := m.fld R.GZT_PIPESTAT_STATE [n]
/-- A pipeline that opens steps. -/
def Mach.plOn (m : Mach) (n : Nat) : Bool := m.plState n == plIdle || m.plState n == plRunning
/-- The entries bound to a pipeline. -/
def Mach.plBound (m : Mach) (n : Nat) : List (Nat × GEnt) := (m.entsOf (m.pipePart n)).filter (fun x => x.2.bound && x.2.pipe == n)
/-- GROUPS of a pipeline. -/
def Mach.plGroups (m : Mach) (n : Nat) : Nat := m.fld R.GZT_PIPECTL_GROUPS [n] + 1
/-- A field of the descriptor of an atlas slot (R328). -/
def Mach.atlasAt (m : Mach) (s o n : Nat) : Nat :=
  leAt ((List.range 32).flatMap (fun w => leBytes 8 (m.fld R.GZT_ATLAS_DESC_WORD [s, w]))) o n
/-- VERSION, VOCAB and MAX_CTX of an atlas slot. -/
def Mach.atlasVer (m : Mach) (s : Nat) : Nat := m.atlasAt s 2 2
def Mach.atlasVocab (m : Mach) (s : Nat) : Nat := m.atlasAt s 4 4
def Mach.atlasCtx (m : Mach) (s : Nat) : Nat := m.atlasAt s 8 4

/-! ### KV units (R353 to R356) -/

/-- UNITS of a partition's pool, and the bytes of a unit. -/
def Mach.kvUnits (m : Mach) (p : Nat) : Nat := m.fld R.GZT_PKV_UNITS [p]
def Mach.kvUnitBytes (m : Mach) (p : Nat) : Nat := m.fld R.GZT_PKV_UNIT_2MIB [p] * 2 ^ 21
/-- References to a unit: page lists, handles, overlay versions and overlay fetches (R356, R359). -/
def Mach.unitRefs (m : Mach) (p u : Nat) : Nat :=
  ((m.entsOf p).filter (fun x => x.2.units.contains u)).length + ((m.fetchesOf p).filter (fun f => f.ent.units.contains u)).length +
  ((m.handlesOfPart p).filter (fun h => h.2.units.contains u)).length + ((m.ovlsOf p).filter (fun o => o.units.contains u)).length +
  ((m.ovlFetchesOf p).filter (fun o => o.units.contains u)).length
/-- The units that nothing references, in ascending order. -/
def Mach.unitsFree (m : Mach) (p : Nat) : List Nat :=
  let used := ((m.entsOf p).flatMap (fun x => x.2.units)) ++ ((m.fetchesOf p).flatMap (fun f => f.ent.units)) ++
    ((m.handlesOfPart p).flatMap (fun h => h.2.units)) ++ ((m.ovlsOf p).flatMap (fun o => o.units)) ++ ((m.ovlFetchesOf p).flatMap (fun o => o.units))
  (List.range (m.kvUnits p)).filter (fun u => !used.contains u)
/-- Units reserved and not used. -/
def Mach.kvReserved (m : Mach) (p : Nat) : Nat :=
  ((m.entsOf p).map (fun x => x.2.reserved)).sum + ((m.fetchesOf p).map (fun f => f.ent.reserved)).sum
/-- Units neither used nor reserved. -/
def Mach.kvFree (m : Mach) (p : Nat) : Nat := (m.unitsFree p).length - m.kvReserved p
/-- FREE entries of a partition. -/
def Mach.entsFree (m : Mach) (p : Nat) : List Nat :=
  (List.range (m.entCount p)).filter (fun e => (m.ent p e).st == gsFree && !(m.fetchesOf p).any (fun f => f.idx == e))
/-- GZT_PSPACE and ENTRIES of the pipelines follow the entries. -/
def Mach.gztSync (m : Mach) (p : Nat) : Mach :=
  let m := m.setFlds [p] [(R.GZT_PSPACE_KV_FREE, m.kvFree p), (R.GZT_PSPACE_KV_RESERVED, m.kvReserved p), (R.GZT_PSPACE_ENTRIES_FREE, (m.entsFree p).length)]
  (List.range 32).foldl (fun m n => if m.pipePart n = p then m.setFld R.GZT_PIPESTAT_ENTRIES [n] (m.plBound n).length else m) m

/-- Where an entry's page list lies in HBM (R354). -/
def Mach.plistOff (m : Mach) (p e : Nat) : Nat := m.fld R.GZT_PPLIST_BASE [p] * 64 + e * m.fld R.GZT_PPLIST_STRIDE [p] * 64
/-- An entry's page list written (R354). -/
def Mach.writePlist (m : Mach) (p e : Nat) : Mach :=
  m.storeAt p (mkAddr 2 (m.plistOff p e)) (leBytes 64 0 ++ (m.ent p e).units.flatMap (fun u => leBytes 4 u))
/-- Units for a context of n tokens taken from the reservation (R355). -/
def Mach.takeUnits (m : Mach) (p e n : Nat) : Mach :=
  let x := m.ent p e
  let k := ceilDiv n 64 - x.units.length
  if k = 0 then m
  else
    let x' := { x with units := x.units ++ (m.unitsFree p).take k, reserved := x.reserved - k }
    ((m.putEnt p e x').writePlist p e).gztSync p

/-! ### Overlays (R359, R360) -/

/-- The current version of an overlay ID for a model. -/
def Mach.ovlCurrent (m : Mach) (p id model : Nat) : Option OvlVer := (m.ovlsOf p).find? (fun o => o.current && o.id == id && o.model == model)
/-- References to a version beside being current. -/
def Mach.ovlUsers (m : Mach) (p : Nat) (o : OvlVer) : Nat :=
  ((m.entsOf p).filter (fun x => gsLive x.2.st && x.2.ovl == o.id && x.2.ovlVer == o.version)).length +
  ((m.fetchesOf p).filter (fun f => f.ent.ovl == o.id && f.ent.ovlVer == o.version)).length +
  ((m.handlesOfPart p).filter (fun h => h.2.ovl == o.id && h.2.ovlVer == o.version)).length

/-! ### Events and batches (R345 to R347, R594) -/

/-- A pair that mirrors (R594). -/
def Mach.pairOn (m : Mach) (p : Nat) : Bool := m.fld R.GZT_PAIRSTAT_STATE [p] == 1 || m.fld R.GZT_PAIRSTAT_STATE [p] == 2
/-- The pair of a partition. -/
def Mach.pair (m : Mach) (p : Nat) : Pair := Tbl.get Pair.init m.gzt.pairs p
/-- The pair of a partition replaced, with STANDBY. -/
def Mach.setPair (m : Mach) (p : Nat) (x : Pair) : Mach :=
  (m.withGzt { m.gzt with pairs := Tbl.set Pair.init m.gzt.pairs p x }).setFld R.GZT_PAIRSTAT_STANDBY [p] x.standby.length
/-- A pair message (R592). -/
def Mach.pairSend (m : Mach) (p kind : Nat) (body : List Byte) : Mach :=
  m.trySend (m.fld R.GZT_PAIRCFG_PEER [p]) (m.jobOf p) 0x38 (0xA5000000 + kind) body false
/-- A change that a client can see is mirrored (R594): sent, and counted among the messages to be acknowledged. -/
def Mach.mirror (m : Mach) (p : Nat) (body : List Byte) : Mach :=
  if m.pairOn p then
    let x := m.pair p
    (m.setPair p { x with sent := x.sent + 1, waits := x.waits ++ [m.now] }).pairSend p 2 body
  else m
/-- Everything mirrored up to a mark has been acknowledged. -/
def Mach.mirrored (m : Mach) (p mark : Nat) : Bool := !m.pairOn p || decide (mark ≤ (m.pair p).acked)

/-- The 64 bytes of an entry (R332). -/
def Mach.entBytes (m : Mach) (p e : Nat) : List Byte :=
  let x := m.ent p e
  if x.st = gsFree then leBytes 64 0
  else
    leBytes 8 x.tag ++ leBytes 1 x.st ++ leBytes 1 (x.prio + 8 * x.group + 64 * b2n x.rebind + 128 * b2n x.pin) ++ leBytes 1 x.pipe ++ leBytes 1 x.model ++
    leBytes 2 x.ver ++ leBytes 2 x.ovl ++ leBytes 2 x.ovlVer ++ leBytes 1 x.sprof ++ leBytes 1 x.endc ++ leBytes 4 x.length ++ leBytes 4 x.promptLen ++
    leBytes 4 x.generated ++ leBytes 8 (mkAddr 2 (m.plistOff p e)).toNat ++ leBytes 8 x.deadline ++ leBytes 8 x.tLast ++ leBytes 4 x.ttft ++
    leBytes 2 x.tbtMax ++ leBytes 1 x.misses ++ leBytes 1 0

/-- An entry as a pair message carries it (R594): its 64 bytes, profile, SEED, GMASK, MAX_NEW, prompt tokens, sealed tokens. -/
def Mach.mirrorEnt (m : Mach) (p e : Nat) : List Byte :=
  let x := m.ent p e
  m.entBytes p e ++ x.profile ++ leBytes 8 x.seed ++ leBytes 8 x.gmask ++ leBytes 4 x.maxNew ++ leBytes 4 x.prompt.length ++
    (x.prompt ++ x.tokens).flatMap (fun t => leBytes 4 t)

/-- The 32 bytes of an event record (R346). -/
def eventBytes (tag idx kind code a b c d : Nat) : List Byte :=
  leBytes 8 tag ++ leBytes 2 idx ++ leBytes 1 kind ++ leBytes 1 code ++ leBytes 4 a ++ leBytes 8 b ++ leBytes 4 c ++ leBytes 4 d
/-- An event that no seal carries (R347). -/
def Mach.event (m : Mach) (p : Nat) (bs : List Byte) : Mach :=
  m.withGzt { m.gzt with events := Tbl.set [] m.gzt.events p (Tbl.get [] m.gzt.events p ++ [(m.now, (m.pair p).sent, bs)]) }
/-- A request refused: its REFUSED record (R339, R346). -/
def Mach.refuse (m : Mach) (p tag code : Nat) : Mach := m.event p (eventBytes tag 0xFFFF ekRefused code 0 0 0 0)
/-- An admission refused, counted (R337, R364). -/
def Mach.refuseAdmit (m : Mach) (p tag code : Nat) : Mach := (m.addSat R.GZT_PSTAT_REFUSED [p] 1).refuse p tag code
/-- The end state of a reason (R338). -/
def endState (code : Nat) : Nat := if code ≤ 0x22 then gsDone else if code = gcCancelled then gsCancelled else gsFailed
/-- The END record of an entry (R346). -/
def GEnt.endRecord (x : GEnt) (idx t : Nat) : List Byte :=
  eventBytes x.tag idx ekEnd x.endc x.generated t x.ttft (x.tbtMax + 65536 * x.misses)

/-- The versions of a partition that nothing references any more are freed and reported (R360). -/
def Mach.ovlSweep (m : Mach) (p : Nat) : Mach :=
  let dead := (m.ovlsOf p).filter (fun o => !o.current && m.ovlUsers p o == 0)
  if dead.isEmpty then m
  else
    let m := m.withGzt { m.gzt with ovls := Tbl.set [] m.gzt.ovls p ((m.ovlsOf p).filter (fun o => !dead.contains o)) }
    (dead.foldl (fun m o => m.event p (eventBytes 0 0xFFFF ekReleased gcOk o.version o.id 0 0)) m).gztSync p

/-- The results of the CANCELs that wait on an entry which ends with a code: the first took effect if the entry ends CANCELLED, for every
other one the entry has ended (R339). -/
def GEnt.cancelRecords (x : GEnt) (idx code : Nat) : List (List Byte) :=
  (x.cancels.zipIdx).map (fun c => if code = gcCancelled ∧ c.2 = 0 then eventBytes x.tag idx ekCancel gcOk 0 0 0 0
    else eventBytes x.tag idx ekCancel gcAlreadyDone (endState code) 0 0 0)
/-- An entry after its end: state and reason set, pages, reservation and staging released (R333). -/
def GEnt.ended (x : GEnt) (code now : Nat) : GEnt :=
  { x with st := endState code, endc := code, units := [], reserved := 0, stage := 0, stageLen := 0, endAt := now, cancels := [], target := 0, rebuild := 0 }
/-- An entry ends; answers its END record and the results of the CANCELs that waited on it (R333, R339). -/
def Mach.endEntry (m : Mach) (p e code : Nat) : Mach × List (List Byte) :=
  let x := m.ent p e
  let y := x.ended code m.now
  let m := ((m.putEnt p e y).gztSync p).ovlSweep p
  (if endState code = gsDone then m.meter p mRequests 1 else m, y.endRecord e m.now :: x.cancelRecords e code)
/-- An entry ends outside a seal: its records go into an event batch. -/
def Mach.endNow (m : Mach) (p e code : Nat) : Mach :=
  let a := m.endEntry p e code
  a.2.foldl (fun m r => m.event p r) (a.1.mirror p ([3] ++ leBytes 2 e ++ leBytes 8 (a.1.ent p e).tag ++ leBytes 1 code))

/-- The pad that a batch of n bytes needs before it where HEAD stands at head; none where the ring lacks room (R345). -/
def Mach.ringPlanAt (m : Mach) (p head n : Nat) : Option Nat :=
  let size := m.fld R.GZT_POUTCFG_PAGES [p] * 4096
  let used := (head + 2 ^ 64 - m.fld R.GZT_POUT_TAIL_TAIL [p]) % 2 ^ 64
  let at_ := if size = 0 then 0 else head % size
  let pad := if at_ + n ≤ size then 0 else size - at_
  if used + pad + n ≤ size then some pad else none
/-- The pad that a batch of n bytes needs first; none where the output ring lacks room or its port is down (R345, R347, R476). -/
def Mach.ringPlan (m : Mach) (p n : Nat) : Option Nat :=
  if m.portUp p then m.ringPlanAt p (m.fld R.GZT_POUT_HEAD_HEAD [p]) n else none
/-- A batch header (R345). -/
def batchHeader (t step pipe tokens events flags bytes : Nat) : List Byte :=
  leBytes 8 t ++ leBytes 4 step ++ leBytes 1 pipe ++ leBytes 1 0 ++ leBytes 2 tokens ++ leBytes 2 events ++ leBytes 2 flags ++ leBytes 4 bytes ++ leBytes 40 0
/-- Bytes at HEAD of the output ring. -/
def Mach.ringPutAt (m : Mach) (p : Nat) (bs : List Byte) : Mach :=
  let size := max 1 (m.fld R.GZT_POUTCFG_PAGES [p] * 4096)
  let head := m.fld R.GZT_POUT_HEAD_HEAD [p]
  ((m.store (m.partHostKey p (m.fld R.GZT_POUT_ADDR [p] * 4096 + head % size)) bs).meter p mHost bs.length).setFld R.GZT_POUT_HEAD_HEAD [p] (head + bs.length)
/-- The bytes of a batch (R345). -/
def Batch.size (b : Batch) : Nat := roundUp (64 + (b.tokens.flatten ++ b.events.flatten).length) 64
/-- Whether the ring has room for batches that follow one another (R347). -/
def Mach.batchesFit (m : Mach) (p : Nat) (l : List Batch) : Bool :=
  m.portUp p && (l.foldl (fun (h : Option Nat) b => h.bind (fun h => (m.ringPlanAt p h b.size).map (fun pad => h + pad + b.size)))
    (some (m.fld R.GZT_POUT_HEAD_HEAD [p]))).isSome
/-- A batch written, after a pad batch where it would wrap, with its message (R345, R473); none where the ring lacks room. -/
def Mach.batchWrite (m : Mach) (p : Nat) (b : Batch) : Option Mach :=
  let body := b.tokens.flatten ++ b.events.flatten
  let n := b.size
  match m.ringPlan p n with
  | none => none
  | some pad =>
    let m := if pad = 0 then m else m.ringPutAt p (batchHeader 0 0 0xFF 0 0 4 pad ++ List.replicate (pad - 64) 0)
    let bs := batchHeader b.t b.step b.pipe b.tokens.length b.events.length (b2n b.retried + 2 * b2n b.waited) n ++ body
    some ((m.ringPutAt p (bs ++ List.replicate (n - bs.length) 0)).vfVector p 4)
/-- The batches of a partition that wait. -/
def Mach.batchesOf (m : Mach) (p : Nat) : List Batch := Tbl.get [] m.gzt.batches p
def Mach.setBatches (m : Mach) (p : Nat) (l : List Batch) : Mach := m.withGzt { m.gzt with batches := Tbl.set [] m.gzt.batches p l }
/-- OUTPUT_BATCH_WRITE: the oldest seal's batch, once mirrored and once the ring has room (R347, R594). -/
def Mach.outputWrite (m : Mach) (p : Nat) : Mach :=
  match m.batchesOf p with
  | [] => m
  | b :: l =>
    if !m.mirrored p b.mark || !m.running || m.shut p then m
    else match m.batchWrite p b with
      | some m => m.setBatches p l
      | none => m.setBatches p ({ b with waited := true } :: l)
/-- The batch of events that no seal carries; its time is that of the first (R345). -/
def eventBatch (es : List (Nat × Nat × List Byte)) : Batch :=
  { t := (es.head?.map (fun e => e.1)).getD 0, step := 0, pipe := 0xFF, retried := false, waited := false, tokens := [], events := es.map (fun x => x.2.2), mark := 0 }
/-- The events that the next event batch carries: the oldest, as many as are mirrored, fit the ring and EVENTS can count (R345, R347). -/
def Mach.eventsNow (m : Mach) (p : Nat) : List (Nat × Nat × List Byte) :=
  let es := ((Tbl.get [] m.gzt.events p).takeWhile (fun e => m.mirrored p e.2.1)).take 65535
  let k := ((List.range (es.length + 1)).reverse.find? (fun k => k == 0 || (m.ringPlan p (eventBatch (es.take k)).size).isSome)).getD 0
  es.take k
/-- EVENT_BATCH_WRITE: an event batch (R347). -/
def Mach.eventWrite (m : Mach) (p : Nat) : Mach :=
  let now := m.eventsNow p
  if now.isEmpty ∨ !m.running ∨ m.shut p then m
  else match m.batchWrite p (eventBatch now) with
    | some m => m.withGzt { m.gzt with events := Tbl.set [] m.gzt.events p ((Tbl.get [] m.gzt.events p).drop now.length) }
    | none => m

/-! ### Partition states (R368) -/

/-- Every live entry of a partition ends FAILED with a code, with records if the ring can be reached (R368, R476); admissions under way are
refused with it. -/
def Mach.servFail (m : Mach) (p code : Nat) : Mach :=
  let m := (m.entsOf p).foldl (fun m x => if !gsLive x.2.st then m else if m.portUp p then m.endNow p x.1 code else (m.endEntry p x.1 code).1) m
  let m := (m.fetchesOf p).foldl (fun m f => if m.portUp p then m.refuseAdmit p f.ent.tag code else m.addSat R.GZT_PSTAT_REFUSED [p] 1) m
  ((m.withGzt { m.gzt with fetches := Tbl.set [] m.gzt.fetches p [] }).ovlSweep p).gztSync p
/-- The pipelines of a partition stop with their open steps. -/
def Mach.pipesStop (m : Mach) (p : Nat) : Mach :=
  (List.range 32).foldl (fun m n => if m.pipePart n = p ∧ m.plState n ≠ plDisabled then
    ((m.setPipe n Pipe.init).setFlds [n] [(R.GZT_PIPESTAT_STATE, plDisabled), (R.GZT_PIPECTL_ENABLE, 0), (R.GZT_PIPESTAT_MODEL_VALID, 0),
      (R.GZT_PIPESTAT_SHEDDING, 0)]).vfVector p 7 else m) m
/-- Everything of a partition vanishes without records (R368, R490). -/
def Mach.servClear (m : Mach) (p : Nat) : Mach :=
  let g := m.gzt
  let b := m.fld R.GZT_PQUOTA_ENTRY_BASE [p]
  let g := { g with ents := g.ents.filter (fun x => !decide (b ≤ x.1 ∧ x.1 < b + m.entCount p)), adms := Tbl.set AdmWin.init g.adms p AdmWin.init }
  let g := { g with fetches := Tbl.set [] g.fetches p [], ovlFetches := Tbl.set [] g.ovlFetches p [], ovls := Tbl.set [] g.ovls p [] }
  let g := { g with handles := g.handles.filter (fun h => h.1 / 4096 != p), ovlTop := g.ovlTop.filter (fun h => h.1 / 65536 != p) }
  let g := { g with serials := Tbl.set 0 g.serials p 0, batches := Tbl.set [] g.batches p [], events := Tbl.set [] g.events p [], pairs := Tbl.set Pair.init g.pairs p Pair.init }
  ((m.withGzt g).pipesStop p).gztSync p

/-! ### Samplers (R343, R348 to R352) -/

/-- Elements above −∞ in rank order: larger first, for equal ones the lower index (R350). -/
def rankAll (xs : List Fp) : List (Fp × Nat) :=
  (xs.zipIdx).foldl (fun t p => if p.1 == .inf true || p.1 == .nan then t else insertTop p.1 p.2 (t.length + 1) t) []

/-- The sums of the prefixes of a list, each in the order of R171 over its ranks. -/
def prefixSums (xs : List Fp) : List Fp := (List.range xs.length).map (fun k => rowSum (xs.take (k + 1)))

/-- The penalties of R350 on a vocabulary: look is the tokens looked back over. -/
def penalise (rep pres freq : Fp) (look : List Nat) (xs : List Fp) : List Fp :=
  (xs.zipIdx).map (fun p =>
    let c := (look.filter (fun t => t == p.2)).length
    if c = 0 then p.1
    else
      let x := if Fp.zero.lt p.1 then p.1.div rep else p.1.mul rep
      (x.sub pres).sub (freq.mul (.ofNat c)))

/-- The draw of R350 for TEMP above 0 over values x: token and log-probability. -/
def drawToken (prof : List Byte) (seed : Word) (pos : Nat) (xs : List Fp) : Nat × Fp :=
  let h (o : Nat) : Fp := f32 (leAt prof o 4)
  let topk := leAt prof 24 2
  let y := rankAll (xs.map (fun v => v.div (h 0)))
  let y := if topk = 0 then y else y.take topk
  let m := (y.head?.map (fun v => v.1)).getD .zero
  let p := y.map (fun v => ((v.1.sub m).exp, v.2))
  let z := rowSum (p.map (fun v => v.1))
  let pmax := (p.head?.map (fun v => v.1)).getD .zero
  let p := p.filter (fun v => !(v.1.lt ((h 8).mul pmax)))
  let sums := prefixSums (p.map (fun v => v.1))
  let lim := (h 4).mul z
  let k := (sums.takeWhile (fun s => s.lt lim)).length + 1
  let p := p.take k
  let sums := sums.take k
  let z2 := sums.getLast?.getD .zero
  let u : Fp := .fin false ((rng64 seed 3 (BitVec.ofNat 64 pos)).toNat >>> 40) (-24)
  let cut := u.mul z2
  let i := (sums.takeWhile (fun s => !(cut.lt s))).length
  match p[min i (p.length - 1)]? with
  | some v => (v.2, (v.1.div z2).ln)
  | none => (0, .nan)

/-- The sample of a row (R350, R351): 1 a token, 2 NONFINITE, 3 MASK_EMPTY; the token and the code of lp. -/
def sampleRow (prof : List Byte) (seed : Word) (pos : Nat) (mask : Nat → Bool) (look : List Nat) (logits : List Fp) : Nat × Nat × Nat :=
  if logits.any (fun v => v == .nan || v == .inf false) then (2, 0, 0)
  else
    let h (o : Nat) : Fp := f32 (leAt prof o 4)
    let x := (logits.zipIdx).map (fun p => if mask p.2 then p.1 else .inf true)
    let x := penalise (h 12) (h 16) (h 20) look x
    if x.all (fun v => v == .inf true) then (3, 0, 0)
    else if (h 0).isZero then
      match rankAll x with
      | v :: _ => (1, v.2, toF32 (v.1.sub (softRow false x).2))
      | [] => (3, 0, 0)
    else
      let (t, lp) := drawToken prof seed pos x
      (1, t, toF32 lp)

/-- The rows at a sampler. -/
def Mach.smp (m : Mach) (d : Nat) : List SmpRow := Tbl.get [] m.gzt.samplers d
def Mach.setSmp (m : Mach) (d : Nat) (l : List SmpRow) : Mach := m.withGzt { m.gzt with samplers := Tbl.set [] m.gzt.samplers d l }

/-- The step and the row of a pipeline that a shard belongs to: a row that wants logits and has none yet (R343). -/
def Mach.expected (m : Mach) (n step idx pos : Nat) : Option (SStep × SRow) :=
  ((m.pipe n).opened.find? (fun s => s.n % 2 ^ 32 == step)).bind (fun s =>
    (s.rows.find? (fun r => r.wants && r.sampled == 0 && !r.poisoned && r.idx == idx && r.pos + r.count == pos)).map (fun r => (s, r)))
/-- A row of an open step replaced. -/
def Mach.setRow (m : Mach) (n step : Nat) (r : SRow) : Mach :=
  let p := m.pipe n
  m.setPipe n { p with opened := p.opened.map (fun s => if s.n = step then { s with rows := s.rows.map (fun x => if x.idx = r.idx then r else x) } else s) }

/-- SAMPLER_SHARD: the frame at the head of a route reaches its sampler and joins an expected row, waits for a row slot, or is
discarded. -/
def Mach.samplerShard (m : Mach) (rt : Nat) : Mach :=
  match m.conf.cfg.route rt, m.xfersOf rt with
  | some e, x :: _ =>
    if routeDst e / 4096 ≠ 2 ∨ !m.running ∨ m.core.stopped.contains (routeDst e) ∨ m.shut (leAt e 3 1) then m
    else
      let d := routeDst e % 4096
      let bs := x.bytes
      let n := leAt bs 28 1
      let drop := (m.popXfer rt).addSat R.SMP_COUNT_DISCARDS [d] 1
      let vocab := m.atlasVocab (m.fld R.GZT_PIPESTAT_MODEL [n])
      if 32 ≤ n ∨ leAt bs 30 1 ≠ 4 ∨ m.pipePart n ≠ leAt e 3 1 ∨ !bitAt (m.fld R.GZT_PIPECTL_SAMPLERS [n]) d then drop
      else match m.expected n (leAt bs 0 4) (leAt bs 4 4) (leAt bs 8 4) with
        | none => drop
        | some _ =>
          let rows := m.smp d
          let mine (r : SmpRow) : Bool := r.pipe == n && r.row.step == leAt bs 0 4 && r.row.seqId == leAt bs 4 4 && r.row.pos == leAt bs 8 4
          let other := (List.range 8).any (fun k => k != d && (m.smp k).any mine)
          if other then drop
          else match placeShard ((rows.filter mine).map (fun r => r.row)) rows.length 8 vocab false bs x.poisoned with
            | .waits => m
            | .discarded => drop
            | .invalid => drop
            | .joins l => (m.popXfer rt).setSmp d (rows.filter (fun r => !mine r) ++ l.map (fun r => { pipe := n, row := r }))
  | _, _ => m

/-- The tokens of an entry that the penalties look back over, from its token log (R350). -/
def Mach.lookBack (m : Mach) (p e : Nat) : List Nat :=
  let x := m.ent p e
  let w := min (leAt x.profile 26 2) x.generated
  (List.range w).map (fun i => ofLe (m.loadAt p (mkAddr 1 (m.fld R.GZT_PSTAGE_TOKLOG_BASE [p] * 64 + e * 4096 + (x.generated - w + i) % 1024 * 4)) 4))

/-- SAMPLE_ROW: the oldest complete row of a sampler is sampled (R348 to R351). -/
def Mach.sampleOne (m : Mach) (d : Nat) : Mach :=
  match (m.smp d).find? (fun r => r.row.complete && !m.shut (m.pipePart r.pipe)) with
  | none => m
  | some r =>
    if !m.running ∨ m.core.stopped.contains (isl 2 d) then m
    else
      let p := m.pipePart r.pipe
      let m := m.setSmp d ((m.smp d).filter (fun x => x != r))
      let m := (m.addSat R.SMP_COUNT_ROWS [d] 1).countFor 0 (isl 2 d) 1 1
      match m.expected r.pipe r.row.step r.row.seqId r.row.pos with
      | none => m
      | some (s, w) =>
        let x := m.ent p r.row.seqId
        let vocab := m.atlasVocab x.model
        let mb := if x.gmask = 0 then [] else m.loadAt p (BitVec.ofNat 64 (x.gmask + 64)) (ceilDiv vocab 512 * 64)
        let mask (t : Nat) : Bool := x.gmask == 0 || bitAt ((mb.getD (t / 8) 0).toNat) (t % 8)
        if r.row.poisoned then m.setRow r.pipe s.n { w with poisoned := true }
        else
          let (k, t, lp) := sampleRow x.profile (BitVec.ofNat 64 x.seed) r.row.pos mask (m.lookBack p r.row.seqId) r.row.values.flatten
          let m := if k = 2 then m.addSat R.SMP_COUNT_NONFINITE [d] 1 else if k = 3 then m.addSat R.SMP_COUNT_MASK_EMPTY [d] 1 else m
          m.setRow r.pipe s.n { w with sampled := k, tok := t, lp := lp }

end Sys2Proof.Machine
end

