-- ==== Sys2Proof/Machine/AdmitOps.lean ====
section
/-! DEFINITION. The requests of a serving partition: admission, cancel, retire, release, migrate, overlays, and the atlas (R328, R334 to R339, R353 to R360). -/

namespace Sys2Proof.Machine

/-! ### The admission window (R335) -/

/-- The admission window of a partition. -/
def Mach.adm (m : Mach) (p : Nat) : AdmWin := Tbl.get AdmWin.init m.gzt.adms p
/-- The admission window replaced. -/
def Mach.setAdm (m : Mach) (p : Nat) (x : AdmWin) : Mach := m.withGzt { m.gzt with adms := Tbl.set AdmWin.init m.gzt.adms p x }

/-- Words 0 to 6 of a slot of the window, by the rules of a hatch (R335, R464). -/
def Mach.admWord (m : Mach) (p slot word : Nat) (v : Word) : Mach :=
  let x := m.adm p
  if x.isSealed.any (fun e => e.1 == slot) then m.setAdm p { x with badSeals := min 65535 (x.badSeals + 1) }
  else m.setAdm p { x with slots := Tbl.set 0 x.slots (slot * 8 + word) v }

/-- Word 7 of a slot of the window (R335, R463). -/
def Mach.admSeal (m : Mach) (p slot : Nat) (v : Word) : Mach :=
  let x := m.adm p
  let s := bits v.toNat 63 32
  if !m.flag R.GZT_PCFG_ENABLE [p] || m.pstate p == psTornDown || m.part.tearing.contains p then m.setAdm p { x with refused := min 65535 (x.refused + 1) }
  else if seqGe s (x.disp + 1024) then m.setAdm p { x with overruns := min 65535 (x.overruns + 1) }
  else if slot ≠ s % 1024 ∨ !seqGe s x.next ∨ x.isSealed.any (fun e => e.1 == slot) then m.setAdm p { x with badSeals := min 65535 (x.badSeals + 1) }
  else
    let l := x.isSealed ++ [(slot, s)]
    m.setAdm p { x with slots := Tbl.set 0 x.slots (slot * 8 + 7) v, isSealed := l, stamps := Tbl.set 0 x.stamps slot m.now, next := sealNext l 1024 x.next }

/-- The request at the front of the window: its slot words and its stamp. -/
def Mach.admFront (m : Mach) (p : Nat) : Option (Desc × Nat) :=
  let x := m.adm p
  if x.disp = x.next then none else some (Desc.ofSlots x.slots (x.disp % 1024), Tbl.get 0 x.stamps (x.disp % 1024))
/-- A front request whose line holds poison (R460) leaves a DEFERRED record, as a command that reads poison does (R377); the rest of the
request is as it stands (log entry 94). -/
def Mach.admPoison (m : Mach) (p : Nat) : Mach :=
  let x := m.adm p
  let slot := x.disp % 1024
  if x.poison.contains slot then (m.setAdm p { x with poison := eraseNat slot x.poison }).place (ErrRec.mk0 sevDeferred p ecPoisonUsed 0xFFFF 0 0) else m
/-- The front request leaves the window. -/
def Mach.admPop (m : Mach) (p : Nat) : Mach :=
  let x := m.adm p
  m.setAdm p { x with isSealed := x.isSealed.filter (fun e => e.2 != x.disp), stamps := Tbl.set 0 x.stamps (x.disp % 1024) 0, disp := (x.disp + 1) % 2 ^ 32 }

/-- Fields of a request (R335). -/
def rqOp (d : Desc) : Nat := bits d.w1.toNat 63 60
def rqModel (d : Desc) : Nat := bits d.w1.toNat 59 54
def rqOverlay (d : Desc) : Nat := bits d.w1.toNat 47 32
def rqSprof (d : Desc) : Nat := bits d.w1.toNat 31 24
def rqPipe (d : Desc) : Nat := bits d.w1.toNat 18 14
def rqEntry (d : Desc) : Nat := bits d.w1.toNat 13 0
def rqCount (d : Desc) : Nat := bits d.w3.toNat 63 32
def rqMaxNew (d : Desc) : Nat := bits d.w3.toNat 31 0
/-- Whether the reserved bits of a request are 0. -/
def rqOk (d : Desc) : Bool :=
  !bitAt d.w1.toNat 48 && bits d.w7.toNat 31 0 == 0 && bits d.w1.toNat 23 19 == 0 && (rqOp d == 5 || rqPipe d == 0)

/-- The request of an operation at the front of a partition's window is taken: not while PAUSED (R368), not before ACTIVE, not once its
TEARDOWN has begun (R490). A request
with a reserved OP is taken as an ADMIT is, and refused with BAD_DESC; so is one with non-zero RSV (R337). -/
def Mach.request (m : Mach) (p op : Nat) (act : Mach → Desc → Nat → Mach) : Mach :=
  if !m.running || m.shut p || m.part.tearing.contains p || !m.flag R.GZT_PCFG_ENABLE [p] || !(m.pstate p == psActive || m.pstate p == psDraining) then m
  else match m.admFront p with
    | none => m
    | some (d, t) =>
      let mine := rqOp d == op || (op == 1 && !(decide (1 ≤ rqOp d ∧ rqOp d ≤ 7)))
      if !mine then m
      else
        let m := (m.admPoison p).admPop p
        if !rqOk d || rqOp d != op then (if rqOp d = 1 then m.refuseAdmit p d.w0.toNat gcBadDesc else m.refuse p d.w0.toNat gcBadDesc) else act m d t

/-! ### ADMIT (R334, R336, R337, R353, R355) -/

/-- The profile passes R336. -/
def profileOk (b : List Byte) : Bool :=
  let h (o : Nat) : Fp := f32 (leAt b o 4)
  let one := Fp.ofNat 1
  let ge (x y : Fp) : Bool := x.finite && !x.lt y
  ge (h 0) .zero && (h 4).finite && Fp.zero.lt (h 4) && !one.lt (h 4) && ge (h 8) .zero && (h 8).lt one && ge (h 12) one &&
  (h 16).finite && (h 20).finite && decide (leAt b 26 2 ≤ 1024 ∧ leAt b 52 8 = 0 ∧ leAt b 60 4 = 0)

/-- A model READY and visible to a partition, whose page fits the unit (R328, R353). -/
def Mach.modelOk (m : Mach) (p s : Nat) : Bool :=
  m.fld R.GZT_ATLAS_STATE [s] == 1 && (m.atlasAt s 0 1 == p || (m.atlasAt s 0 1 == 0 && bitAt (m.atlasAt s 20 4) (p - 1))) &&
  decide (64 * m.atlasAt s 12 4 ≤ m.kvUnitBytes p)

/-- A handle value that R358 accepts for a model and an overlay ID. -/
def Mach.handleFor (m : Mach) (p v model ovl : Nat) : Option Handle :=
  (Tbl.get none m.gzt.handles (p * 4096 + v % 65536 % 4096)).bind (fun h =>
    if v % 65536 < 4096 ∧ h.serial = v / 65536 ∧ h.model = model ∧ h.ovl = ovl then some h else none)

/-- The ended entry of a partition that ended earliest (R334). -/
def Mach.reclaimable (m : Mach) (p : Nat) : Option Nat :=
  let l := (m.entsOf p).filter (fun x => x.2.st == gsDone || x.2.st == gsCancelled || x.2.st == gsFailed)
  (l.foldl (fun (b : Option (Nat × GEnt)) x => match b with
    | none => some x
    | some y => if x.2.endAt < y.2.endAt then some x else some y) none).map (fun x => x.1)

/-- The lowest gap of n bytes in prompt staging (R337). -/
def Mach.stageRoom (m : Mach) (p n : Nat) : Option Nat :=
  let base := m.fld R.GZT_PSTAGE_STAGE_BASE [p] * 64
  let size := m.fld R.GZT_PSTAGE_STAGE_MIB [p] * 2 ^ 20
  let used := ((m.entsOf p).map (fun x => x.2) ++ (m.fetchesOf p).map (fun f => f.ent)).filter (fun x => x.stage != 0)
  let starts := base :: used.map (fun x => x.stage - 1 + roundUp x.stageLen 64)
  let fits (o : Nat) : Bool := decide (o + n ≤ base + size) && used.all (fun x => decide (o + n ≤ x.stage - 1 ∨ x.stage - 1 + roundUp x.stageLen 64 ≤ o))
  (starts.filter fits).min?

/-- The checks of R337 in order: a code, or the local index and the entry to be made. -/
def Mach.admitCheck (m : Mach) (p : Nat) (d : Desc) (stamp : Nat) : Except Nat (Nat × GEnt) :=
  let s := rqModel d
  let prof := m.loadAt p (mkAddr 1 (64 * (m.fld R.GZT_PCFG_SPROF_BASE [p] + rqSprof d))) 64
  let hv := d.w4.toNat
  let h : Option Handle := if hv = 0 then none else m.handleFor p hv s (rqOverlay d)
  let ov : Option OvlVer := if rqOverlay d = 0xFFFF then none else m.ovlCurrent p (rqOverlay d) s
  let hl := (h.map (fun x => x.hlen)).getD 0
  let need := ceilDiv (hl + rqCount d + rqMaxNew d) 64 - hl / 64
  let idx := match (m.entsFree p).head? with
    | some e => some e
    | none => m.reclaimable p
  if m.pstate p = psDraining then .error gcBusy
  else if !m.modelOk p s then .error gcBadModel
  else if m.fld R.GZT_PCFG_SPROF_COUNT [p] ≤ rqSprof d ∨ !profileOk prof then .error gcBadProfile
  else if hv ≠ 0 ∧ h.isNone then .error gcBadHandle
  else if rqOverlay d ≠ 0xFFFF ∧ ov.isNone then .error gcBadOverlay
  else if rqCount d = 0 ∨ rqMaxNew d = 0 ∨ m.atlasCtx s < hl + rqCount d + rqMaxNew d then .error gcTooLong
  else match idx with
    | none => .error gcBusy
    | some e =>
      if m.kvFree p < need then .error gcNoKv
      else match m.stageRoom p (4 * rqCount d) with
        | none => .error gcNoStage
        | some o =>
          let x := { GEnt.init with tag := d.w0.toNat, st := gsAdmitted, prio := bits d.w1.toNat 53 51, rebind := bitAt d.w1.toNat 50, pin := bitAt d.w1.toNat 49 }
          let x := { x with pipe := 0xFF, model := s, ver := (h.map Handle.ver).getD (m.atlasVer s), ovl := rqOverlay d }
          let x := { x with ovlVer := (h.map Handle.ovlVer).getD ((ov.map OvlVer.version).getD 0), sprof := rqSprof d, length := hl, promptLen := rqCount d }
          let x := { x with profile := prof, seed := d.w5.toNat, gmask := d.w6.toNat, maxNew := rqMaxNew d, hlen := hl, units := (h.map Handle.units).getD [] }
          .ok (e, { x with prompt := (h.map Handle.toks).getD [], reserved := need, stage := o + 1, stageLen := 4 * rqCount d, stamp := stamp, ttft := 0xFFFFFFFF })

/-- ADMIT (R337): refused with a code, or the entry is taken, its KV reserved and its prompt fetch begun. -/
def Mach.admitReq (m : Mach) (p : Nat) : Mach :=
  m.request p 1 (fun m d t =>
    match m.admitCheck p d t with
    | .error code => m.refuseAdmit p d.w0.toNat code
    | .ok (e, x) =>
      let m := m.putEnt p e GEnt.init
      (m.withGzt { m.gzt with fetches := Tbl.set [] m.gzt.fetches p (m.fetchesOf p ++ [{ idx := e, addr := d.w2.toNat, ent := x }]) }).gztSync p)

/-- PROMPT_FETCH_DONE (R333, R337): the entry becomes ADMITTED with its prompt staged, or the request is refused. No fetch succeeds while
the port is down (R476). -/
def Mach.promptDone (m : Mach) (p : Nat) (how : FetchEnd) : Mach :=
  match m.fetchesOf p with
  | [] => m
  | f :: l =>
    if m.shut p || (how != .fails && !m.portUp p) then m
    else
    let m := m.withGzt { m.gzt with fetches := Tbl.set [] m.gzt.fetches p l }
    match how with
    | .fails => ((m.ovlSweep p).gztSync p).refuseAdmit p f.ent.tag gcPromptFetch
    | .good ep =>
      let bs := m.load (m.partHostKey p f.addr) f.ent.stageLen
      let dst := (m.transomSegs p (f.ent.stage - 1) f.ent.stageLen).getD []
      let m := (m.fetchIn (m.partHostKey p f.addr) f.ent.stageLen dst ep).meter p mHost f.ent.stageLen
      let dl := leAt f.ent.profile 48 4
      let x := { f.ent with tLast := m.now, deadline := if dl = 0 then 0 else m.now + dl * 10 ^ 6, order := m.gzt.order }
      let x := { x with prompt := f.ent.prompt ++ (List.range (bs.length / 4)).map (fun i => leAt bs (4 * i) 4) }
      let m := m.withGzt { m.gzt with order := m.gzt.order + 1 }
      let m := (m.putEnt p f.idx x)
      let m := if x.units.isEmpty then m else m.writePlist p f.idx
      let m := m.gztSync p
      let m := m.mirror p ([1] ++ m.mirrorEnt p f.idx)
      m.event p (eventBytes x.tag f.idx ekAdmitted gcOk 0 0 0 0)

/-! ### CANCEL, RETIRE, RELEASE, MIGRATE (R333, R339, R358, R366) -/

/-- The entry that a request names by index and tag (R339). -/
def Mach.named (m : Mach) (p : Nat) (d : Desc) : Option GEnt :=
  let x := m.ent p (rqEntry d)
  if rqEntry d < m.entCount p ∧ x.st ≠ gsFree ∧ x.tag = d.w0.toNat then some x else none

/-- CANCEL. -/
def Mach.cancelReq (m : Mach) (p : Nat) : Mach :=
  m.request p 2 (fun m d t =>
    let e := rqEntry d
    match m.named p d with
    | none => m.event p (eventBytes d.w0.toNat e ekCancel gcNotFound 0 0 0 0)
    | some x =>
      if x.st = gsAdmitted then
        (m.putEnt p e { x with cancels := [t] }).endNow p e gcCancelled
      else if gsLive x.st then m.putEnt p e { x with cancels := x.cancels ++ [t] }
      else m.event p (eventBytes x.tag e ekCancel gcAlreadyDone x.st 0 0 0))

/-- RETIRE: an ended entry becomes FREE with its fields zero. -/
def Mach.retireReq (m : Mach) (p : Nat) : Mach :=
  m.request p 3 (fun m d _ =>
    match m.named p d with
    | some x => if gsLive x.st then m.refuse p d.w0.toNat gcNotFound else (m.putEnt p (rqEntry d) GEnt.init).gztSync p
    | none => m.refuse p d.w0.toNat gcNotFound)

/-- RELEASE: a handle's references go and its slot is free. -/
def Mach.releaseReq (m : Mach) (p : Nat) : Mach :=
  m.request p 4 (fun m d _ =>
    let v := d.w4.toNat
    match Tbl.get none m.gzt.handles (p * 4096 + v % 65536 % 4096) with
    | some h =>
      if v % 65536 < 4096 ∧ h.serial = v / 65536 then
        let m := m.withGzt { m.gzt with handles := Tbl.set none m.gzt.handles (p * 4096 + v % 4096) none }
        ((m.event p (eventBytes d.w0.toNat 0xFFFF ekReleased gcOk 0 0 0 0)).ovlSweep p).gztSync p
      else m.event p (eventBytes d.w0.toNat 0xFFFF ekReleased gcNotFound 0 0 0 0)
    | none => m.event p (eventBytes d.w0.toNat 0xFFFF ekReleased gcNotFound 0 0 0 0))

/-- Whether a pipeline can take an entry from another one (R366): enabled, same partition, same model version, room. -/
def Mach.takesEntry (m : Mach) (n : Nat) (x : GEnt) : Bool :=
  m.plOn n && n != x.pipe && m.flag R.GZT_PIPESTAT_MODEL_VALID [n] && m.fld R.GZT_PIPESTAT_MODEL [n] == x.model && m.atlasVer x.model == x.ver &&
  decide ((m.plBound n).length < m.fld R.GZT_PIPECFG_MAX_ROWS [n] * m.plGroups n)

/-- MIGRATE. -/
def Mach.migrateReq (m : Mach) (p : Nat) : Mach :=
  m.request p 5 (fun m d _ =>
    match m.named p d with
    | none => m.refuse p d.w0.toNat gcNotFound
    | some x =>
      if x.st ≠ gsDecode ∨ m.pipePart (rqPipe d) ≠ p ∨ !m.takesEntry (rqPipe d) x then m.refuse p d.w0.toNat gcPipeline
      else m.putEnt p (rqEntry d) { x with st := gsMigrating, target := rqPipe d + 1 })

/-! ### Overlays (R359, R360) -/

/-- The lowest run of k free units that the reservations leave. -/
def Mach.unitRun (m : Mach) (p k : Nat) : Option Nat :=
  let free := m.unitsFree p
  if m.kvFree p < k then none else free.find? (fun u => (List.range k).all (fun i => free.contains (u + i)))

/-- OVL_LOAD. -/
def Mach.ovlLoad (m : Mach) (p : Nat) : Mach :=
  m.request p 6 (fun m d _ =>
    let id := rqOverlay d
    let live := (m.ovlsOf p).length + (m.ovlFetchesOf p).length
    let mine := ((m.ovlsOf p).filter (fun o => o.id == id)).length + ((m.ovlFetchesOf p).filter (fun o => o.id == id)).length
    let tag := d.w0.toNat
    let k := ceilDiv (rqCount d) (max 1 (m.kvUnitBytes p))
    if id = 0xFFFF ∨ rqCount d = 0 ∨ rqCount d % 64 ≠ 0 then m.refuse p tag gcBadDesc
    else if !m.modelOk p (rqModel d) then m.refuse p tag gcBadModel
    else if m.fld R.GZT_PQUOTA_OVL_VERS [p] ≤ live ∨ 4 ≤ mine then m.event p (eventBytes tag 0xFFFF ekOverlay gcOvlBusy 0 id 0 0)
    else match m.unitRun p k with
      | none => m.event p (eventBytes tag 0xFFFF ekOverlay gcNoKv 0 id 0 0)
      | some u =>
        (m.withGzt { m.gzt with ovlFetches := Tbl.set [] m.gzt.ovlFetches p (m.ovlFetchesOf p ++
          [{ tag := tag, id := id, model := rqModel d, addr := d.w2.toNat, bytes := rqCount d, units := (List.range k).map (fun i => u + i) }]) }).gztSync p)

/-- The HBM offset of a unit (R353). -/
def Mach.unitOff (m : Mach) (p u : Nat) : Nat := m.fld R.GZT_PKV_BASE [p] * 2 ^ 21 + u * m.kvUnitBytes p

/-- OVERLAY_FETCH_DONE: the oldest overlay fetch of a partition ends. -/
def Mach.overlayDone (m : Mach) (p : Nat) (how : FetchEnd) : Mach :=
  match m.ovlFetchesOf p with
  | [] => m
  | f :: l =>
    if m.shut p || (how != .fails && !m.portUp p) then m
    else
    let m := m.withGzt { m.gzt with ovlFetches := Tbl.set [] m.gzt.ovlFetches p l }
    match how with
    | .fails => (m.gztSync p).event p (eventBytes f.tag 0xFFFF ekOverlay gcOvlFetch 0 f.id 0 0)
    | .good ep =>
      let dst := (m.segs p none true (mkAddr 2 (m.unitOff p (f.units.headD 0))) f.bytes).getD []
      let m := ((m.fetchIn (m.partHostKey p f.addr) f.bytes dst ep).meter p mHbmWr f.bytes).meter p mHost f.bytes
      let v := Tbl.get 0 m.gzt.ovlTop (p * 65536 + f.id) + 1
      let old := (m.ovlsOf p).map (fun o => if o.id = f.id ∧ o.model = f.model then { o with current := false } else o)
      let m := m.withGzt { m.gzt with ovls := Tbl.set [] m.gzt.ovls p (old ++ [{ id := f.id, model := f.model, version := v, units := f.units, current := true }]),
                                      ovlTop := Tbl.set 0 m.gzt.ovlTop (p * 65536 + f.id) v }
      ((m.event p (eventBytes f.tag 0xFFFF ekOverlay gcOk v f.id 0 0)).ovlSweep p).gztSync p

/-- OVL_DROP: the ID has no current version. -/
def Mach.ovlDrop (m : Mach) (p : Nat) : Mach :=
  m.request p 7 (fun m d _ =>
    let id := rqOverlay d
    match m.ovlCurrent p id (rqModel d) with
    | none => m.event p (eventBytes d.w0.toNat 0xFFFF ekOverlay gcNotFound 0 id 0 0)
    | some o =>
      let m := m.withGzt { m.gzt with ovls := Tbl.set [] m.gzt.ovls p ((m.ovlsOf p).map (fun y => if y = o then { y with current := false } else y)) }
      (m.event p (eventBytes d.w0.toNat 0xFFFF ekOverlay gcOk o.version id 0 0)).ovlSweep p)

/-! ### The atlas (R328) -/

/-- A pipeline, an entry or a handle is bound to an atlas slot. -/
def Mach.atlasUsed (m : Mach) (s : Nat) : Bool :=
  (List.range 32).any (fun n => m.plState n != plDisabled && m.flag R.GZT_PIPESTAT_MODEL_VALID [n] && m.fld R.GZT_PIPESTAT_MODEL [n] == s) ||
  m.gzt.ents.any (fun x => gsLive x.2.st && x.2.model == s) || m.gzt.fetches.any (fun l => l.2.any (fun f => f.ent.model == s)) ||
  m.gzt.handles.any (fun h => (h.2.map (fun x => x.model == s)).getD false)

/-- Whether an owner may write and command an atlas slot (R328). -/
def Mach.atlasMay (m : Mach) (o s : Nat) : Bool := o == 0 || bitAt (m.fld R.GZT_PATLAS_SLOTS [o]) s

/-- REGISTER. -/
def Mach.atlasRegister (m : Mach) (o s : Nat) : Mach :=
  if !m.atlasMay o s then m
  else if m.fld R.GZT_ATLAS_STATE [s] ≠ 0 then m.setFld R.GZT_ATLAS_CODE [s] gcSlotBusy
  else
    let vocab := m.atlasVocab s
    let ctx := m.atlasCtx s
    let ok := m.atlasAt s 0 1 == o && decide (1 ≤ vocab ∧ vocab ≤ 2 ^ 20 ∧ 64 ≤ ctx ∧ ctx % 64 = 0 ∧ ctx ≤ 2 ^ 20) &&
      decide (1 ≤ m.atlasAt s 18 2 ∧ m.atlasAt s 18 2 ≤ 24 ∧ m.atlasAt s 24 40 = 0)
    if !ok then m.setFld R.GZT_ATLAS_CODE [s] gcBadModel
    else
      let v := if m.atlasVer s = 0xFFFF then 1 else m.atlasVer s + 1
      let w0 := m.fld R.GZT_ATLAS_DESC_WORD [s, 0]
      (m.setFld R.GZT_ATLAS_DESC_WORD [s, 0] (putBits w0 31 16 v)).setFlds [s] [(R.GZT_ATLAS_STATE, 1), (R.GZT_ATLAS_CODE, gcOk)]

/-- DROP. -/
def Mach.atlasDrop (m : Mach) (o s : Nat) : Mach :=
  if !m.atlasMay o s then m
  else if m.fld R.GZT_ATLAS_STATE [s] ≠ 1 ∨ m.atlasUsed s then m.setFld R.GZT_ATLAS_CODE [s] gcSlotBusy
  else m.setFlds [s] [(R.GZT_ATLAS_STATE, 0), (R.GZT_ATLAS_CODE, gcOk)]

/-- LINGER_EXPIRY: an ended entry whose time has passed becomes FREE (R334). -/
def Mach.lingerExpiry (m : Mach) (g : Nat) : Mach :=
  let x := Tbl.get GEnt.init m.gzt.ents g
  let p := m.entPart g
  let l := m.fld R.GZT_PCFG_LINGER [p] * 10000
  if p ≠ 0 ∧ !m.shut p ∧ x.st ≠ gsFree ∧ !gsLive x.st ∧ l ≠ 0 ∧ x.endAt + l ≤ m.now then
    (m.withGzt { m.gzt with ents := Tbl.set GEnt.init m.gzt.ents g GEnt.init }).gztSync p
  else m

end Sys2Proof.Machine
end

