-- ==== Sys2Proof/Machine/TxnOps.lean ====
section
/-! DEFINITION. Transactions as the machine sees them: states, result codes, the hold of a partition at a step boundary, the end (R208, R224, R226). -/

namespace Sys2Proof.Machine

/-! ### Transactions (R224) -/

/-- States and result codes of transactions (R208, R224). -/
def txIdle : Nat := 0
def txOpen : Nat := 1
def txVerifying : Nat := 2
def txCommitting : Nat := 3
def rcTxnState : Nat := 0x20
def rcTxnFull : Nat := 0x21
def rcTxnDenied : Nat := 0x22
def rcTxnMixed : Nat := 0x23
def rcTxnBase : Nat := 0x24
def rcTxnConflict : Nat := 0x25
def rcTxnTimeout : Nat := 0x26
def rcTxnFault : Nat := 0x27
def rcTxnAborted : Nat := 0x28
def rcTxnAddr : Nat := 0x29
def rcPartBusy : Nat := 0x2A
def rcChartBusy : Nat := 0x30
def rcFlashFail : Nat := 0x31
def rcHostFetch : Nat := 0x32
/-- STATE of an owner's transaction. -/
def Mach.txState (m : Mach) (o : Nat) : Nat := m.fld R.CFG_TXN_STATUS_STATE [o]
/-- A transaction comes to a state, and its owner's VF hears of it (R472). -/
def Mach.txMove (m : Mach) (o st : Nat) : Mach := (m.setFld R.CFG_TXN_STATUS_STATE [o] st).vfVector o 7
/-- A transaction ends with a result: its shadow is discarded and its held partitions are released (R224). -/
def Mach.txEnd (m : Mach) (o code : Nat) : Mach :=
  let m := m.setFlds [o] [(R.CFG_TXN_STATUS_STATE, txIdle), (R.CFG_TXN_STATUS_RESULT, code), (R.CFG_TXN_STATUS_WRITES, 0),
    (R.CFG_TXN_STATUS_DELTA, 0), (R.CFG_TXN_STATUS_HOLDING, 0)]
  ((m.setTxn o Txn.init).release o).ownerVector o 7 2
/-- An open transaction ends with a result. -/
def Mach.txDrop (m : Mach) (o code : Nat) : Mach := if m.txState o = txIdle then m else m.txEnd o code
/-- A committing transaction that affects a partition which faults ends with TXN_FAULT, before its validation ends too (R224). -/
def Mach.txFault (m : Mach) (p : Nat) : Mach :=
  (List.range 33).foldl (fun m o => if m.txState o = txCommitting ∧ (m.txn o).affected.contains p then m.txEnd o rcTxnFault else m) m

/-- A committing transaction, once validated, holds an affected partition from its step boundary on; its hold starts with the first one
(R226). -/
def Mach.txHold (m : Mach) (o p : Nat) : Mach :=
  let t := m.txn o
  let m := m.hold p o
  if m.flag R.CFG_TXN_STATUS_HOLDING [o] then m
  else (m.setTxn o { t with holdAt := m.now }).setFld R.CFG_TXN_STATUS_HOLDING [o] 1
/-- A partition reaches a step boundary (R226). -/
def Mach.txBoundary (m : Mach) (p : Nat) : Mach :=
  (List.range 33).foldl (fun m o =>
    if m.txState o = txCommitting ∧ (m.txn o).valid ∧ (m.txn o).affected.contains p ∧ !m.part.holds.contains (p, o) then m.txHold o p else m) m

end Sys2Proof.Machine
end

