-- ==== Sys2Proof/Machine/SealOps.lean ====
section
/-! DEFINITION. Steps of a serving pipeline: enabling, opening with its manifest, sealing, shedding, disabling (R326 to R330, R340 to R344, R360 to R367). -/

namespace Sys2Proof.Machine

/-- STATE of a pipeline written, with its event vector. -/
def Mach.setPlState (m : Mach) (n st : Nat) : Mach := (m.setFld R.GZT_PIPESTAT_STATE [n] st).vfVector (m.pipePart n) 7

/-- PIPELINE_ENABLE (R326). -/
def Mach.pipeEnable (m : Mach) (n : Nat) : Mach :=
  if m.plState n ≠ plDisabled then m
  else
    let p := m.pipePart n
    let sts := m.plStages n
    let ok := decide (1 ≤ sts.length ∧ sts.length ≤ 24) && sts.all (fun st => (m.conf.cfg.stage st).isSome && ((m.conf.cfg.stage st).map (fun e => leAt e 3 1)).getD 0 == 3 &&
        m.conf.cfg.stagePart st == p) && !m.conf.cfg.shared p && m.fld R.GZT_PIPECTL_SAMPLERS [n] != 0 &&
      (List.range 32).all (fun k => k == n || m.plState k == plDisabled || !(m.plStages k).any (fun st => sts.contains st))
    if !ok then m.setFlds [n] [(R.GZT_PIPESTAT_CODE, 1), (R.GZT_PIPECTL_ENABLE, 0)]
    else
      (((m.setPipe n Pipe.init).setFlds [n] [(R.GZT_PIPESTAT_CODE, 0), (R.GZT_PIPECTL_ENABLE, 1), (R.GZT_PIPESTAT_STEP, 0), (R.GZT_PIPESTAT_SHEDDING, 0),
        (R.GZT_PIPESTAT_MODEL_VALID, 0)]).setPlState n plIdle).gztSync p

/-- An entry has a row in a step that is open. -/
def Mach.inStep (m : Mach) (n e : Nat) : Bool := (m.pipe n).opened.any (fun s => s.rows.any (fun r => r.idx == e))

/-- A draining pipeline with no open step lets its bound entries go, and is DISABLED once none is bound (R366); an entry whose target no
longer opens steps is let go anew. -/
def Mach.pipeDrain (m : Mach) (n : Nat) : Mach :=
  let p := m.pipePart n
  if m.plState n ≠ plDraining ∨ !(m.pipe n).opened.isEmpty then m
  else
    let m := (m.plBound n).foldl (fun m x =>
      if x.2.st = gsMigrating ∧ x.2.target ≠ 0 ∧ m.plOn (x.2.target - 1) then m
      else match (List.range 32).find? (fun k => m.pipePart k == p && m.takesEntry k x.2) with
        | some k => if x.2.st = gsDecode ∨ (x.2.st = gsMigrating ∧ x.2.target ≠ 0) then m.putEnt p x.1 { x.2 with st := gsMigrating, target := k + 1 } else m.endNow p x.1 gcPipeline
        | none => m.endNow p x.1 gcPipeline) m
    if (m.plBound n).isEmpty then
      ((m.setPipe n Pipe.init).setFld R.GZT_PIPESTAT_MODEL_VALID [n] 0).setPlState n plDisabled
    else m
/-- Every draining pipeline of a partition goes on. -/
def Mach.pipesDrain (m : Mach) (p : Nat) : Mach := (List.range 32).foldl (fun m n => if m.pipePart n = p then m.pipeDrain n else m) m
/-- PIPELINE_DISABLE (R366). -/
def Mach.pipeDisable (m : Mach) (n : Nat) : Mach :=
  let m := m.setFld R.GZT_PIPECTL_ENABLE [n] 0
  if m.plOn n then ((m.setPlState n plDraining).pipesDrain (m.pipePart n)).gztSync (m.pipePart n) else m

/-! ### Opening a step (R329, R330, R340 to R342, R349, R362) -/

/-- Admission order among the entries that wait for prefill: priority, deadline with none last, admission (R341). -/
def prefillBefore (a b : GEnt) : Bool :=
  let d (x : GEnt) : Nat := if x.deadline = 0 then 2 ^ 64 else x.deadline
  decide (b.prio < a.prio) || (a.prio == b.prio && (decide (d a < d b) || (d a == d b && decide (a.order < b.order))))
/-- Order among decode rows: priority, earlier T_LAST, lower index (R341). -/
def decodeBefore (a b : Nat × GEnt) : Bool :=
  decide (b.2.prio < a.2.prio) || (a.2.prio == b.2.prio && (decide (a.2.tLast < b.2.tLast) || (a.2.tLast == b.2.tLast && decide (a.1 < b.1))))
/-- Insertion into a list in an order. -/
def insertBy {α : Type} (lt : α → α → Bool) (x : α) : List α → List α
  | [] => [x]
  | y :: l => if lt x y then x :: y :: l else y :: insertBy lt x l
/-- A list in an order. -/
def sortBy {α : Type} (lt : α → α → Bool) (l : List α) : List α := l.foldl (fun acc x => insertBy lt x acc) []

/-- The entries bound to a group of a pipeline. -/
def Mach.inGroup (m : Mach) (n g : Nat) : Nat := ((m.plBound n).filter (fun x => x.2.group == g)).length
/-- The group with the fewest bound entries, the lower number first (R340). -/
def Mach.fewestGroup (m : Mach) (n : Nat) : Nat :=
  (List.range (m.plGroups n)).foldl (fun b g => if m.inGroup n g < m.inGroup n b then g else b) 0
/-- How many entries can bind to group j, one after another, while it is the group with the fewest (R340, log entry 70); as many as there are
entries where it is the only group. -/
def Mach.groupTakes (m : Mach) (n j : Nat) : Nat :=
  (((List.range (m.plGroups n)).filter (fun g => g != j)).map (fun g => m.inGroup n g + b2n (decide (j < g)) - m.inGroup n j)).foldl min 16384

/-- The pipeline that a waiting model gets (R330): the candidate whose last step sealed earliest. -/
def Mach.candidate (m : Mach) (p s : Nat) : Option Nat :=
  let l := (List.range 32).filter (fun n => m.pipePart n == p && m.plOn n && m.fld R.GZT_PIPECTL_CLASS [n] == m.atlasAt s 1 1 &&
    m.fld R.GZT_PIPECTL_STAGES [n] == m.atlasAt s 18 2 && (m.plBound n).isEmpty && (m.pipe n).opened.isEmpty)
  l.foldl (fun (b : Option Nat) n => match b with
    | none => some n
    | some k => if (m.pipe n).lastSeal < (m.pipe k).lastSeal then some n else some k) none

/-- The ADMITTED entries of a partition, and promoted entries without a pipeline, in the order of R341. -/
def Mach.waitingEnts (m : Mach) (p : Nat) : List (Nat × GEnt) :=
  sortBy (fun a b => prefillBefore a.2 b.2) ((m.entsOf p).filter (fun x => x.2.st == gsAdmitted || (x.2.st == gsMigrating && x.2.rebuild != 0 && x.2.pipe == 0xFF)))

/-- The model that a pipeline switches to at its next step open, if a switch is due (R330). -/
def Mach.switchDue (m : Mach) (n : Nat) : Option Nat :=
  let p := m.pipePart n
  let runs (s : Nat) : Bool := (List.range 32).any (fun k => m.pipePart k == p && m.plOn k && m.flag R.GZT_PIPESTAT_MODEL_VALID [k] && m.fld R.GZT_PIPESTAT_MODEL [k] == s)
  ((m.waitingEnts p).find? (fun x => !runs x.2.model && m.candidate p x.2.model == some n)).map (fun x => x.2.model)
/-- A pipeline switches to a model: a7 of stream F on the panes of each stage, and MODEL (R329). -/
def Mach.switchTo (m : Mach) (n model : Nat) : Mach :=
  let m := (m.plStages n).zipIdx.foldl (fun m st =>
    (m.conf.cfg.stagePanes st.1).foldl (fun m q =>
      m.setStream q 0 ((m.stream q 0).setA 7 (BitVec.ofNat 64 (m.atlasAt model (64 + 8 * st.2) 8)))) m) m
  m.setFlds [n] [(R.GZT_PIPESTAT_MODEL, model), (R.GZT_PIPESTAT_MODEL_VALID, 1)]
/-- The model of a step that a pipeline would open now: the one it switches to, else the one it runs. -/
def Mach.stepModel (m : Mach) (n : Nat) : Option Nat :=
  match m.switchDue n with
  | some s => some s
  | none => if m.flag R.GZT_PIPESTAT_MODEL_VALID [n] then some (m.fld R.GZT_PIPESTAT_MODEL [n]) else none

/-- The position a row samples is allowed by the entry's mask block (R349). -/
def Mach.maskReady (m : Mach) (p : Nat) (x : GEnt) (pos : Nat) : Bool :=
  x.gmask == 0 || (let v := ofLe (m.loadAt p (BitVec.ofNat 64 x.gmask) 4)
                   v == pos || v == 0xFFFFFFFF)

/-- A decode row of an entry: its previous token at its position (R342). -/
def GEnt.decodeRow (x : GEnt) (e : Nat) : SRow :=
  { idx := e, flags := 0, count := 1, pos := x.length - 1, ctx := x.length, wants := true, sampled := 0, tok := 0, lp := 0, poisoned := false }

/-- The tokens an entry has still to prefill or rebuild. -/
def GEnt.left (x : GEnt) : Nat := (if x.rebuild = 0 then x.hlen + x.promptLen else x.rebuild) - x.length

/-- A prefill row of k tokens (R342). -/
def GEnt.prefillRow (x : GEnt) (e k : Nat) : SRow :=
  let last := decide (x.left ≤ k)
  { idx := e, flags := 1 + 2 * b2n last + 4 * b2n (x.rebuild != 0), count := k, pos := x.length, ctx := x.length + k, wants := last, sampled := 0, tok := 0, lp := 0, poisoned := false }

/-- Decode rows taken in order while rows last, and how many entries were held for their mask on the way (R341, R349). -/
def takeDecode (ready : GEnt → Nat → Bool) : Nat → List (Nat × GEnt) → List SRow × Nat
  | _, [] => ([], 0)
  | 0, _ => ([], 0)
  | rows + 1, x :: l =>
    if ready x.2 x.2.length then
      let r := takeDecode ready rows l
      (x.2.decodeRow x.1 :: r.1, r.2)
    else
      let r := takeDecode ready (rows + 1) l
      (r.1, r.2 + 1)

/-- Prefill rows taken in order while rows and budget last, and how many entries were held for their mask on the way: only a row that would
be sampled asks for it (R341, R349). An entry without a pipeline is passed over once its group has taken binds of them (R340). -/
def takePrefill (ready : GEnt → Nat → Bool) (chunk : Nat) : Nat → Nat → Nat → List (Nat × GEnt) → List SRow × Nat
  | _, _, _, [] => ([], 0)
  | rows, budget, binds, x :: l =>
    let want := min x.2.left (chunk * 64)
    let k := min want budget
    let new := x.2.pipe == 0xFF
    if rows = 0 ∨ k = 0 ∨ (k < 64 ∧ k < x.2.left) then ([], 0)
    else if new ∧ binds = 0 then takePrefill ready chunk rows budget binds l
    else if x.2.left ≤ k ∧ !ready x.2 (x.2.length + x.2.left) then
      let r := takePrefill ready chunk rows budget binds l
      (r.1, r.2 + 1)
    else
      let r := if k < want then ([], 0) else takePrefill ready chunk (rows - 1) (budget - k) (if new then binds - 1 else binds) l
      (x.2.prefillRow x.1 k :: r.1, r.2)

/-- The 64 bytes of a manifest row (R342). -/
def Mach.rowBytes (m : Mach) (p : Nat) (r : SRow) : List Byte :=
  let x := m.ent p r.idx
  let pre := bitAt r.flags 0
  let ov := ((m.ovlsOf p).find? (fun o => o.id == x.ovl && o.version == x.ovlVer)).map (fun o => (mkAddr 2 (m.unitOff p (o.units.headD 0))).toNat)
  leBytes 2 r.idx ++ leBytes 2 r.flags ++ leBytes 4 r.count ++ leBytes 4 r.pos ++ leBytes 4 (if pre then 0 else x.lastTok) ++
  leBytes 8 (if pre then (mkAddr 1 (x.stage - 1 + 4 * (r.pos - x.hlen))).toNat else 0) ++ leBytes 8 (mkAddr 2 (m.plistOff p r.idx)).toNat ++
  leBytes 8 (if x.ovl = 0xFFFF then 0 else ov.getD 0) ++ leBytes 4 r.ctx ++ leBytes 20 0

/-- The manifest of a step in its buffer (R342). -/
def Mach.writeManifest (m : Mach) (n step : Nat) (rows : List SRow) : Mach :=
  let p := m.pipePart n
  let rowsMax := m.fld R.GZT_PIPECFG_MAX_ROWS [n]
  let off := m.fld R.GZT_PIPECFG_MANIFEST [n] * 64 + step % 2 * (64 + 64 * rowsMax)
  let ovs := (rows.map (fun r => let x := m.ent p r.idx
                                 (x.ovl, x.ovlVer))).filter (fun o => o.1 != 0xFFFF)
  let hd := leBytes 4 step ++ leBytes 4 rows.length ++ leBytes 4 ((rows.map (fun r => r.count)).sum) ++ leBytes 1 (m.fld R.GZT_PIPESTAT_MODEL [n]) ++
    leBytes 1 ovs.eraseDups.length ++ leBytes 50 0
  m.storeAt p (mkAddr 1 off) (hd ++ rows.flatMap (m.rowBytes p))

/-- The entries of a partition past their deadline before any pipeline took them (R362). -/
def Mach.expireAdmitted (m : Mach) (p : Nat) : Mach :=
  (m.entsOf p).foldl (fun m x => if x.2.st = gsAdmitted ∧ x.2.deadline ≠ 0 ∧ x.2.deadline < m.now then m.endNow p x.1 gcDeadline else m) m

/-- Whether a pipeline may open its next step (R340, R347, R368): its group's last step has sealed, no batch of it waits for the
ring, and stage 0 can take the launch. -/
def Mach.mayOpen (m : Mach) (n : Nat) : Bool :=
  let p := m.pipePart n
  let x := m.pipe n
  let panes := m.conf.cfg.stagePanes (m.fld R.GZT_PIPECTL_FIRST_STAGE [n])
  m.running && m.plOn n && (m.pstate p == psActive || m.pstate p == psDraining) && !m.held p && !m.part.tearing.contains p &&
  decide (x.opened.length < m.plGroups n) && !x.opened.any (fun s => s.group == x.next % m.plGroups n) &&
  !(m.batchesOf p).any (fun b => b.pipe == n && b.waited) &&
  panes.all (fun q => (m.sstate q 0 == ssIdle || m.sstate q 0 == ssFault) && m.mayStart p q)

/-- STEP_OPEN (R340, R341, R347, R349; log entry 71). -/
def Mach.stepOpenPipe (m : Mach) (n : Nat) : Mach :=
  if !m.mayOpen n then m
  else
    let p := m.pipePart n
    let j := (m.pipe n).next % m.plGroups n
    let m := m.expireAdmitted p
    -- entries that migrate to this pipeline and are in no open step of their old one
    let m := (m.entsOf p).foldl (fun m x =>
      if x.2.st = gsMigrating ∧ x.2.target = n + 1 ∧ !m.inStep x.2.pipe x.1 then
        let old := x.2.pipe
        (m.putEnt p x.1 { x.2 with st := gsDecode, pipe := n, group := m.fewestGroup n, target := 0 }).pipeDrain old
      else m) m
    let mine := (m.plBound n).filter (fun x => x.2.group == j)
    let dec := sortBy decodeBefore (mine.filter (fun x => x.2.st == gsDecode))
    let rmax := m.fld R.GZT_PIPECFG_MAX_ROWS [n]
    let drows := takeDecode (m.maskReady p) rmax dec
    let model := m.stepModel n
    let pre := sortBy (fun a b => prefillBefore a.2 b.2) (mine.filter (fun x => x.2.st == gsPrefill || (x.2.st == gsMigrating && x.2.rebuild != 0)))
    let wait := if m.flag R.GZT_PIPESTAT_SHEDDING [n] then []
                else (m.waitingEnts p).filter (fun x => model == some x.2.model)
    let prows := takePrefill (m.maskReady p) (m.fld R.GZT_PIPECFG_CHUNK [n]) (rmax - drows.1.length) (m.fld R.GZT_PIPECFG_PREFILL_BUDGET [n])
      (m.groupTakes n j) (pre ++ wait)
    let m := m.addSat R.GZT_PSTAT_MASK_WAIT [p] (drows.2 + prows.2)
    let rows := drows.1 ++ prows.1
    -- a turn without rows opens where another group has entries or is the one that a waiting entry binds to: its step cannot open before (R340)
    let others := (m.plBound n).any (fun x => x.2.group != j) || (!wait.isEmpty && m.groupTakes n j == 0)
    if rows.isEmpty && !others then m.gztSync p
    else
      let m := match m.switchDue n with
        | some s => m.switchTo n s
        | none => m
      let m := prows.1.foldl (fun m r =>
        let x := m.ent p r.idx
        if x.pipe = 0xFF then m.putEnt p r.idx { x with st := if x.st = gsAdmitted then gsPrefill else x.st, pipe := n, group := j } else m) m
      let m := rows.foldl (fun m r => m.takeUnits p r.idx r.ctx) m
      let x := m.pipe n
      let retry := x.retry.contains j
      let step := x.next
      let m := m.writeManifest n (step % 2 ^ 32) rows
      let m := m.setPipe n { x with next := step + 1, retry := eraseNat j x.retry,
                                    opened := x.opened ++ [{ n := step, group := j, openAt := m.now, rows := rows, retry := retry, broken := false }] }
      let d : Desc := { w0 := BitVec.ofNat 64 (n * 2 ^ 48 + step % 2 * 2 ^ 32 + step % 2 ^ 32), w1 := BitVec.ofNat 64 (3 * 2 ^ 60 + 0xFF * 2 ^ 50 + 0xFF * 2 ^ 42),
                        w2 := 0, w3 := 0, w4 := 0, w5 := BitVec.ofNat 64 (m.fld R.GZT_PIPECTL_ENTRY [n] * 2 ^ 48), w6 := 0, w7 := 0 }
      let m := (m.conf.cfg.stagePanes (m.fld R.GZT_PIPECTL_FIRST_STAGE [n])).foldl (fun m q => (m.launchStream q 0 d).1) m
      let m := if m.plState n = plIdle then m.setPlState n plRunning else m
      m.gztSync p

/-! ### Sealing (R333, R343, R344, R350, R357, R360 to R363, R367) -/

/-- Commands with a step number on the panes of a pipeline that have not ended, split-K slices that wait for their tile apart. -/
def Mach.plBusy (m : Mach) (n step : Nat) : Bool :=
  (m.plPanes n).any (fun q => ({ m.pane q with split := [] }).cmds.any (fun c => c.desc.step == step))
/-- Such slices. -/
def Mach.plSplits (m : Mach) (n step : Nat) : List Run :=
  (m.plPanes n).flatMap (fun q => (m.pane q).split.filter (fun r => r.cmd.desc.step == step))

/-- A token of an entry enters its token log, 1,024 tokens of 4 bytes (R350). -/
def Mach.logToken (m : Mach) (p e i tok : Nat) : Mach :=
  m.storeAt p (mkAddr 1 (m.fld R.GZT_PSTAGE_TOKLOG_BASE [p] * 64 + e * 4096 + i % 1024 * 4)) (leBytes 4 tok)

/-- A handle for an entry that reaches DECODE with PIN (R357). -/
def Mach.makeHandle (m : Mach) (p e : Nat) : Mach :=
  let x := m.ent p e
  let hl := 64 * ((x.hlen + x.promptLen) / 64)
  match (List.range (m.fld R.GZT_PQUOTA_HANDLES [p])).find? (fun k => (Tbl.get none m.gzt.handles (p * 4096 + k)).isNone) with
  | none => m.event p (eventBytes x.tag e ekHandle gcHandleFull 0 0 0 0)
  | some k =>
    let s := (Tbl.get 0 m.gzt.serials p + 1) % 2 ^ 48
    let h : Handle := { serial := s, model := x.model, ver := x.ver, ovl := x.ovl, ovlVer := x.ovlVer, hlen := hl, units := x.units.take (hl / 64), toks := (x.prompt ++ x.tokens).take hl }
    let m := m.withGzt { m.gzt with handles := Tbl.set none m.gzt.handles (p * 4096 + k) (some h), serials := Tbl.set 0 m.gzt.serials p s }
    m.event p (eventBytes x.tag e ekHandle gcOk hl (s * 65536 + k) 0 0)

/-- The end reason of a token (R350), 0 where it is not final; x is the entry after the token. -/
def Mach.finalReason (m : Mach) (x : GEnt) (tok : Nat) : Nat :=
  if (List.range 4).any (fun i => leAt x.profile (28 + 4 * i) 4 == tok && tok != 0xFFFFFFFF) then gcStopToken
  else if x.maxNew ≤ x.generated then gcMaxNew
  else if m.atlasCtx x.model ≤ x.length then gcMaxCtx
  else 0

/-- Token and event records of a seal so far. -/
structure SealAcc where
  m : Mach
  toks : List (List Byte)
  evs : List (List Byte)

/-- An entry ends within a seal. -/
def SealAcc.finish (a : SealAcc) (p e code : Nat) : SealAcc :=
  let r := a.m.endEntry p e code
  { a with m := r.1, evs := a.evs ++ r.2 }

/-- One row of a sealing step with its token: LENGTH, times, log, LATENCY counts, state, handle (R333, R361). -/
def SealAcc.token (a : SealAcc) (p e : Nat) (r : SRow) (retry : Bool) : SealAcc :=
  let m := a.m
  let x := m.ent p e
  let first := decide (x.generated = 0)
  let pre := bitAt r.flags 0
  let m := m.logToken p e x.generated r.tok
  let us := (m.now - x.stamp) / 1000
  let tbt := m.now - x.tLast
  let late := !retry && (if first then (leAt x.profile 44 2 != 0 && decide (leAt x.profile 44 2 * 10 ^ 6 < m.now - x.stamp))
                         else (leAt x.profile 46 2 != 0 && decide (leAt x.profile 46 2 * 10 ^ 5 < tbt)))
  let y := { x with length := r.ctx + 1, generated := x.generated + 1, tLast := m.now, lastTok := r.tok, tokens := x.tokens ++ [r.tok], rebuild := 0 }
  let y := { y with ttft := if first then min us 0xFFFFFFFE else x.ttft, tbtMax := if first then x.tbtMax else max x.tbtMax (min 0xFFFF (tbt / 10000)) }
  let y := { y with misses := if late then min 255 (x.misses + 1) else x.misses, stage := if pre then 0 else x.stage, stageLen := if pre then 0 else x.stageLen }
  let y := { y with st := if x.st = gsPrefill ∨ (x.st = gsMigrating ∧ x.rebuild ≠ 0) then gsDecode else x.st }
  let m := (m.putEnt p e y).meter p mGen 1
  let m := if late then m.addSat R.GZT_PSTAT_MISSES [p] 1 else m
  let why := m.finalReason y r.tok
  let a := { a with m := m, toks := a.toks ++ [leBytes 2 e ++ leBytes 2 (b2n first + 2 * b2n (why != 0)) ++ leBytes 4 r.tok ++ leBytes 4 (r.pos + r.count) ++ leBytes 4 r.lp] }
  if why ≠ 0 then a.finish p e why
  else
    let a := if x.st = gsPrefill ∧ x.pin then { a with m := a.m.makeHandle p e } else a
    if y.deadline ≠ 0 ∧ y.deadline < m.now then a.finish p e gcDeadline else a

/-- One bound entry of the sealing step's group. -/
def SealAcc.entry (a : SealAcc) (p e : Nat) (s : SStep) : SealAcc :=
  let x := a.m.ent p e
  let row := s.rows.find? (fun r => r.idx == e)
  if x.cancels.any (fun t => decide (t < a.m.now)) then a.finish p e gcCancelled
  else
    let late := decide (x.deadline ≠ 0 ∧ x.deadline < a.m.now)
    match row with
    | none => if late then a.finish p e gcDeadline else a
    | some r =>
      if r.poisoned then a
      else
        let a := if bitAt r.flags 0 then { a with m := a.m.meter p mPrompt (if bitAt r.flags 2 then 0 else r.count) } else a
        if !r.wants then
          let a := { a with m := a.m.putEnt p e { x with length := r.ctx } }
          if late then a.finish p e gcDeadline else a
        else if r.sampled = 2 then a.finish p e gcNonfinite
        else if r.sampled = 3 then a.finish p e gcMaskEmpty
        else a.token p e r s.retry

/-- REBIND_AT_STEP entries of the group that seals move to the newest current version (R360). -/
def Mach.rebindOvls (m : Mach) (p n g : Nat) : Mach :=
  ((m.plBound n).foldl (fun m x =>
    if x.2.group = g ∧ x.2.rebind ∧ x.2.ovl ≠ 0xFFFF then
      match m.ovlCurrent p x.2.ovl x.2.model with
      | some o => m.putEnt p x.1 { x.2 with ovlVer := o.version }
      | none => m
    else m) m).ovlSweep p

/-- Shedding after a round of a pipeline, within the seal that ends the round (R347, R363). -/
def SealAcc.shedRound (a : SealAcc) (n round : Nat) : SealAcc :=
  let m := a.m
  let p := m.pipePart n
  let mode := m.fld R.GZT_PIPECFG_SHED [n]
  let ts := ((m.plBound n).filter (fun x => x.2.st == gsDecode && leAt x.2.profile 46 2 != 0)).map (fun x => leAt x.2.profile 46 2)
  match ts.min? with
  | none => a
  | some t =>
    if mode ≠ 1 ∧ mode ≠ 2 then a
    else
      let x := m.pipe n
      let overs := decide (t * 100000 < round)
      let was := m.flag R.GZT_PIPESTAT_SHEDDING [n]
      let o := if overs then x.overs + 1 else 0
      let u := if overs then 0 else x.under + 1
      let on := if was then decide (u < 16) else decide (4 ≤ o)
      let m := (m.setPipe n { x with overs := o, under := u }).setFld R.GZT_PIPESTAT_SHEDDING [n] (b2n on)
      if was ∧ overs ∧ mode = 2 then
        let worse (a b : Nat × GEnt) : Bool := decide (a.2.prio < b.2.prio) || (a.2.prio == b.2.prio && decide (b.2.order < a.2.order))
        match (sortBy worse ((m.plBound n).filter (fun x => x.2.st == gsDecode))).head? with
        | some v => { a with m := m.addSat R.GZT_PSTAT_SHED [p] 1 }.finish p v.1 gcShed
        | none => { a with m := m }
      else { a with m := m }

/-- A step of which a row read poison: its group retries (R367). -/
def SStep.bad (s : SStep) : Bool := s.rows.any (fun r => r.poisoned)
/-- Every expected row of a step has been sampled (R344). -/
def SStep.rowsDone (s : SStep) : Bool := s.rows.all (fun r => !r.wants || r.sampled != 0 || r.poisoned)
/-- The open step of a pipeline that can seal: every expected row sampled, no command of it left (R344). -/
def Mach.sealable (m : Mach) (n : Nat) : Option SStep :=
  (m.pipe n).opened.find? (fun s => !s.broken && s.rowsDone && !m.plBusy n (s.n % 2 ^ 32) && !(m.plSplits n (s.n % 2 ^ 32)).any (fun r => m.tileFull r) &&
    !(m.conf.cfg.stagePanes (m.fld R.GZT_PIPECTL_FIRST_STAGE [n])).any (fun q => (m.sstate q 0 == ssRun || m.sstate q 0 == ssWait) && (m.stream q 0).lstep == s.n % 2 ^ 32 && (m.stream q 0).llayer == n))

/-- The entries of the group of a sealing step take their new state, and its round ends (R333, R344, R360, R363). -/
def SealAcc.rows (a : SealAcc) (n : Nat) (s : SStep) : SealAcc :=
  let p := a.m.pipePart n
  let a := ((a.m.plBound n).filter (fun x => x.2.group == s.group)).foldl (fun a x => a.entry p x.1 s) a
  let m := a.m.rebindOvls p n s.group
  let x := m.pipe n
  let lastG := Tbl.get 0 x.sealAt s.group
  let m := m.setPipe n { x with opened := x.opened.filter (fun y => y.n != s.n), sealAt := Tbl.set 0 x.sealAt s.group (m.now + 1), lastSeal := m.now + 1,
                                retry := if s.bad then insertNat s.group x.retry else x.retry }
  let m := m.setFlds [n] [(R.GZT_PIPESTAT_STEP, s.n % 2 ^ 32), (R.GZT_PIPETIME_STEP_US, (m.now - s.openAt) / 1000)]
  if lastG = 0 then { a with m := m }
  else { a with m := m.setFld R.GZT_PIPETIME_ROUND_US [n] ((m.now - (lastG - 1)) / 1000) }.shedRound n (m.now - (lastG - 1))

/-- The records of a seal, mirrored and queued as its batch, which waits where the ring lacks room for it (R344, R345, R347, R594). -/
def SealAcc.batch (a : SealAcc) (n : Nat) (s : SStep) : Mach :=
  let p := a.m.pipePart n
  let m := if a.toks.isEmpty && a.evs.isEmpty then a.m else a.m.mirror p ([2] ++ leBytes 2 a.toks.length ++ a.toks.flatten ++ a.evs.flatten)
  let b : Batch := { t := m.now, step := s.n % 2 ^ 32, pipe := n, retried := s.retry, waited := false, tokens := a.toks, events := a.evs, mark := (m.pair p).sent }
  let l := m.batchesOf p
  m.setBatches p (l ++ [if m.batchesFit p (l ++ [b]) then b else { b with waited := true }])

/-- A retry is charged to nobody from the seal before it to its own (R576). -/
def Mach.retryExempt (m : Mach) (p : Nat) (s : SStep) : Mach :=
  if s.bad then { m with part := { m.part with exempt := insertNat p m.part.exempt } }
  else if s.retry then { m with part := { m.part with exempt := eraseNat p m.part.exempt } } else m

/-- SEAL (R344): one tick for every entry of the step; slices of tiles that lack a partial are given up first (R142). It rolls no
scale record, the model's choice (log entry 77). -/
def Mach.sealPipe (m : Mach) (n : Nat) : Mach :=
  let p := m.pipePart n
  match m.sealable n with
  | none => m
  | some s =>
    if !m.running ∨ m.pstate p = psNone ∨ m.shut p then m
    else
      let m := (m.plSplits n (s.n % 2 ^ 32)).foldl (fun m r => m.abandonTile r.cmd.part r.cmd.slotAddr r.cmd.desc.step) m
      let m := (((⟨m, [], []⟩ : SealAcc).rows n s).batch n s).retryExempt p s
      let m := if (m.pipe n).opened.isEmpty ∧ m.plState n = plRunning then m.setPlState n plIdle else m
      (((m.pipeDrain n).gztSync p).resetConduits p).txBoundary p

end Sys2Proof.Machine
end

