-- ==== Sys2Proof/Machine/PartOps.lean ====
section
/-! DEFINITION. Resources of partitions: slices and frames at loading (R391, R392, R399 to R401, R487), code (R144, R199), release (R490), slices of time-shared groups (R494 to R496), the end of transactions (R224). -/

namespace Sys2Proof.Machine

/-! ### Code and streams (R144, R145, R199) -/

/-- The instructions of a CODE entry. -/
def codeInsns (e : List Byte) : List InsnWord := (List.range (min 16384 (leAt e 4 4))).map (fun i => BitVec.ofNat 32 (leAt e (256 + 4 * i) 4))
/-- A stream as a CODE entry leaves it. -/
def codeStream (e : List Byte) (n : Nat) : Stream :=
  { Stream.init with a := (List.range 8).foldl (fun t i => Tbl.set 0 t i (BitVec.ofNat 64 (leAt e (64 + 64 * n + 8 * i) 8))) [] }
/-- A pane as the image leaves it for a partition. -/
def Cfg.freshPane (c : Cfg) (pane p : Nat) : Pane :=
  match c.codeOf pane p with
  | none => Pane.init
  | some e => { Pane.init with code := codeInsns e, f := codeStream e 0, b := codeStream e 1, u := codeStream e 2 }
/-- PNE_STREAM of a stream that restarts (R144, R186): IDLE at 0, waiting for nothing, with the record of its change
(R521); ISSUED counts on since the image loaded (R158). -/
def Mach.streamReset (m : Mach) (pane n : Nat) : Mach :=
  let was := m.sstate pane n
  let m := m.setFlds [pane, n] [(R.PNE_STREAM_STATE, ssIdle), (R.PNE_STREAM_PC, 0), (R.PNE_STREAM_WAIT_ON, 0), (R.PNE_STREAM_TOKEN, 0)]
  if was = ssIdle then m else m.traceInsn pane n 6 ssIdle 0
/-- A word of PNE_STREAM of which ISSUED alone is left: it counts on since the image loaded (R158). -/
def issuedWord (w : Word) : Word :=
  let f := R.PNE_STREAM_ISSUED
  BitVec.ofNat 64 (putBits 0 f.hi f.lo (wordField w f.hi f.lo))
/-- The saved words of PNE_STREAM of a member outside its slice, restarted: ISSUED alone is kept (R158). -/
def Mach.savedReset (m : Mach) (p pane : Nat) : Mach :=
  let regs := (List.range 3).foldl (fun t n =>
    let k := (p * 512 + pane) * 4 + n
    Tbl.set 0 t k (issuedWord (Tbl.get 0 t k))) m.part.savedRegs
  { m with part := { m.part with savedRegs := regs } }
/-- A pane's contents and streams set under R144. -/
def Mach.loadPane (m : Mach) (pane p : Nat) : Mach :=
  let m := (List.range 3).foldl (fun m n => m.streamReset pane n) m
  (m.setPane pane (m.conf.cfg.freshPane pane p)).queueSync pane
/-- The saved context of a time-shared member set under R144, in the module region. -/
def Mach.loadSaved (m : Mach) (pane p : Nat) : Mach :=
  let key := p * 512 + pane
  { m with part := { m.part with saved := Tbl.set none m.part.saved key (some (m.conf.cfg.freshPane pane p)) } }.savedReset p pane
/-- Every pane of a partition loaded. -/
def Mach.loadCode (m : Mach) (p : Nat) : Mach :=
  (m.conf.cfg.panes p).foldl (fun m q => if m.conf.cfg.shared p then m.loadSaved q p else m.loadPane q p) m

/-! ### Transom slices (R391, R392, R493) -/

/-- The free slices of a die, in ascending order. -/
def Mach.freeSlices (m : Mach) (d : Nat) : List Nat :=
  ((List.range 256).map (fun i => d * 256 + i)).filter (fun s => Tbl.get 0 m.tier.sliceOwner s == 0 && !m.tier.withheld.contains s)
/-- A placement in slices per die: TRN_PPLACE, or round robin over the dies that still have a free slice (R392). -/
def Mach.placement (m : Mach) (p : Nat) : Option (List Nat) :=
  let want := m.conf.cfg.slices p
  let w := m.fld R.TRN_PPLACE_DIE [p]
  let given := (List.range 8).map (fun d => 2 * bits w (8 * d + 7) (8 * d))
  if w ≠ 0 then (if given.sum = want then some given else none)
  else
    let free := (List.range 8).map (fun d => (m.freeSlices d).length)
    let deal := (List.range want).foldl (fun (a : List Nat × Nat) _ =>
      match ((List.range 8).map (fun i => (a.2 + i) % 8)).find? (fun d => decide (a.1.getD d 0 < free.getD d 0)) with
      | some d => (a.1.set d (a.1.getD d 0 + 1), (d + 1) % 8)
      | none => a) (List.replicate 8 0, 0)
    some deal.1
/-- The panes of a time-shared partition on a die: each has a save slice there (R493). -/
def Cfg.savePanes (c : Cfg) (p d : Nat) : List Nat := if c.shared p then (c.panes p).filter (fun q => q / 48 == d) else []

/-- The Transom step of loading (R487): 0, or the code it fails with. Slices that the module deals itself are short only where too few are free. -/
def Mach.takeSlices (m : Mach) (p : Nat) : Mach × Nat :=
  let free := (List.range 8).map (fun d => m.freeSlices d)
  let want := m.conf.cfg.slices p
  match m.placement p with
  | none => (m, 3)
  | some l =>
    let unsaved := (List.range 8).any (fun d => decide (l.getD d 0 < (m.conf.cfg.savePanes p d).length))
    if m.fld R.TRN_PPLACE_DIE [p] ≠ 0 ∧ unsaved = true then (m, 3)
    else if (free.map (fun x => x.length)).sum < want then (m, 7)
    else if unsaved || (List.range 8).any (fun d => decide ((free.getD d []).length < l.getD d 0)) then (m, 3)
    else
      let per := (List.range 8).map (fun d => (free.getD d []).take (l.getD d 0))
      let space := (List.range 8).flatMap (fun d => (per.getD d []).take (l.getD d 0 - (m.conf.cfg.savePanes p d).length))
      let saves := (List.range 8).flatMap (fun d =>
        (m.conf.cfg.savePanes p d).zip ((per.getD d []).drop (l.getD d 0 - (m.conf.cfg.savePanes p d).length)))
      let t := m.tier
      let t := { t with sliceOwner := per.flatten.foldl (fun o s => Tbl.set 0 o s p) t.sliceOwner }
      let t := { t with slices := space.zipIdx.foldl (fun o (s : Nat × Nat) => Tbl.set 0 o (p * 4096 + s.2) (s.1 + 1)) t.slices }
      let t := { t with saves := saves.foldl (fun o (s : Nat × Nat) => Tbl.set 0 o (p * 4096 + s.1) (s.2 + 1)) t.saves }
      ({ m with tier := t }, 0)

/-! ### HBM frames (R399, R400) -/

/-- A channel that holds data: GOOD or DEGRADED. -/
def Mach.chanLive (m : Mach) (g : Nat) : Bool := m.fld R.MEM_CHAN_STATE [g] == 1 || m.fld R.MEM_CHAN_STATE [g] == 2
/-- Whether a frame can be assigned. -/
def Mach.frameFree (m : Mach) (f : Nat) : Bool :=
  Tbl.get 0 m.tier.frameOwner f == 0 && !m.tier.retired.contains f && m.chanLive (f % 512)
/-- The lowest free frame of a channel. -/
def Mach.chanFrame (m : Mach) (g : Nat) : Option Nat := (firstFrom (fun r => m.frameFree (r * 512 + g)) 1024 0).map (fun r => r * 512 + g)
/-- FRAMES_FREE and FRAMES_RETIRED follow. -/
def Mach.memSync (m : Mach) : Mach :=
  let live := ((List.range 512).filter (fun g => m.chanLive g)).length
  let owned := (m.tier.frameOwner.filter (fun e => m.chanLive (e.1 % 512))).length
  let idle := (m.tier.retired.filter (fun f => m.chanLive (f % 512) && Tbl.get 0 m.tier.frameOwner f == 0)).length
  m.setFlds [] [(R.MEM_STATUS_FRAMES_FREE, live * 1024 - owned - idle), (R.MEM_STATUS_FRAMES_RETIRED, m.tier.retired.length)]

/-- The stacks a page may lie on: those of its placement range, or all (R400), as a bitmap of 16. -/
def Mach.pageStacks (m : Mach) (p v : Nat) : Nat :=
  match (List.range 8).find? (fun r =>
    let b := m.fld R.MEM_PPLACE_BASE [p, r]
    decide (b ≤ v ∧ v < b + m.fld R.MEM_PPLACE_COUNT [p, r])) with
  | some r => m.fld R.MEM_PPLACE_STACKS [p, r]
  | none => 0xFFFF
/-- The next channel from g0 on, in turn, of the given stacks that has a free frame (R399). -/
def Mach.nextChan (m : Mach) (stks g0 : Nat) : Option Nat :=
  (firstFrom (fun i => bitAt stks ((g0 + i) % 512 / 32) && (m.chanFrame ((g0 + i) % 512)).isSome) 512 0).map (fun i => (g0 + i) % 512)
/-- Pages v and up take the next channel in turn that has a free frame, and its lowest free frame (R399). Codes: 0, NO_HBM where the
frames are too few, PLACEMENT where a range cannot be met. -/
def Mach.takePages (own : Nat) (stks : Nat → Nat) : Nat → Mach → Nat → Nat → List Nat → Mach × Nat × List Nat
  | 0, m, _, _, acc => (m, 0, acc)
  | n + 1, m, v, g0, acc =>
    match m.nextChan (stks v) g0 with
    | none => (m, if stks v = 0xFFFF then 4 else 3, acc)
    | some g =>
      match m.chanFrame g with
      | none => (m, 4, acc)
      | some f =>
        let m := { m with tier := { m.tier with frameOwner := Tbl.set 0 m.tier.frameOwner f own } }
        Mach.takePages own stks n m (v + 1) ((g + 1) % 512) (acc ++ [f])
/-- Frames given back to partition 0. -/
def Mach.freeFrames (m : Mach) (fs : List Nat) : Mach :=
  ({ m with tier := { m.tier with frameOwner := fs.foldl (fun t f => Tbl.set 0 t f 0) m.tier.frameOwner } }).memSync
/-- Frames free in all. -/
def Mach.freeCount (m : Mach) : Nat := m.fld R.MEM_STATUS_FRAMES_FREE []

/-- The HBM step of loading. -/
def Mach.takeHbm (m : Mach) (p : Nat) : Mach × Nat :=
  let n := m.conf.cfg.hbmPages p
  if m.memSync.freeCount < n then (m, 4)
  else
    let r := Mach.takePages p (m.pageStacks p) n m 0 0 []
    if r.2.1 ≠ 0 then (r.1.freeFrames r.2.2, r.2.1)
    else
      let pages := r.2.2.zipIdx.foldl (fun t f => Tbl.set none t (p * 2 ^ 24 + f.2) (some { frame := f.1, region := none })) r.1.tier.pages
      ({ r.1 with tier := { r.1.tier with pages := pages } }.memSync, 0)

/-! ### Far frames (R401, R407) -/

/-- Far frames of a port: its device's 2 MiB ranges, or both devices' when interleaved, less the provider's own pages. -/
def Mach.farFrames (m : Mach) (x : Nat) : List Nat :=
  let cap (y : Nat) : Nat := m.fld R.FAR_PORT_CAP_GIB [y] * 512
  let n := if m.flag R.FAR_CTL_INTERLEAVE [] then (if x = 0 then 2 * min (cap 0) (cap 1) else 0) else cap x
  let mine := if m.fld R.FAR_PQUOTA_PORT [0] = 1 then 1 else 0
  let skip := if x = mine then m.fld R.FAR_PQUOTA_PAGES [0] else 0
  ((List.range n).drop skip).map (fun i => x * 2 ^ 21 + i)
/-- A far port is UP; interleaved frames need both (R407). -/
def Mach.farUp (m : Mach) (x : Nat) : Bool :=
  if m.flag R.FAR_CTL_INTERLEAVE [] then m.fld R.FAR_PORT_STATE [0] == 1 && m.fld R.FAR_PORT_STATE [1] == 1 else m.fld R.FAR_PORT_STATE [x] == 1
/-- The ports a partition's far pages may take. -/
def Mach.farPorts (m : Mach) (p : Nat) : List Nat :=
  let x := m.fld R.FAR_PQUOTA_PORT [p]
  if m.flag R.FAR_CTL_INTERLEAVE [] then [0] else if x = 2 then [0, 1] else [min x 1]
/-- The far step of loading. -/
def Mach.takeFar (m : Mach) (p : Nat) : Mach × Nat :=
  let n := m.fld R.FAR_PQUOTA_PAGES [p]
  let free := ((m.farPorts p).filter (fun x => m.farUp x)).flatMap (fun x => (m.farFrames x).filter (fun f => Tbl.get 0 m.tier.farOwner f == 0))
  if free.length < n then (m, 5)
  else
    let fs := free.take n
    let t := { m.tier with farOwner := fs.foldl (fun t f => Tbl.set 0 t f p) m.tier.farOwner }
    ({ m with tier := { t with farPages := fs.zipIdx.foldl (fun t f => Tbl.set 0 t (p * 2 ^ 24 + f.2) (f.1 + 1)) t.farPages } }, 0)

/-! ### Shared regions (R502) -/

/-- The frames of a shared region in page order. -/
def Mach.regionFrames (m : Mach) (r : Nat) : List Nat := Tbl.get [] m.part.regionFrames r
/-- The mappings of a partition: region and first page. -/
def Mach.maps (m : Mach) (p : Nat) : List (Nat × Nat) :=
  ((List.range 8).filter (fun k => m.flag R.PTN_PSMAP_VALID [p, k])).map (fun k => (m.fld R.PTN_PSMAP_REGION [p, k], m.fld R.PTN_PSMAP_VBASE [p, k]))
/-- Whether every mapping names a SEALED region and no pages overlap (R487). -/
def Mach.mapsOk (m : Mach) (p : Nat) : Bool :=
  let l := (0, 0, m.conf.cfg.hbmPages p) :: ((m.maps p).zipIdx.map (fun x => (x.2 + 1, x.1.2, (m.regionFrames x.1.1).length)))
  (m.maps p).all (fun x => m.fld R.PTN_SREG_STATE [x.1] == 2) &&
  l.all (fun a => l.all (fun b => a.1 == b.1 || decide (a.2.1 + a.2.2 ≤ b.2.1 ∨ b.2.1 + b.2.2 ≤ a.2.1)))
/-- Whether a partition's mappings are in effect: from ACTIVATE to teardown (R502). -/
def Mach.mapped (m : Mach) (p r : Nat) : Bool := (m.tier.pages.any (fun e => e.1 / 2 ^ 24 == p && (e.2.bind (fun x => x.region)) == some r))
/-- The partitions whose mappings of a region are in effect. -/
def Mach.mappers (m : Mach) (r : Nat) : List Nat := ((List.range 32).map (fun i => i + 1)).filter (fun p => m.mapped p r)
/-- MAPS of every region follows. -/
def Mach.mapSync (m : Mach) : Mach := (List.range 64).foldl (fun m r => m.setFld R.PTN_SREG_MAPS_MAPS [r] (m.mappers r).length) m
/-- The mappings take effect. -/
def Mach.takeMaps (m : Mach) (p : Nat) : Mach :=
  let pages := (m.maps p).foldl (fun t x =>
    (m.regionFrames x.1).zipIdx.foldl (fun t f => Tbl.set none t (p * 2 ^ 24 + x.2 + f.2) (some { frame := f.1, region := some x.1 })) t) m.tier.pages
  ({ m with tier := { m.tier with pages := pages } }).mapSync

/-! ### Loading and release -/

/-- The owned slices, frames and far frames of a partition. -/
def Mach.slicesOf (m : Mach) (p : Nat) : List Nat := (m.tier.sliceOwner.filter (fun e => e.2 == p)).map (fun e => e.1)
def Mach.framesOf (m : Mach) (p : Nat) : List Nat := (m.tier.frameOwner.filter (fun e => e.2 == p)).map (fun e => e.1)
def Mach.farOf (m : Mach) (p : Nat) : List Nat := (m.tier.farOwner.filter (fun e => e.2 == p)).map (fun e => e.1)

/-- Slices zeroed with their tags cleared (R394), and the pane stores of a partition of its own. -/
def Mach.zeroSlices (m : Mach) (p : Nat) : Mach :=
  let m := (m.slicesOf p).foldl (fun m s => m.zero (sliceKey s 0) (2 ^ 22)) m
  if m.conf.cfg.shared p then m else (m.conf.cfg.panes p).foldl (fun m q => m.zero (paneKey q 0) (2 ^ 22)) m
/-- Frames and far frames zeroed (R404). -/
def Mach.zeroFrames (m : Mach) (p : Nat) : Mach :=
  let m := (m.framesOf p).foldl (fun m f => m.zero (frameKey f 0) (2 ^ 21)) m
  (m.farOf p).foldl (fun m f => m.zero (farKey f 0) (2 ^ 21)) m

/-- Every resource of a partition returns to partition 0 (R490); of its streams outside a slice ISSUED counts on (R158). -/
def Mach.releaseAll (m : Mach) (p : Nat) : Mach :=
  let t := m.tier
  let t := { t with pages := t.pages.filter (fun e => e.1 / 2 ^ 24 != p), frameOwner := t.frameOwner.filter (fun e => e.2 != p) }
  let t := { t with slices := t.slices.filter (fun e => e.1 / 4096 != p), saves := t.saves.filter (fun e => e.1 / 4096 != p) }
  let t := { t with sliceOwner := t.sliceOwner.filter (fun e => e.2 != p), farOwner := t.farOwner.filter (fun e => e.2 != p) }
  let t := { t with farPages := t.farPages.filter (fun e => e.1 / 2 ^ 24 != p), keys := Tbl.set 0 t.keys p 0 }
  let m := { m with tier := t, part := { m.part with saved := m.part.saved.filter (fun e => e.1 / 512 != p), savedRegs := m.part.savedRegs.map (fun (e : Nat × Word) => if e.1 / 2048 = p then (e.1, issuedWord e.2) else e) } }
  m.memSync.mapSync

/-- The loading steps of R487 in order: the code of the first failure, 0 for none. -/
def Mach.loadSteps (m : Mach) (p : Nat) : Mach × Nat :=
  if m.fld R.FAR_PQUOTA_PAGES [p] ≠ 0 ∧ !(m.farPorts p).any (fun x => m.farUp x) then (m, 2)
  else
    let a := m.takeSlices p
    if a.2 ≠ 0 then a
    else
      let b := a.1.takeHbm p
      if b.2 ≠ 0 then b
      else
        let c := b.1.takeFar p
        if c.2 ≠ 0 then c
        else if !c.1.mapsOk p then (c.1, 6)
        else
          let m := c.1.takeMaps p
          let m := { m with tier := { m.tier with keyGen := m.tier.keyGen + 1, keys := Tbl.set 0 m.tier.keys p (m.tier.keyGen + 1) } }
          (((m.zeroFrames p).zeroSlices p).loadCode p, 0)

/-- Live metering set to 0 (R485). -/
def Mach.meterReset (m : Mach) (p : Nat) : Mach :=
  { m with part := { m.part with meters := m.part.meters.filter (fun e => e.1 / 16 != p) } }

/-! ### Time-shared groups (R494 to R496) -/

/-- The bytes and tags of a range copied over another range of whole lines, each in one frame. -/
def Mach.moveMem (m : Mach) (src dst n : Nat) : Mach :=
  if m.gone dst then m
  else if m.gone src || m.regionBad src then (m.zero dst n).poisonLines dst n
  else
    let cells := m.mem.filter (fun c => decide (src ≤ c.1 ∧ c.1 < src + n))
    let tags := m.poison.filter (fun l => decide (src / 64 ≤ l ∧ l * 64 < src + n))
    let m := m.zero dst n
    { m with mem := cells.foldl (fun t c => writeByte t (dst + (c.1 - src)) c.2) m.mem,
             poison := tags.foldl (fun t l => insertNat (dst / 64 + (l - src / 64)) t) m.poison }

/-- The bytes and tags of pieces copied over pieces, in order. -/
def Mach.moveSegs : Nat → Mach → List (Nat × Nat) → List (Nat × Nat) → Mach
  | 0, m, _, _ => m
  | _ + 1, m, [], _ => m
  | _ + 1, m, _, [] => m
  | k + 1, m, (a, n) :: l, (b, n') :: l' =>
    let len := min n n'
    let m := m.moveMem a b len
    let l := if n = len then l else (a + len, n - len) :: l
    let l' := if n' = len then l' else (b + len, n' - len) :: l'
    Mach.moveSegs k m l l'
/-- Pieces copied over pieces. -/
def Mach.move (m : Mach) (src dst : List (Nat × Nat)) : Mach := Mach.moveSegs (src.length + dst.length) m src dst

/-- DEBT_US follows the debt (R496). -/
def Mach.setDebt (m : Mach) (p d : Nat) : Mach :=
  ({ m with part := { m.part with debt := Tbl.set 0 m.part.debt p d } }).setFld R.PTN_PSLICE_DEBT_US [p] (d / 1000)
/-- A pane left empty: no code, no stream under way, nothing queued, a store of zeros (R491). -/
def Mach.clearPane (m : Mach) (q : Nat) : Mach :=
  let m := (List.range 3).foldl (fun m n => m.streamReset q n) m
  ((m.setPane q Pane.init).queueSync q).zero (paneKey q 0) (2 ^ 22)
/-- The state of a member saved from a pane (R185): contents, stream words, the pane store into its save slice. A copy in flight goes
back to the front of its queue with its progress. -/
def Mach.savePane (m : Mach) (p q : Nat) : Mach :=
  let m := m.copyPause q
  let x := m.pane q
  let key := p * 512 + q
  let regs := (List.range 3).foldl (fun t n => Tbl.set 0 t (key * 4 + n) (Regs.word m.regs (R.PNE_STREAM_STATE.addr [q, n]))) m.part.savedRegs
  let m := { m with part := { m.part with saved := Tbl.set none m.part.saved key (some x), savedRegs := regs } }
  match Tbl.get 0 m.tier.saves (p * 4096 + q) with
  | 0 => m
  | s + 1 => m.moveMem (paneKey q 0) (sliceKey s 0) (2 ^ 22)
/-- A member that is not kept leaves a pane: of its stream words ISSUED alone stays (R158). -/
def Mach.leavePane (m : Mach) (p q : Nat) : Mach :=
  let regs := (List.range 3).foldl (fun t n => Tbl.set 0 t ((p * 512 + q) * 4 + n) (issuedWord (Regs.word m.regs (R.PNE_STREAM_STATE.addr [q, n])))) m.part.savedRegs
  { m with part := { m.part with savedRegs := regs } }
/-- The state of a member restored to a pane. -/
def Mach.restorePane (m : Mach) (p q : Nat) : Mach :=
  let key := p * 512 + q
  let x := (Tbl.get none m.part.saved key).getD (m.conf.cfg.freshPane q p)
  let m := (m.setPane q x).queueSync q
  let m := (List.range 3).foldl (fun m n => { m with regs := Regs.setWord m.regs (R.PNE_STREAM_STATE.addr [q, n]) (Tbl.get 0 m.part.savedRegs (key * 4 + n)) }) m
  let m := { m with part := { m.part with saved := Tbl.set none m.part.saved key none } }
  match Tbl.get 0 m.tier.saves (p * 4096 + q) with
  | 0 => m
  | s + 1 => m.moveMem (sliceKey s 0) (paneKey q 0) (2 ^ 22)

end Sys2Proof.Machine
end

