-- ==== Sys2Proof/Machine/MeasureOps.lean ====
section
/-! DEFINITION. Digests, register windows of bytes, measurement registers (R204, R613). -/

namespace Sys2Proof.Machine

/-- The 32 bytes of a digest, most significant first. -/
def digestBytes (d : Nat) : List Byte := (leBytes 32 d).reverse
/-- A digest of 32 bytes as a number. -/
def digestOf (bs : List Byte) : Nat := ofLe bs.reverse
/-- SM3 as a number. -/
def sm3 (bs : List Byte) : Nat := (Config.sm3 bs).toNat
/-- The entries of a section type. -/
def Cfg.sect (c : Cfg) : Nat → List (List Byte)
  | 1 => c.stageMap
  | 2 => c.routes
  | 3 => c.partitions
  | 4 => c.fabric
  | 5 => c.islands
  | 6 => c.code
  | 7 => c.conduit
  | 8 => c.schedule
  | _ => []

/-- n words of a register window as bytes. -/
def Mach.window (m : Mach) (f : Fld) (ix : List Nat) (n : Nat) : List Byte := (List.range n).flatMap (fun i => leBytes 8 (m.fld f (ix ++ [i])))
/-- A register window of n words filled with bytes. -/
def Mach.setWindow (m : Mach) (f : Fld) (ix : List Nat) (n : Nat) (bs : List Byte) : Mach :=
  (List.range n).foldl (fun m i => m.setFld f (ix ++ [i]) (leAt bs (8 * i) 8)) m
/-- A measurement register extended: SM3(MR ‖ value). -/
def extended (old value : Nat) : Nat := sm3 (digestBytes old ++ digestBytes value)
/-- MRi extended. -/
def Mach.mrExtend (m : Mach) (i value : Nat) : Mach :=
  m.setWindow R.SEC_MR_WORD [i] 4 (digestBytes (extended (digestOf (m.window R.SEC_MR_WORD [i] 4)) value))
/-- PMR of a partition extended. -/
def Mach.pmrExtend (m : Mach) (p value : Nat) : Mach :=
  { m with sec := { m.sec with pmr := Tbl.set 0 m.sec.pmr p (extended (Tbl.get 0 m.sec.pmr p) value) } }
/-- PARTITION of an entry of a section whose entries name one. -/
def entryPart (t : Nat) (e : List Byte) : Nat :=
  match t with
  | 1 => leAt e 2 1
  | 2 => leAt e 3 1
  | 3 => leAt e 0 1
  | 6 => leAt e 2 1
  | 7 => leAt e 1 1
  | _ => 0
/-- PMR and UMR at ACTIVATE (R613): both zero, then every entry of the image whose PARTITION is p, then the digests of its regions. -/
def Mach.measurePart (m : Mach) (p : Nat) : Mach :=
  let m := { m with sec := { m.sec with pmr := Tbl.set 0 m.sec.pmr p 0, umr := Tbl.set 0 m.sec.umr p 0 } }
  let es := (List.range 9).flatMap (fun t => (m.conf.cfg.sect t).filter (fun e => entryPart t e == p))
  let m := es.foldl (fun m e => m.pmrExtend p (sm3 e)) m
  (m.maps p).foldl (fun m x => m.pmrExtend p (Tbl.get 0 m.sec.regionSm3 x.1)) m

end Sys2Proof.Machine
end

