-- ==== Sys2Proof/Machine/FaultOps.lean ====
section
/-! DEFINITION. What a fault does: a partition becomes FAULTED (R485, R566 to R569), the module stops on FATAL (R570); messages of hierarchies and pairs on leaving ACTIVE (R588, R593). -/

namespace Sys2Proof.Machine

/-- The checkpoints of a partition. -/
def Mach.ckpt (m : Mach) (p : Nat) : Ckpt := Tbl.get Ckpt.init m.ckpts p
/-- The checkpoints of a partition replaced. -/
def Mach.setCkpt (m : Mach) (p : Nat) (x : Ckpt) : Mach := { m with ckpts := Tbl.set Ckpt.init m.ckpts p x }
/-- The hierarchy of a partition. -/
def Mach.hier (m : Mach) (p : Nat) : Hier := Tbl.get Hier.init m.hiers p
/-- The hierarchy of a partition replaced. -/
def Mach.setHier (m : Mach) (p : Nat) (x : Hier) : Mach := { m with hiers := Tbl.set Hier.init m.hiers p x }

/-- ROLE of a partition in its hierarchy (R588): 1 manager, 2 worker, 3 spare. -/
def Mach.hierRole (m : Mach) (p : Nat) : Nat := m.fld R.HIER_CFG_ROLE [p]
/-- The module of the manager. -/
def Mach.hierMgr (m : Mach) (p : Nat) : Nat := m.fld R.HIER_CFG_MANAGER [p]
/-- The 16-byte body of a hierarchy message. -/
def hierBody (kind step arg : Nat) : List Byte := leBytes 1 kind ++ leBytes 3 0 ++ leBytes 4 step ++ leBytes 8 arg
/-- A hierarchy message to a module (R588). -/
def Mach.hierSend (m : Mach) (p dst kind step arg : Nat) : Mach :=
  m.trySend dst (m.jobOf p) 0x27 0x80000000 (hierBody kind step arg) false

/-- The pair of a partition ends with LEAVE: cause 0 DISABLE, 1 FAULTED (R593). -/
def Mach.pairLeave (m : Mach) (p cause : Nat) : Mach :=
  if m.pairOn p then
    let m := ((m.pairSend p 5 (leBytes 1 cause)).setPair p Pair.init).setFld R.GZT_PAIRSTAT_STATE [p] 0
    if cause = 0 then m else m.place (ErrRec.mk0 sevDeferred p ecPair 0xFFFF 0 0)
  else m
/-- A partition has left ACTIVE: its manager and its partner hear of it (R588, R593). -/
def Mach.leftActive (m : Mach) (p : Nat) : Mach :=
  let m := if m.hierRole p = 2 ∨ m.hierRole p = 3 then m.hierSend p (m.hierMgr p) 11 0 0 else m
  m.pairLeave p (b2n (m.pstate p == psFaulted))

/-- Trace of an owner returns to IDLE with its ports emptied (R524). -/
def Mach.traceIdle (m : Mach) (o : Nat) : Mach :=
  let m := m.setFld R.SRV_TSTAT_STATE [o] 0
  { m with srv := { m.srv with ports := m.srv.ports.filter (fun e => e.1 / 512 != o) } }

/-- Launches of a partition under way end ABORTED (R468). -/
def Mach.dropLaunches (m : Mach) (p : Nat) (records : Bool) : Mach :=
  let mine := m.part.launches.filter (fun l => l.part == p)
  let m := { m with part := { m.part with launches := m.part.launches.filter (fun l => l.part != p) } }
  if records then
    mine.foldl (fun m l => match l.src with
      | .hatch q h ep => m.hatchComplete q h ep l.desc cAborted 0xFFFF false
      | .core _ _ => m) m
  else m

/-- What ends for a partition that becomes FAULTED or is torn down: conduits, training, collectives, checkpoints, trace, repairs and
holds of its own. -/
def Mach.stopWork (m : Mach) (p : Nat) : Mach :=
  let m := (m.closeConduits p lvOk).trainDrop p tcAbandoned
  let m := ((m.collPartition p).txFault p).traceIdle p
  let c := m.ckpt p
  let m := m.setCkpt p { c with nowReq := false, rollTo := 0, exemptTo := 0 }
  let m := if m.fld R.CKP_STATUS_STATE [p] = 0 then m else m.setFld R.CKP_STATUS_STATE [p] 0
  let m := if m.fld R.COL_TEXPORT_STATUS_STATE [p] = 1 then m.setFld R.COL_TEXPORT_STATUS_STATE [p] 0 else m
  let m := { m with fix := { m.fix with panes := m.fix.panes.filter (fun x => x.1 != p) },
                    part := { m.part with exempt := m.part.exempt.filter (fun q => q != p) } }
  ((m.unhold p hdRepair).unhold p hdCkpt).unhold p hdRoll |>.unhold p hdHier

/-- A partition becomes FAULTED with a cause: 1 a CONTAINED error, 2 the watchdog (R485). -/
def Mach.contain (m : Mach) (p cause : Nat) : Mach :=
  let st := m.pstate p
  if st = psLoading ∨ st = psActive ∨ st = psPaused ∨ st = psDraining then
    let m := (m.setPstate p psFaulted).setFld R.PTN_PSTATE_FAULT_CAUSE [p] cause
    let m := { m with part := { m.part with loading := Tbl.set 0 m.part.loading p 0 } }
    let m := (m.abortPart p false).dropLaunches p true
    let m := (List.range 4).foldl (fun m h => m.hatchFlush p h true) m
    let m := (m.servFail p gcPartition).pipesStop p
    let m := (m.stopWork p).dropHandlers p
    let m := m.setDebt p 0
    if st = psActive then m.leftActive p else m
  else m

/-- A handler of a partition is restoring a checkpoint: the one action of a handler during which an error of CONTAINED severity that comes counts as
raised by it (R569, log entry 98). -/
def Mach.inHandler (m : Mach) (p : Nat) : Bool := (m.ckpt p).rollTo != 0 && m.fld R.CKP_STATUS_STATE [p] == 3
/-- A record of severity CONTAINED and its handler: the partition becomes FAULTED (R560, R566); with IN_HANDLER and ESCALATED where a handler's
action raised it (R569). -/
def Mach.containedBy (m : Mach) (handler : Bool) (p code source info0 info1 cause : Nat) : Mach :=
  let m := m.place { ErrRec.mk0 sevContained p code source info0 info1 with flags := if handler then 3 else 0 }
  (m.startHandler p sevContained code).contain p cause
/-- An error of severity CONTAINED (R560). -/
def Mach.contained (m : Mach) (p code source info0 info1 cause : Nat) : Mach := m.containedBy (m.inHandler p) p code source info0 info1 cause

/-- FATAL (R570): the record, ALERT_N, every link DOWN, and nothing starts until RESET_N. -/
def Mach.fatal (m : Mach) (code source info0 : Nat) : Mach :=
  if m.fld R.ERR_MSTATE_STATE [] ≠ 0 then m
  else
    let m := m.place (ErrRec.mk0 sevFatal 0 code source info0 0)
    let m := (m.startHandler 0 sevFatal code).setFlds [] [(R.ERR_MSTATE_STATE, 1), (R.ERR_MSTATE_CAUSE, code)]
    (List.range 10).foldl (fun m n => if m.lstate n = lkDown then m else m.toDown n 0) m

/-- The work of a partition submitted before DRAIN has run to its end: no dispatched command is incomplete, nothing sealed or submitted
before DRAIN waits, no entry is live, training and conduits have ended (R489). -/
def Mach.drained (m : Mach) (p : Nat) : Bool :=
  !m.anyStarted p && (m.conf.cfg.panes p).all (fun q => (m.context p q).cmds.isEmpty) && !m.part.launches.any (fun l => l.part == p) &&
  (List.range 4).all (fun h => (let d := Tbl.get 0 m.part.drainAt (p * 4 + h)
    d == 0 || seqGe (m.hatch p h).disp (d - 1))) &&
  !(m.entsOf p).any (fun x => gsLive x.2.st) && m.tstate p == tsStopped &&
  (List.range 64).all (fun c => m.cdPart c != p || m.cdState c == cdClosed || m.cdState c == cdHalted) &&
  m.fld R.COL_CSTAT_INFLIGHT [p] == 0

end Sys2Proof.Machine
end

