-- ==== Sys2Proof/Machine/CountOps.lean ====
section
/-! DEFINITION. Interval counts that move with time (R519), sample records (R516 to R520), trace regions (R523 to R529). -/

namespace Sys2Proof.Machine

/-! ### Counts of a tick -/

/-- A stream of a pane waits. -/
def Mach.anyWaits (m : Mach) (q : Nat) : Bool := (List.range 3).any (fun n => m.sstate q n == ssWait)
/-- The ticks in which requests wait for a regulator or a ceiling: MEM_PREG.WAIT in units of 1,024 (R390), and C4 of a stack (R519). -/
def Mach.memWaitTick (m : Mach) : Mach :=
  let m := m.conf.cfg.parts.foldl (fun m p =>
    if m.fld R.MEM_PREG_CEIL_GBS [p] = 0 ∨ !Config.memWaits p m.now then m
    else
      let n := Tbl.get 0 m.tier.waitTicks p + 1
      ({ m with tier := { m.tier with waitTicks := Tbl.set 0 m.tier.waitTicks p (n % 1024) } }).addSat R.MEM_PREG_WAIT [p] (n / 1024)) m
  (List.range 16).foldl (fun m s =>
    if m.fld R.MEM_STACK_LEVEL [s] = 0 ∨ !Config.memWaits (64 + s) m.now then m else m.countFor 0 (isl 4 (s * 32)) 4 1) m
/-- Busy and wait ticks of a pane, of a Louvre and of a sampler (R519). A Louvre half is busy while it holds a row, and a sampler while it
holds one (log entry 29). -/
def Mach.countTick (m : Mach) : Mach :=
  let m := (m.core.panes.map (fun e => e.1)).foldl (fun m q =>
    let x := m.pane q
    let o := m.paneOwner q
    let add (m : Mach) (k : Nat) (b : Bool) : Mach := if b then m.count o q k 1 else m
    if o = 0 ∨ m.core.stopped.contains q then m
    else add (add (add (add m 0 (!x.mruns.isEmpty)) 1 x.vrun.isSome) 2 (!x.cruns.isEmpty)) 3 (m.anyWaits q)) m
  let m := (m.conds.map (fun e => e.1)).foldl (fun m c =>
    let x := m.cond c
    let add (m : Mach) (d : Option Nat) (k : Nat) (b : Bool) : Mach := match d with
      | some d => if b then m.countFor 0 (isl 1 d) k 1 else m
      | none => m
    if !m.cdRuns c then m
    else
      let m := add m (m.cdEmit c) 0 (!x.trows.isEmpty)
      let m := add m (m.cdLoss c) 1 (!x.srows.isEmpty || x.pass.isSome)
      add m (m.cdEmit c) 3 (!x.ready.isEmpty && m.fld R.LVR_CSTATE_CREDITS [c] == 0)) m
  ((List.range 8).foldl (fun m d => if (m.smp d).isEmpty ∨ m.core.stopped.contains (isl 2 d) then m else m.countFor 0 (isl 2 d) 0 1) m).memWaitTick

/-! ### Sample records (R517, R518) -/

/-- Bytes of a sample record with n entries, to the next 64-byte boundary (R518). -/
def sampleBytes (n : Nat) : Nat := roundUp (64 + 32 * n) 64
/-- The islands of a record in order: the partition entry, then panes, and for the provider the shared units (R519). -/
def Mach.sampleIslands (m : Mach) (o : Nat) : List Nat :=
  if o = 0 then
    islPart :: (List.range 384 ++ (List.range 8).map (isl 1) ++ (List.range 8).map (isl 2) ++ (List.range 16).map (fun s => isl 4 (s * 32)) ++
      (List.range 10).map (isl 5) ++ (List.range 4).map (isl 6))
  else islPart :: m.conf.cfg.panes o
/-- RECORD_BYTES of every owner. -/
def Mach.recordSync (m : Mach) : Mach :=
  (List.range 33).foldl (fun m o =>
    m.setFld R.SRV_CSTAT_RECORD_BYTES [o] (if o ≠ 0 ∧ (m.conf.cfg.part o).isNone then 0 else sampleBytes (m.sampleIslands o).length)) m
/-- Counts that are bytes: KiB in the record, a remainder carried over (R518, R519). -/
def countIsBytes (island k : Nat) : Bool :=
  if island = islPart then decide (k < 4) else decide (island / 4096 = 4 ∨ island / 4096 = 5 ∨ island / 4096 = 6) && decide (k < 2)
/-- A count as the record shows it. -/
def Mach.shownCount (m : Mach) (o island k : Nat) : Nat :=
  let v := Tbl.get 0 m.srv.counts ((o * 65536 + island) * 8 + k)
  let i := island % 4096
  let v := if countIsBytes island k then v / 1024
    else if island / 4096 = 4 ∧ k = 3 then m.fld R.MEM_STACK_TEMP [i / 32] + m.fld R.MEM_STACK_LEVEL [i / 32] * 256
    else if island / 4096 = 5 ∧ k = 5 then m.fld R.MRD_LSTATE_WIDTH [i] + m.fld R.MRD_LSTATE_STATE [i] * 256
    else v
  min v (2 ^ 32 - 1)
/-- The pane belongs to a time-shared group. -/
def Mach.sharedPane (m : Mach) (q : Nat) : Bool := ((m.conf.cfg.partitions.find? (fun e => bitmapHas e 32 q)).map (fun e => leAt e 1 1 == 1)).getD false
/-- FLAGS of an entry: SHARED, ABSENT. -/
def Mach.entryFlags (m : Mach) (island : Nat) : Nat :=
  let i := island % 4096
  if island = islPart then 0
  else if island / 4096 = 0 then b2n (m.sharedPane i) + 2 * b2n (!m.flag R.PNE_ID_PRESENT [i])
  else if island / 4096 = 4 then 2 * b2n ((List.range 32).all (fun c => m.fld R.MEM_CHAN_STATE [i + c] == 0))
  else if island / 4096 = 6 ∧ 2 ≤ i then 2 * b2n (m.fld R.FAR_PORT_STATE [i - 2] == 0)
  else 0
/-- An entry of 32 bytes. -/
def Mach.sampleEntry (m : Mach) (o island : Nat) : List Byte :=
  let part := if island = islPart then o else if island / 4096 = 0 then (if o = 0 then m.paneOwner island else o) else 0
  leBytes 2 island ++ leBytes 1 part ++ leBytes 1 (m.entryFlags island) ++ (List.range 7).flatMap (fun k => leBytes 4 (m.shownCount o island k))
/-- The record of the interval that ends now. -/
def Mach.sampleRecord (m : Mach) (o : Nat) : List Byte :=
  let l := m.sampleIslands o
  let mg := Tbl.get 0 m.srv.merged o
  leBytes 8 m.now ++ leBytes 8 (Tbl.get 0 m.srv.seqs o) ++ leBytes 4 (m.fld R.SRV_CCFG_INTERVAL_US [o]) ++ leBytes 2 l.length ++ leBytes 1 o ++
  leBytes 1 (b2n (m.srv.partials.contains o) + 2 * b2n (mg != 0)) ++ leBytes 4 mg ++ List.replicate 36 0 ++ l.flatMap (fun i => m.sampleEntry o i)
/-- The counts of an owner begin a new interval: byte counts keep their remainder, peaks start from what is there. -/
def Mach.countsBegin (m : Mach) (o : Nat) : Mach :=
  let keep (e : Nat × Nat) : Option (Nat × Nat) :=
    if e.1 / 8 / 65536 ≠ o then some e
    else if countIsBytes (e.1 / 8 % 65536) (e.1 % 8) ∧ e.2 % 1024 ≠ 0 then some (e.1, e.2 % 1024) else none
  let m := { m with srv := { m.srv with counts := m.srv.counts.filterMap keep } }
  let m := if o = 0 then m else m.peakFor o islPart 6 ((m.fld R.ERR_QSTAT_HEAD [o] + 2 ^ 32 - m.fld R.ERR_QTAIL_TAIL [o]) % 2 ^ 32)
  (if o = 0 then m.core.panes.map (fun e => e.1) else (m.conf.cfg.panes o).filter (fun q => m.paneOwner q == o)).foldl (fun m q =>
    let x := m.pane q
    m.queuePeak o q x.mq.length x.vq.length x.cq.length) m
/-- Bytes written piece by piece where a window register names them; pieces outside the owner's memory are dropped. -/
def Mach.putWindow (m : Mach) (o : Nat) (key : Nat → Option Nat) (at_ : Nat) (bs : List Byte) : Mach :=
  (List.range (ceilDiv bs.length 32)).foldl (fun m i =>
    let part := (bs.drop (32 * i)).take 32
    match key (at_ + 32 * i) with
    | some k => (m.store k part).traffic o true [(k, part.length)]
    | none => m) m
/-- COUNTER_SAMPLE (R516, R517): late says that the previous record is still being written. -/
def Mach.counterSample (m : Mach) (o : Nat) (late : Bool) : Mach :=
  let iv := m.fld R.SRV_CCFG_INTERVAL_US [o] * 1000
  if !m.running ∨ !m.flag R.SRV_CCFG_ENABLE [o] ∨ iv = 0 ∨ m.now % iv ≠ 0 then m
  else if late then
    ({ m with srv := { m.srv with merged := Tbl.set 0 m.srv.merged o (Tbl.get 0 m.srv.merged o + 1) } }).addSat R.SRV_CSTAT_SKIPPED [o] 1
  else
    let n := Tbl.get 0 m.srv.seqs o
    let slots := m.fld R.SRV_CCFG_SLOTS [o]
    let bs := m.sampleRecord o
    let space := m.fld R.SRV_CBUF_SPACE [o]
    let base := m.fld R.SRV_CBUF_BASE [o]
    let m := { m.countsBegin o with srv := { (m.countsBegin o).srv with seqs := Tbl.set 0 m.srv.seqs o (n + 1), merged := Tbl.set 0 m.srv.merged o 0,
                                                                        partials := eraseNat o m.srv.partials } }
    let key := m.bufKey o space base
    (m.putWindow o key (n % max 1 slots * sampleBytes (m.sampleIslands o).length) bs).setFld R.SRV_CSTAT_SEQ [o] (n + 1)
/-- ENABLE of the counter buffer set or cleared (R516, R517): the counts of the first interval start here. -/
def Mach.counterEnable (m : Mach) (o : Nat) (on : Bool) : Mach :=
  let iv := m.fld R.SRV_CCFG_INTERVAL_US [o]
  if !on then m.setFld R.SRV_CCFG_ENABLE [o] 0
  else if m.flag R.SRV_CCFG_ENABLE [o] ∨ iv = 0 ∨ 10 ^ 6 < iv ∨ m.fld R.SRV_CCFG_SLOTS [o] = 0 then m
  else
    let m := { m with srv := { m.srv with counts := m.srv.counts.filter (fun e => e.1 / 8 / 65536 != o), seqs := Tbl.set 0 m.srv.seqs o 0,
                                          merged := Tbl.set 0 m.srv.merged o 0, partials := insertNat o m.srv.partials } }
    ((m.countsBegin o).setFld R.SRV_CSTAT_SEQ [o] 0).setFld R.SRV_CCFG_ENABLE [o] 1

/-! ### Trace (R523 to R529) -/

/-- The trace region of an owner lies in its memory, with 1 ≤ PRE < SIZE (R523). -/
def Mach.traceRegionOk (m : Mach) (o : Nat) : Bool :=
  let pre := m.fld R.SRV_TREGION_PRE [o]
  let size := m.fld R.SRV_TREGION_SIZE [o]
  decide (1 ≤ pre ∧ pre < size ∧ 2 ≤ size ∧ size ≤ 8192) &&
  (o == 0 || (m.fld R.SRV_TREGION_SPACE [o] == 2 && (List.range size).all (fun i => (m.traceKey o (i * 2 ^ 21)).isSome)))
/-- ARM (R524). -/
def Mach.traceArm (m : Mach) (o : Nat) : Mach :=
  if m.fld R.SRV_TSTAT_STATE [o] ≠ 0 then m.setFld R.SRV_TSTAT_CODE [o] 1
  else if !m.traceRegionOk o then m.setFld R.SRV_TSTAT_CODE [o] 2
  else
    let m := m.traceIdle o
    let m := { m with srv := { m.srv with ringOldest := Tbl.set 0 m.srv.ringOldest o 0 } }
    m.setFlds [o] [(R.SRV_TSTAT_STATE, 1), (R.SRV_TSTAT_CODE, 0), (R.SRV_TSTAT_TRACE_FULL, 0), (R.SRV_TSTAT_WRAPPED, 0), (R.SRV_TSTAT_PRE_NEXT, 0),
      (R.SRV_TSTAT_POST_COUNT, 0), (R.SRV_TLOST_LOST_POST, 0), (R.SRV_TLOST_DROPPED, 0)]
/-- TRIGGER (R525). -/
def Mach.traceTrigger (m : Mach) (o : Nat) : Mach := if m.fld R.SRV_TTRIG_SOURCE [o] = 0 then m.traceFire o else m
/-- DISARM (R524): contents and counts stay. -/
def Mach.traceDisarm (m : Mach) (o : Nat) : Mach := if m.fld R.SRV_TSTAT_STATE [o] = 0 then m else m.traceIdle o
/-- The time trigger (R525). -/
def Mach.traceTime (m : Mach) (o : Nat) : Mach :=
  if m.fld R.SRV_TTRIG_SOURCE [o] = 1 ∧ m.fld R.SRV_TTIME_TIME [o] ≤ m.now then m.traceFire o else m
/-- A record into the ring at PRE_NEXT. -/
def Mach.ringPut (m : Mach) (o : Nat) (bs : List Byte) : Mach :=
  let n := m.fld R.SRV_TSTAT_PRE_NEXT [o]
  let size := m.fld R.SRV_TREGION_PRE [o] * 65536
  let m := (m.putWindow o (m.traceKey o) (n * 32) bs).setFld R.SRV_TSTAT_PRE_NEXT [o] ((n + 1) % size)
  if n + 1 = size then m.setFld R.SRV_TSTAT_WRAPPED [o] 1 else m
/-- A record into the post-trigger region, which may fill it (R526, R527). -/
def Mach.postPut (m : Mach) (o : Nat) (bs : List Byte) : Mach :=
  let pre := m.fld R.SRV_TREGION_PRE [o] * 65536
  let n := m.fld R.SRV_TSTAT_POST_COUNT [o]
  let m := (m.putWindow o (m.traceKey o) ((pre + n) * 32) bs).setFld R.SRV_TSTAT_POST_COUNT [o] (n + 1)
  if pre + n + 1 = m.fld R.SRV_TREGION_SIZE [o] * 65536 then
    (m.setFlds [o] [(R.SRV_TSTAT_STATE, 3), (R.SRV_TSTAT_TRACE_FULL, 1)]).ownerVector o 7 3
  else m
/-- The oldest record of a pane's trace port leaves it (R526 to R528). -/
def Mach.traceDrain (m : Mach) (o pane : Nat) : Mach :=
  let st := m.fld R.SRV_TSTAT_STATE [o]
  match m.tracePort o pane with
  | [] => m
  | b :: l =>
    let m' := { m with srv := { m.srv with ports := Tbl.set [] m.srv.ports (o * 512 + pane) l } }
    let late := decide (leAt b 0 8 < m.fld R.SRV_TTRIGT_TRIG_TIME [o])
    let there := match m.traceKey o (m.fld R.SRV_TSTAT_PRE_NEXT [o] * 32) with
      | some k => m.loadLe k 8
      | none => 0
    if !m.running ∨ st = 0 then m
    else if st = 1 then m'.ringPut o b
    else if st = 3 then m'.addSat R.SRV_TLOST_LOST_POST [o] 1
    else if !late then m'.postPut o b
    else if m.flag R.SRV_TSTAT_WRAPPED [o] ∧ Tbl.get 0 m.srv.ringOldest o < there + 1 then m'.addSat R.SRV_TLOST_DROPPED [o] 1
    else m'.ringPut o b

end Sys2Proof.Machine
end

