-- ==== Sys2Proof/Machine/FabricOps.lean ====
section
/-! DEFINITION. The fabric: delivery over routes (R36), bridge retries and wire tests (R38, R42). -/

namespace Sys2Proof.Machine

/-- Two transfers have one sender. -/
def Xfer.alike (x y : Xfer) : Bool := x.part == y.part && x.pane == y.pane && x.queue == y.queue && x.src == y.src && x.sealNo == y.sealNo
/-- A transfer that a command sent. -/
def Xfer.ofCmd (x : Xfer) (q : QCmd) : Bool := x.sentBy x.pane q
/-- The command that sent a transfer ends with a code, its other transfers dropped (R36, R164): a command in flight, or a copy that waits in
its queue between two pieces, of a member outside its slice too (R185). p is the partition of the route. -/
def Mach.endSender (m : Mach) (p : Nat) (x : Xfer) (code : Nat) : Mach :=
  if 384 ≤ x.pane then m
  else
    let m := m.dropXfers (fun y => y.alike x)
    let c := m.context p x.pane
    let mine (r : Run) : Bool := x.ofCmd r.cmd
    let gone := ((c.vrun.toList ++ c.cruns).filter mine).map (fun r => r.cmd) ++ c.cq.filter x.ofCmd
    let m := m.setContext p x.pane { c with vrun := c.vrun.filter (fun r => !mine r), cruns := c.cruns.filter (fun r => !mine r), cq := c.cq.filter (fun q => !x.ofCmd q) }
    gone.foldl (fun m q => m.failCmd x.pane q code) (if m.paneOwner x.pane = p then m.queueSync x.pane else m)
/-- Every transfer of a route dropped, each command that sent one ABORTED (R36). -/
def Mach.dropRoute (m : Mach) (e : List Byte) : Mach :=
  let rt := leAt e 0 2
  (m.xfersOf rt).foldl (fun m x => m.endSender (leAt e 3 1) x cAborted) (m.setXfers rt [])
/-- The routes to an island dropped. -/
def Mach.dropRoutesTo (m : Mach) (isle : Nat) : Mach :=
  (m.conf.cfg.routes.filter (fun e => routeDst e == isle)).foldl (fun m e => m.dropRoute e) m
/-- The command in flight that sent a transfer. -/
def Mach.senderRun (m : Mach) (p : Nat) (x : Xfer) : Option Run :=
  let c := m.context p x.pane
  (c.vrun.toList ++ c.cruns).find? (fun r => x.ofCmd r.cmd)
/-- A command in flight that sent a transfer, changed. -/
def Mach.setSender (m : Mach) (p : Nat) (x : Xfer) (f : Run → Run) : Mach :=
  let c := m.context p x.pane
  let g (r : Run) : Run := if x.ofCmd r.cmd then f r else r
  m.setContext p x.pane { c with vrun := c.vrun.map g, cruns := c.cruns.map g }
/-- The first transfer of a command is about to land while its SIGNAL token stands at 255: the command fails and writes nothing (R164,
R166). -/
def Mach.tokenFull (m : Mach) (p : Nat) (x : Xfer) : Bool :=
  decide (x.pane < 384) && (m.senderRun p x).any (fun r =>
    !r.begun && (m.context p x.pane).tokenFull r.cmd.desc.signal)
/-- Before the transfer in front of a route lands: one over a failed direction, or to an island that has failed, is discarded with those
behind it (R36, R42); one whose command has no room in its SIGNAL token ends it (R164). none where it may land. -/
def Mach.turnedAway (m : Mach) (e : List Byte) (x : Xfer) : Option Mach :=
  let p := leAt e 3 1
  if m.core.failed.contains (routeDst e) || m.routeDead e then some (m.dropRoute e)
  else if m.tokenFull p x then some ((m.setXfers (leAt e 0 2) ((m.xfersOf (leAt e 0 2)).drop 1)).endSender p x cTokenOverflow)
  else none
/-- The transfer in front of a route has landed: it leaves the route, whose next one has had no wire test yet (R42). Of a frame to a Louvre or a
sampler its command's progress says so (R184). -/
def Mach.landed (m : Mach) (e : List Byte) (x : Xfer) : Mach :=
  let rt := leAt e 0 2
  let n := if routeDst e < 4096 then 0 else x.bytes.length
  let m := (m.setXfers rt ((m.xfersOf rt).drop 1)).setSender (leAt e 3 1) x (fun r =>
    { r with landed := true, cmd := { r.cmd with progress := r.cmd.progress + n } })
  let m := m.clearTests rt
  if 4096 ≤ x.pane then m.cdDrained (x.pane - 4096) else m
/-- A Louvre or a sampler works on the frame in front of a route: it waits during a wire test and for the rest of a frame that a boundary cut
(R184), and is discarded like any transfer over a
failed direction; one that was taken has landed (R36, R42, R164). -/
def Mach.throughRoute (m : Mach) (rt : Nat) (act : Mach → Mach) : Mach :=
  match m.conf.cfg.route rt, m.xfersOf rt with
  | some e, x :: l =>
    if m.routeTested e || x.more then m
    else if m.routeDead e then m.dropRoute e
    else
      let m' := act m
      if (m'.xfersOf rt).length ≤ l.length then
        (if m.tokenFull (leAt e 3 1) x then (m.setXfers rt l).endSender (leAt e 3 1) x cTokenOverflow
         else ((m'.setXfers rt (x :: m'.xfersOf rt))).landed e x)
      else m'
  | _, _ => act m

/-- The bytes of a transfer put into a pane store: its poisoned units apart (R377). -/
def Mach.putXfer (m : Mach) (pane : Nat) (x : Xfer) : Mach :=
  let n := x.bytes.length
  if x.poisoned then m.storePoisoned (paneKey pane x.offset) x.bytes
  else x.tags.foldl (fun m i => m.poisonLines (paneKey pane (x.offset + 64 * i)) (min 64 (n - 64 * i))) (m.store (paneKey pane x.offset) x.bytes)
/-- A piece of a copy has landed: the copy sends its next one, unless it stopped at this boundary (R164, R185), or has gone on since and its next
piece is on its way. -/
def Mach.nextPiece (m : Mach) (p : Nat) (x : Xfer) : Mach :=
  match if x.more then m.senderRun p x else none with
  | none => m
  | some r =>
    if m.hasXfers x.pane r.cmd then m
    else match m.copyPlan x.pane r.cmd with
    | .error c => m.endSender p x c
    | .ok g =>
      let hi := m.pieceEnd r.cmd
      let r' := { r with cmd := { r.cmd with progress := hi } }
      let r' := m.watchPart g { r' with poisoned := r.poisoned || !(m.pieceTags g r').isEmpty } (m.pieceEnd r'.cmd)
      (m.setSender p x (fun _ => r')).sendPiece x.pane g r'
/-- TRANSFER_DELIVERY (R36, R164): the oldest transfer of a route to a pane lands, and the route's token counts. A pane that is stopped,
or whose slice belongs to another partition, cannot accept. -/
def Mach.deliver (m : Mach) (rt : Nat) : Mach :=
  match m.conf.cfg.route rt, m.xfersOf rt with
  | some e, x :: _ =>
    let q := routeDst e
    let p := leAt e 3 1
    if 384 ≤ q then m
    else if !m.running || m.routeTested e || m.core.stopped.contains q || m.paneOwner q != p then
      (if m.core.failed.contains q || m.routeDead e then m.dropRoute e else m)
    else match m.turnedAway e x with
      | some m' => m'
      | none =>
        let m := (m.putXfer q x).landed e x
        let t := leAt e 9 1
        let m := if !x.more && decide (48 ≤ t ∧ t ≤ 63) then m.setPane q ((m.pane q).signal t) else m
        m.nextPiece p x
  | _, _ => m

/-! ### Retries and wire tests (R42) -/

/-- The panes of a memory route's partition on the die it leaves, and their commands in flight that use it, drained split-K slices included. -/
def Mach.memUsers (m : Mach) (e : List Byte) : List (Nat × Run) :=
  if leAt e 2 1 ≠ 2 then []
  else
    ((m.conf.cfg.panes (leAt e 3 1)).filter (fun q => dieOf q == islandDie (routeSrc e) && m.paneOwner q == leAt e 3 1)).flatMap (fun q =>
      let c := m.pane q
      ((c.mruns ++ c.vrun.toList ++ c.cruns ++ c.split).filter (fun r => (m.memRoutes q r.cmd).contains (leAt e 0 2))).map (fun r => (q, r)))
/-- The commands in flight whose accesses go over a memory route end ABORTED (R36, R42). -/
def Mach.abortOverMem (m : Mach) (e : List Byte) : Mach :=
  (m.memUsers e).foldl (fun m x =>
    let c := m.pane x.1
    let keep (r : Run) : Bool := r != x.2
    let there := (c.mruns ++ c.vrun.toList ++ c.cruns ++ c.split).contains x.2
    let m := m.setPane x.1 { c with mrun := c.mrun.filter keep, mdrain := c.mdrain.filter keep, vrun := c.vrun.filter keep, cruns := c.cruns.filter keep,
                                    split := c.split.filter keep }
    if there then m.failCmd x.1 x.2.cmd cAborted else m) m
/-- A direction is failed (R42): transfers routed over it are discarded, and every partition with such a route hears of it. -/
def Mach.dirFail (m : Mach) (d : Nat) : Mach :=
  let m := m.setDirWidth d 2
  let hit := m.conf.cfg.routes.filter (fun e => (routeDirs e).contains d)
  let m := hit.foldl (fun m e => (m.dropRoute e).abortOverMem e) m
  let ps := hit.foldl (fun l e => insertNat (leAt e 3 1) l) []
  ps.foldl (fun m p => m.contained p 0x26 0xFFFF (d / 2) 0 1) m
/-- Retries of the transfer in front of a route over a direction that failed since its last test: held with the transfer, or for a route
whose accesses are no held transfers (a memory route, or that of a conduit's records) with the route. none where nothing crosses it. -/
def Mach.retriesOf (m : Mach) (e : List Byte) (d : Nat) : Option Nat :=
  let rt := leAt e 0 2
  match m.xfersOf rt with
  | x :: _ => some (Tbl.get 0 x.retries d)
  | [] =>
    if !(m.memUsers e).isEmpty ∨ (List.range 64).any (fun c => (m.cdRoute c).any (fun x => leAt x 0 2 == rt) && !(m.cond c).flight.isEmpty)
    then some (Tbl.get 0 m.core.retries (rt * 32 + d)) else none
/-- That count set. -/
def Mach.setRetries (m : Mach) (e : List Byte) (d n : Nat) : Mach :=
  let rt := leAt e 0 2
  match m.xfersOf rt with
  | x :: l => m.setXfers rt ({ x with retries := Tbl.set 0 x.retries d n } :: l)
  | [] => { m with core := { m.core with retries := Tbl.set 0 m.core.retries (rt * 32 + d) n } }
/-- BRIDGE_CRC_MISMATCH (R42): the first mismatch and four failed retries lead to the wire test; after a test asked for by the same
transfer, to the failure of a direction that runs at half width or that no half can complete. -/
def Mach.crcMismatch (m : Mach) (rt d : Nat) : Mach :=
  match m.conf.cfg.route rt with
  | none => m
  | some e =>
    match m.retriesOf e d with
    | none => m
    | some n =>
      let key := rt * 32 + d
      if !m.running || !(routeDirs e).contains d || m.core.testing.contains d || m.dirWidth d == 2 then m
      else if n < 4 then m.setRetries e d (n + 1)
      else
        let m := m.setRetries e d 0
        if m.core.tested.contains (2 * key + 1) ∨ (m.core.tested.contains (2 * key) ∧ m.dirWidth d = 1) then m.dirFail d
        else { m with core := { m.core with testing := insertNat d m.core.testing, asked := insertNat key m.core.asked } }
/-- BRIDGE_WIRE_TEST_DONE (R42): the failed wires are known, spares mapped, the width set, a BRIDGE record placed; with no half completed
the width stands until the retries fail again. -/
def Mach.wireTested (m : Mach) (d : Nat) (bad : List Nat) : Mach :=
  if !m.core.testing.contains d then m
  else
    let w := wireWidth bad
    let mine := m.core.asked.filter (fun k => k % 32 == d)
    let c := m.core
    let m := { m with core := { c with testing := eraseNat d c.testing, asked := c.asked.filter (fun k => k % 32 != d), badWires := Tbl.set [] c.badWires d bad,
                                       tested := mine.foldl (fun l k => insertNat (2 * k + b2n (w == 2)) (eraseNat (2 * k) (eraseNat (2 * k + 1) l))) c.tested } }
    let m := if w = 1 then m.setDirWidth d 1 else m
    m.place (ErrRec.mk0 sevCorrected 0 ecBridge 0xFFFF (d / 2) 0)

end Sys2Proof.Machine
end

