-- ==== Sys2Proof/Machine/ImageOps.lean ====
section
/-! DEFINITION. Kregaog images: layout, sections and entries (R188 to R203), the check word (R204 to R206), the checks of R207 with the codes of R208, commit records (R210, R215). -/

namespace Sys2Proof.Machine

/-- Result codes of loads (R208). -/
def rcOk : Nat := 0x00
def rcBadMagic : Nat := 0x01
def rcBadVersion : Nat := 0x02
def rcBadLength : Nat := 0x03
def rcBadSection : Nat := 0x04
def rcSigFail : Nat := 0x05
def rcKeyMismatch : Nat := 0x06
def rcRollback : Nat := 0x07
def rcTorn : Nat := 0x08
def rcEmpty : Nat := 0x09
def rcPaneAbsent : Nat := 0x10
def rcHbmShort : Nat := 0x11
def rcTransomShort : Nat := 0x12
def rcSpareShort : Nat := 0x13
def rcClockRange : Nat := 0x14
def rcPrio : Nat := 0x15
def rcRoute : Nat := 0x16
def rcPartition : Nat := 0x17
def rcConduit : Nat := 0x18
def rcSchedule : Nat := 0x19
def rcCode : Nat := 0x1A
def rcLcDenied : Nat := 0x33

/-- A failed check: code, section table index (0xFFFF none), entry index (0xFFFFFF none). -/
abbrev ImgFail := Nat × Nat × Nat
/-- A failure of no section. -/
def imgFail (code : Nat) : ImgFail := (code, 0xFFFF, 0xFFFFFF)
/-- The first failure of a list of checks. -/
def firstFail : List (Option ImgFail) → Option ImgFail
  | [] => none
  | some e :: _ => some e
  | none :: l => firstFail l

/-! ### Layout (R188 to R193) -/

/-- Bytes of an entry of a section type, 0 for an unknown type (R192). -/
def entrySize : Nat → Nat
  | 1 => 64
  | 2 => 32
  | 3 => 128
  | 4 => 8
  | 5 => 8
  | 6 => 65792
  | 7 => 32
  | 8 => 1024
  | 9 => 16
  | _ => 0
/-- The section types of a full image that are required (R192). -/
def requiredTypes : List Nat := [1, 2, 3, 4, 5, 6]

/-- An entry of the section table (R191). -/
structure Sect where
  type : Nat
  version : Nat
  flags : Nat
  count : Nat
  offset : Nat
  length : Nat
  rsv : Nat
deriving DecidableEq, Repr

/-- Header fields (R189). -/
def imFlags (b : List Byte) : Nat := leAt b 15 1
def imLength (b : List Byte) : Nat := leAt b 16 8
def imTable (b : List Byte) : Nat := leAt b 24 8
def imSections (b : List Byte) : Nat := leAt b 32 4
def imSvn (b : List Byte) : Nat := leAt b 36 4
def imId (b : List Byte) : Nat := leAt b 40 8
def imBase (b : List Byte) : Nat := leAt b 48 8
/-- REQ_HBM_GIB, REQ_TRANSOM_MIB, REQ_SPARES. -/
def imReq (b : List Byte) : Nat × Nat × Nat := (leAt b 64 2, leAt b 66 2, leAt b 68 1)
/-- ASCII "KRGIMAGE". -/
def imMagic : Nat := ofLe [0x4B, 0x52, 0x47, 0x49, 0x4D, 0x41, 0x47, 0x45]

/-- Entry i of the section table. -/
def sectAt (b : List Byte) (i : Nat) : Sect :=
  let o := imTable b + 32 * i
  { type := leAt b o 2, version := leAt b (o + 2) 1, flags := leAt b (o + 3) 1, count := leAt b (o + 4) 4, offset := leAt b (o + 8) 8,
    length := leAt b (o + 16) 8, rsv := leAt b (o + 24) 8 }
/-- The section table, of at most 64 entries. -/
def sectTable (b : List Byte) : List Sect := (List.range (min 64 (imSections b))).map (sectAt b)
/-- The entries of a section. -/
def sectEntries (b : List Byte) (s : Sect) : List (List Byte) :=
  (List.range s.count).map (fun j => sliceBytes b (s.offset + j * entrySize s.type) (entrySize s.type))

/-- Row 1 of R207: MAGIC, LENGTH, TABLE_OFFSET, and the layout of R188, with the first section that lies outside or meets another. -/
def layoutCheck (b : List Byte) : Option ImgFail :=
  if leAt b 0 8 ≠ imMagic then some (imgFail rcBadMagic)
  else if b.length < 384 ∨ imLength b ≠ b.length ∨ imLength b % 64 ≠ 0 ∨ imTable b % 64 ≠ 0 then some (imgFail rcBadLength)
  else
    let table := (imTable b, 32 * imSections b)
    let spans := ((sectTable b).map (fun s => (s.offset, s.length))).zipIdx.filter (fun x => x.1.2 != 0)
    let inside (x : Nat × Nat) : Bool := decide (256 ≤ x.1 ∧ x.1 + x.2 ≤ imLength b - 128)
    let apart (x y : Nat × Nat) : Bool := decide (x.1 + x.2 ≤ y.1 ∨ y.1 + y.2 ≤ x.1)
    if !inside table then some (imgFail rcBadLength)
    else match spans.find? (fun x => !inside x.1 || !apart table x.1 || spans.any (fun y => x.2 != y.2 && !apart x.1 y.1)) with
      | some x => some (rcBadLength, x.2, 0xFFFFFF)
      | none => none
/-- Row 2 of R207 (R190). -/
def versionCheck (b : List Byte) : Option ImgFail :=
  if leAt b 8 2 = 1 ∧ leAt b 12 2 = 0x6160 ∧ leAt b 14 1 = 1 then none else some (imgFail rcBadVersion)

/-! ### Entries (R194 to R201) -/

/-- Every byte of a range of an entry is 0. -/
def zeroAt (e : List Byte) (o n : Nat) : Bool := ((e.drop o).take n).all (fun b => b == 0)
/-- Every RSV byte of an entry is 0 and every field lies within its stated range. -/
def imgEntryOk (t : Nat) (e : List Byte) : Bool :=
  let f (o n lo hi : Nat) : Bool := decide (lo ≤ leAt e o n ∧ leAt e o n ≤ hi)
  match t with
  | 1 => f 0 2 0 4095 && f 2 1 1 32 && f 3 1 0 3 && f 4 1 0 1 && f 5 1 1 8 && zeroAt e 6 2 && zeroAt e 56 8
  | 2 => f 0 2 1 4095 && f 2 1 0 3 && f 3 1 1 32 && f 8 1 0 7 && (f 9 1 48 63 || f 9 1 255 255) && zeroAt e 10 2 && zeroAt e 16 16
  | 3 =>
    f 0 1 1 32 && f 1 1 0 1 && f 2 1 0 1 && f 3 1 1 32 && f 10 2 800 3300 && zeroAt e 14 2 && (List.range 10).all (fun i => f (16 + i) 1 0 64) &&
    zeroAt e 26 2 && (if leAt e 1 1 = 1 then f 28 4 50 100000 else f 28 4 0 0) && zeroAt e 80 48
  | 4 => f 0 1 0 13 && ((List.range 4).map (fun i => leAt e (1 + i) 1)).sum == 64 && zeroAt e 5 3
  | 5 => f 2 1 0 63 && zeroAt e 3 5
  | 6 => f 0 2 0 383 && f 2 1 1 32 && zeroAt e 3 1 && zeroAt e 8 56 && zeroAt e (256 + 4 * min 16384 (leAt e 4 4)) 65536
  | 7 => f 0 1 0 63 && f 1 1 1 32 && f 2 2 0 4095 && f 4 2 0 4095 && f 6 2 1 4095 && f 8 1 0 7 && f 9 1 0 8 && zeroAt e 18 14
  | 8 => f 0 2 0 4095 && f 2 1 1 8 && zeroAt e 3 1 && f 4 2 1 65535 && f 6 2 1 252 && zeroAt e 8 8
  | _ => true
/-- The first entry of a section that breaks imgEntryOk. -/
def badEntry (t : Nat) (l : List (List Byte)) : Option Nat := l.findIdx? (fun e => !imgEntryOk t e)

/-- The part of row 3 of R207 that concerns the header (R189). -/
def imHeaderOk (b : List Byte) (delta factory : Bool) : Bool :=
  decide (1 ≤ imSections b ∧ imSections b ≤ 64) && decide (imFlags b < 4) && bitAt (imFlags b) 1 == delta && (!factory || bitAt (imFlags b) 0) && zeroAt b 69 187 && imId b != 0 &&
  decide (leAt b 68 1 ≤ 4) && (delta || imBase b == 0) && zeroAt b (b.length - 31) 31
/-- Entry i of the section table is well formed, with the entries before it (R191 to R193). -/
def sectOk (delta : Bool) (before : List Sect) (s : Sect) : Bool :=
  !before.any (fun x => x.type == s.type) && decide (s.flags ≤ 1) && s.rsv == 0 && s.offset % 64 == 0 &&
  (if entrySize s.type = 0 then s.flags == 0
   else s.version == 1 && s.length == s.count * entrySize s.type && (delta || s.type != 9) &&
        (delta || s.type != 4 || s.count == 14) && (delta || s.type != 5 || s.count == 384))
/-- Row 3 of R207: the section table and every entry. -/
def sectionCheck (b : List Byte) (delta factory : Bool) : Option ImgFail :=
  let l := sectTable b
  if !imHeaderOk b delta factory then some (imgFail rcBadSection)
  else match l.zipIdx.findIdx? (fun x => !sectOk delta (l.take x.2) x.1) with
    | some i => some (rcBadSection, i, 0xFFFFFF)
    | none =>
      if !delta ∧ !requiredTypes.all (fun t => l.any (fun s => s.type == t)) then some (imgFail rcBadSection)
      else firstFail (l.zipIdx.map (fun x =>
        (badEntry x.1.type (if entrySize x.1.type = 0 then [] else sectEntries b x.1)).map (fun j => (rcBadSection, x.2, j))))

/-! ### Configurations by section type -/

/-- The entries of a section type replaced. -/
def Cfg.setSect (c : Cfg) (t : Nat) (l : List (List Byte)) : Cfg :=
  match t with
  | 1 => { c with stageMap := l }
  | 2 => { c with routes := l }
  | 3 => { c with partitions := l }
  | 4 => { c with fabric := l }
  | 5 => { c with islands := l }
  | 6 => { c with code := l }
  | 7 => { c with conduit := l }
  | 8 => { c with schedule := l }
  | _ => c
/-- The configuration an image carries; unknown sections are skipped (R193). -/
def imageCfg (b : List Byte) : Cfg :=
  (sectTable b).foldl (fun c s =>
    { (if s.type = 0 ∨ 8 < s.type then c else c.setSect s.type (sectEntries b s)) with types := c.types ++ [s.type] }) Cfg.empty
/-- The PATCH entries of a delta: setting address and value (R203). -/
def imagePatch (b : List Byte) : List (Word × Word) :=
  match (sectTable b).find? (fun s => s.type == 9) with
  | some s => (sectEntries b s).map (fun e => (BitVec.ofNat 64 (leAt e 0 8), BitVec.ofNat 64 (leAt e 8 8)))
  | none => []

/-! ### Content checks of R207 -/

/-- A pane is present (R30). -/
def Mach.panePresent (m : Mach) (q : Nat) : Bool := decide (q < 384) && m.flag R.PNE_ID_PRESENT [q]
/-- The first entry of a list that fails a test over its index, the entries before it and itself, as a failure of a section type. -/
def failEntry (code sec : Nat) (l : List (List Byte)) (bad : Nat → List Byte → Bool) : Option ImgFail :=
  (l.zipIdx.find? (fun x => bad x.2 x.1)).map (fun x => (code, sec, x.2))
/-- TARGET_MHZ lies on the grid of R33. -/
def mhzOk (n : Nat) : Bool := decide (800 ≤ n ∧ n ≤ 3300) && (n - 800) % 25 == 0
/-- PRIO names three different streams (R153, R198). -/
def prioOk (n : Nat) : Bool :=
  let a := bits n 5 4
  let b := bits n 3 2
  let c := bits n 1 0
  a != b && b != c && a != c && decide (a < 3 ∧ b < 3 ∧ c < 3)
/-- Bytes of the Transom space of a partition: its slices without its save slices (R493). -/
def Cfg.spaceBytes (c : Cfg) (p : Nat) : Nat := (c.slices p - (if c.shared p then (c.panes p).length else 0)) * 2 ^ 22

/-- The checks of a PARTITIONS entry against the others (R207, R492). -/
def Cfg.partitionBad (c : Cfg) (m : Mach) (j : Nat) (e : List Byte) : Bool :=
  let before := c.partitions.take j
  let panes (x : List Byte) : List Nat := bitmapPanes x 32
  let upTo := before ++ [e]
  before.any (fun x => leAt x 0 1 == leAt e 0 1 || (leAt x 2 1 == leAt e 2 1 && leAt x 3 1 == leAt e 3 1)) ||
  before.any (fun x => (panes x).any (fun q => (panes e).contains q) && !(leAt x 1 1 == 1 && leAt e 1 1 == 1 && panes x == panes e)) ||
  (leAt e 1 1 == 1 && (List.range 8).any (fun d => decide (24 < ((panes e).filter (fun q => q / 48 == d)).length))) ||
  (List.range 10).any (fun i => decide (64 < (upTo.map (fun x => leAt x (16 + i) 1)).sum)) ||
  decide (m.fld R.PRT_LAYOUT_HBM_GIB [] * 512 < (upTo.map (fun x => leAt x 4 4)).sum) ||
  decide (m.fld R.PRT_LAYOUT_TRANSOM_MIB [] / 4 < (upTo.map (fun x => leAt x 8 2)).sum)
/-- An island that may end a route of a partition (R195). -/
def Cfg.endpointOk (c : Cfg) (p i : Nat) : Bool :=
  let n := i % 4096
  match i / 4096 with
  | 0 => (c.panes p).contains n
  | 1 => decide (n < 8)
  | 2 => decide (n < 8)
  | 3 => decide (n < 8)
  | 4 => decide (n < 512)
  | 5 => decide (n < 10)
  | 6 => decide (n < 4)
  | 8 => decide (n < 2)
  | _ => false
/-- The checks of a ROUTES entry (R195, R207). -/
def Cfg.routeBad (c : Cfg) (m : Mach) (j : Nat) (e : List Byte) : Bool :=
  let before := c.routes.take j
  let p := leAt e 3 1
  let walk := walkEdges (islandDie (routeSrc e)) (routeEdges e)
  before.any (fun x => leAt x 0 2 == leAt e 0 2) || (c.part p).isNone || !c.endpointOk p (routeSrc e) || !c.endpointOk p (routeDst e) ||
  (routeEdges e).any (fun x => decide (13 < x)) || leAt e 12 4 >>> (4 * leAt e 8 1) != 0 ||
  (match walk with
   | none => true
   | some (dirs, d) => d != islandDie (routeDst e) || dirs.any (fun x => m.dirWidth x == 2)) ||
  (leAt e 9 1 != 255 && (decide (384 ≤ routeDst e) ||
    before.any (fun x => leAt x 9 1 == leAt e 9 1 && routeDst x == routeDst e && leAt x 3 1 == p)))
/-- The checks of a STAGE_MAP entry (R194, R207). -/
def Cfg.stageBad (c : Cfg) (j : Nat) (e : List Byte) : Bool :=
  let before := c.stageMap.take j
  let p := leAt e 2 1
  let panes := bitmapPanes e 8
  before.any (fun x => leAt x 0 2 == leAt e 0 2) || (c.part p).isNone || !panes.all (fun q => (c.panes p).contains q) ||
  before.any (fun x => leAt x 2 1 == p && panes.any (fun q => bitmapHas x 8 q))
/-- The checks of a CONDUIT entry (R200, R207). -/
def Cfg.conduitBad (c : Cfg) (j : Nat) (e : List Byte) : Bool :=
  let p := leAt e 1 1
  (c.conduit.take j).any (fun x => leAt x 0 1 == leAt e 0 1) || (c.part p).isNone ||
  (match c.route (leAt e 6 2) with
   | some r => leAt r 2 1 != 1 || leAt r 3 1 != p
   | none => true) ||
  (match c.stage (leAt e 2 2), c.stage (leAt e 4 2) with
   | some t, some s => leAt t 3 1 != 1 || leAt s 3 1 != 2 || leAt t 2 1 != leAt s 2 1
   | _, _ => true) ||
  decide (c.spaceBytes p < (leAt e 12 4 + leAt e 10 2) * 2 ^ 20)
/-- The checks of a SCHEDULE entry (R201, R207). -/
def Cfg.scheduleBad (c : Cfg) (j : Nat) (e : List Byte) : Bool :=
  (c.schedule.take j).any (fun x => leAt x 0 2 == leAt e 0 2) ||
  (match c.stage (leAt e 0 2) with
   | some s => leAt s 5 1 != leAt e 2 1
   | none => true) ||
  (List.range 252).any (fun k =>
    let o := 16 + 4 * k
    if k < leAt e 6 2 then decide (leAt e 2 1 ≤ leAt e o 1 ∨ 2 < leAt e (o + 1) 1 ∨ leAt e 4 2 ≤ leAt e (o + 2) 2) else leAt e o 4 != 0)
/-- An address register value of a CODE entry breaks R207. -/
def Cfg.addrBad (c : Cfg) (p pane w : Nat) : Bool :=
  let sp := bits w 63 60
  let rt := bits w 59 48
  let off := bits w 47 0
  decide (5 < sp) || (sp != 4 && rt != 0) || (sp == 0 && decide (2 ^ 22 ≤ off)) || (sp == 1 && decide (c.spaceBytes p ≤ off)) ||
  (sp == 2 && decide (c.hbmPages p * 2 ^ 21 ≤ off)) || (sp == 5 && off != 0) ||
  (sp == 4 && (match c.route rt with
               | some r => routeSrc r != pane
               | none => true))
/-- The checks of a CODE entry (R199, R207). -/
def Cfg.codeBad (c : Cfg) (m : Mach) (j : Nat) (e : List Byte) : Bool :=
  let q := leAt e 0 2
  let p := leAt e 2 1
  (c.code.take j).any (fun x => leAt x 0 2 == q && leAt x 2 1 == p) || !m.panePresent q || !(c.panes p).contains q ||
  decide (16384 < leAt e 4 4) || (List.range 24).any (fun i => c.addrBad p q (leAt e (64 + 8 * i) 8))

/-- The rows of R207 on what the module has: HBM, Transom, spares. -/
def Mach.reqCheck (m : Mach) (req : Nat × Nat × Nat) : Option ImgFail :=
  if m.fld R.PRT_LAYOUT_HBM_GIB [] < req.1 then some (imgFail rcHbmShort)
  else if m.fld R.PRT_LAYOUT_TRANSOM_MIB [] < req.2.1 then some (imgFail rcTransomShort)
  else if m.fld R.PRT_LAYOUT_SPARES_MIN [] < req.2.2 then some (imgFail rcSpareShort) else none
/-- The rows of R207 from the rollback floor on, over a configuration: ix gives the section table index of a type, req the three REQ
fields of the header. -/
def Mach.contentCheck (m : Mach) (c : Cfg) (ix : Nat → Nat) (req : Nat × Nat × Nat) : Option ImgFail :=
  let absent (o : Nat) (e : List Byte) : Bool := (bitmapPanes e o).any (fun q => !m.panePresent q)
  let rows : List (Unit → Option ImgFail) := [
    fun _ => failEntry rcPaneAbsent (ix 1) c.stageMap (fun _ e => absent 8 e),
    fun _ => failEntry rcPaneAbsent (ix 3) c.partitions (fun _ e => absent 32 e),
    fun _ => failEntry rcPaneAbsent (ix 6) c.code (fun _ e => !m.panePresent (leAt e 0 2)),
    fun _ => m.reqCheck req,
    fun _ => failEntry rcClockRange (ix 5) c.islands (fun q e => m.panePresent q && !mhzOk (leAt e 0 2)),
    fun _ => failEntry rcPrio (ix 5) c.islands (fun q e => m.panePresent q && !prioOk (leAt e 2 1)),
    fun _ => failEntry rcPartition (ix 3) c.partitions (c.partitionBad m),
    fun _ => failEntry rcRoute (ix 2) c.routes (c.routeBad m),
    fun _ => failEntry rcBadSection (ix 1) c.stageMap c.stageBad,
    fun _ => failEntry rcConduit (ix 7) c.conduit c.conduitBad,
    fun _ => failEntry rcSchedule (ix 8) c.schedule c.scheduleBad,
    fun _ => failEntry rcCode (ix 6) c.code (c.codeBad m)]
  rows.findSome? (fun f => f ())

/-- The checks of R207 on a whole image: factory images are exempt from the floor (R612). -/
def Mach.imageCheck (m : Mach) (floor : Nat) (factory : Bool) (b : List Byte) : Option ImgFail :=
  let ix (t : Nat) : Nat := ((sectTable b).findIdx? (fun s => s.type == t)).getD 0xFFFF
  let rows : List (Unit → Option ImgFail) := [
    fun _ => layoutCheck b,
    fun _ => versionCheck b,
    fun _ => sectionCheck b false factory,
    fun _ => if !factory ∧ imSvn b < floor then some (imgFail rcRollback) else none,
    fun _ => m.contentCheck (imageCfg b) ix (imReq b)]
  rows.findSome? (fun f => f ())

/-! ### The check word (R204 to R206) -/

/-- ASCII "PRS-6160", the distinguishing identifier (R604). -/
def signerId : List Byte := [0x50, 0x52, 0x53, 0x2D, 0x36, 0x31, 0x36, 0x30]
/-- The check digest of a message under a key, as the SM2 scheme forms it from the identifier, the key and the message (R205). -/
def checkDigest (key msg : List Byte) : Nat := (Config.sm2Digest signerId key msg).toNat
/-- A check word at the end of a byte string: the code of R205 that it fails with, 0 for none. digest is that of the expected key; torn
says that the check digest differs from a recorded one (R215). -/
def checkWord (b : List Byte) (key : List Byte) (digest signer : Nat) (torn : Nat → Bool) : Nat :=
  let msg := b.take (b.length - 128)
  let tr := b.drop (b.length - 128)
  if b.length < 128 then rcBadLength
  else if leAt tr 96 1 ≠ signer ∨ digestOf (tr.take 32) ≠ digest then rcKeyMismatch
  else if torn (checkDigest key msg) then rcTorn
  else if Config.sm2Verify key msg ((tr.drop 32).take 64) then rcOk else rcSigFail

/-! ### Fuses and keys (R604, R610, R617) -/

/-- One byte of CRC-32, IEEE 802.3 polynomial (R215). -/
def crc32Byte (crc : BitVec 32) (b : Byte) : BitVec 32 :=
  (List.range 8).foldl (fun c _ => if c.getLsbD 0 then (c >>> 1) ^^^ 0xEDB88320#32 else c >>> 1) (crc ^^^ (b.setWidth 32))
/-- CRC-32. -/
def crc32 (bs : List Byte) : Nat := ((bs.foldl crc32Byte 0xFFFFFFFF#32) ^^^ 0xFFFFFFFF#32).toNat

/-- The life-cycle state: the target of the last done transition; TEST where there is none (R617). 0 TEST, 1 PROVISIONED, 2 DEPLOYED,
3 RETURNED, 4 SCRAPPED. -/
def Nv.lc (n : Nv) : Nat := (((n.trans.filter (fun t => t.2)).getLast?).map (fun t => t.1)).getD 0
/-- The target of a transition whose done bit is not burned, plus one; 0 for none (R617, R621). -/
def Nv.pendingLc (n : Nv) : Nat := ((n.trans.find? (fun t => !t.2)).map (fun t => t.1 + 1)).getD 0
/-- The digest of the active owner slot, if any. -/
def Nv.ownerDigest (n : Nv) : Option Nat := (n.owners.getLast?).bind (fun o => if o.2 then none else some o.1)
/-- The owner key, from a security area whose CRC-32 holds and which holds the key whose digest is fused (R209, R604, R610). -/
def Nv.ownerKey (n : Nv) : Option (List Byte) :=
  n.ownerDigest.bind (fun d => ([n.bankA, n.bankB].find? (fun b => b.ownerKey.length == 64 && crc32 b.ownerKey == b.ownerCrc && sm3 b.ownerKey == d)).map (fun b => b.ownerKey))
/-- A bank whose security area holds a public key with its CRC-32 (R209, R610). -/
def Bank.withOwnerKey (b : Bank) (key : List Byte) : Bank := { b with ownerKey := key, ownerCrc := crc32 key }
/-- The code of a byte string signed by the owner (R205). -/
def Nv.ownerCheck (n : Nv) (b : List Byte) (torn : Nat → Bool) : Nat :=
  match n.ownerKey, n.ownerDigest with
  | some k, some d => checkWord b k d 0 torn
  | _, _ => rcKeyMismatch
/-- The code of a byte string signed by the maker: a slot that is not revoked whose digest KEY_ID names (R205, R604). The fuses hold
digests only, so the digest stands for the key (log entry 25). -/
def Nv.makerCheck (n : Nv) (b : List Byte) : Nat :=
  match (n.makers.filter (fun k => !k.2)).find? (fun k => digestOf ((b.drop (b.length - 128)).take 32) == k.1) with
  | some k => checkWord b (digestBytes k.1) k.1 1 (fun _ => false)
  | none => rcKeyMismatch

/-! ### Flash (R209, R210, R215) -/

/-- Bank 0 or 1. -/
def Nv.bank (n : Nv) (i : Nat) : Bank := if i = 0 then n.bankA else n.bankB
/-- A bank replaced. -/
def Nv.setBank (n : Nv) (i : Nat) (b : Bank) : Nv := if i = 0 then { n with bankA := b } else { n with bankB := b }
/-- A commit record (R215): the fields in the order the rule names them (log entry 26). -/
def commitRecord (chart bank gen length imageId digest : Nat) : List Byte :=
  let b := leBytes 4 0x4B435254 ++ leBytes 1 chart ++ leBytes 1 bank ++ leBytes 4 gen ++ leBytes 8 length ++ leBytes 8 imageId ++ digestBytes digest
  let b := b ++ List.replicate (124 - b.length) 0
  b ++ leBytes 4 (crc32 b)
/-- A commit record is valid (R215). -/
def commitOk (chart bank : Nat) (r : List Byte) : Bool :=
  r.length == 128 && leAt r 0 4 == 0x4B435254 && leAt r 124 4 == crc32 (r.take 124) && leAt r 4 1 == chart && leAt r 5 1 == bank
/-- GEN of a commit record. -/
def commitGen (r : List Byte) : Nat := leAt r 6 4
/-- The valid commit record of a chart in a bank with the highest GEN, if any. -/
def Nv.commitOf (n : Nv) (bank chart : Nat) : Option (List Byte) :=
  ((Tbl.get [] (n.bank bank).commits chart).filter (commitOk chart bank)).foldl (fun (b : Option (List Byte)) r =>
    match b with
    | some x => if commitGen x ≤ commitGen r then some r else b
    | none => some r) none
/-- The bank of the current copy of a chart, if it has one (R210). -/
def Nv.current (n : Nv) (chart : Nat) : Option Nat :=
  match n.commitOf 0 chart, n.commitOf 1 chart with
  | none, none => none
  | some _, none => some 0
  | none, some _ => some 1
  | some a, some b => some (if commitGen a < commitGen b then 1 else 0)
/-- GEN of the current copy of a chart. -/
def Nv.currentGen (n : Nv) (chart : Nat) : Nat := (((n.current chart).bind (fun b => n.commitOf b chart)).map commitGen).getD 0
/-- The image of a chart in a bank, as long as its commit record says. -/
def Nv.imageOf (n : Nv) (bank chart : Nat) : List Byte :=
  let b := Tbl.get [] (n.bank bank).images chart
  match n.commitOf bank chart with
  | some r => sliceBytes b 0 (min (leAt r 10 8) b.length)
  | none => b
/-- CFG_CHARTn of every chart follows the flash. -/
def Mach.chartSync (m : Mach) (n : Nv) : Mach :=
  (List.range 4).foldl (fun m c =>
    let cur := n.current c
    let b := cur.getD 0
    m.setFlds [c] [(R.CFG_CHART_PRESENT, b2n cur.isSome), (R.CFG_CHART_CUR_BANK, b), (R.CFG_CHART_OTHER_VALID, b2n (cur.isSome && (n.commitOf (1 - b) c).isSome)),
      (R.CFG_CHART_GEN, n.currentGen c)]) m

/-- Verification and checks of a chart image with its commit record (R205 to R207, R215). -/
def Mach.loadCheck (m : Mach) (n : Nv) (b : List Byte) (record : Option (List Byte)) : Option ImgFail :=
  let torn (d : Nat) : Bool := match record with
    | some r => digestOf ((r.drop 26).take 32) != d
    | none => false
  let v := n.ownerCheck b torn
  if v = rcOk then m.imageCheck n.imgFloor false b else some (imgFail v)
/-- Verification and checks of the factory image (R205, R207). -/
def Mach.factoryCheck (m : Mach) (n : Nv) : Option ImgFail :=
  let v := n.makerCheck n.factory
  if v = rcOk then m.imageCheck 0 true n.factory else some (imgFail v)

end Sys2Proof.Machine
end

