-- ==== Sys2Proof/Machine/Partition.lean ====
section
/-! DEFINITION. The rows of partitions: states (R485 to R490), time slices (R494 to R497), shared regions (R501 to R503), metering (R506). -/

namespace Sys2Proof.Machine

/-- CODE of a partition command. -/
def Mach.setPcode (m : Mach) (p code : Nat) : Mach := m.setFld R.PTN_PSTATE_CODE [p] code
/-- A command in a state that does not take it (R485). -/
def Mach.badState (m : Mach) (p : Nat) : Mach := m.setPcode p 1

/-! ### Slices -/

/-- SLICE_US of a member in ticks. -/
def Mach.sliceTicks (m : Mach) (p : Nat) : Nat := m.conf.cfg.sliceUs p * 1000
/-- The members of a group after one in rotation, that one last. -/
def Mach.afterMember (m : Mach) (g cur : Nat) : List Nat :=
  let l := (m.conf.cfg.members g).filter (fun p => m.inRotation p)
  l.filter (fun p => decide (cur < p)) ++ l.filter (fun p => decide (p ≤ cur))
/-- The next member to run: one whose debt reaches a whole slice skips its turn (R496). -/
def Mach.nextMember : Nat → Mach → List Nat → Mach × Nat
  | 0, m, _ => (m, 0)
  | _ + 1, m, [] => (m, 0)
  | k + 1, m, p :: l =>
    let d := Tbl.get 0 m.part.debt p
    if m.sliceTicks p ≤ d ∧ m.sliceTicks p ≠ 0 then Mach.nextMember k (m.setDebt p (d - m.sliceTicks p)) (l ++ [p]) else (m, p)
/-- The slice of a member begins, shortened by its debt (R496). -/
def Mach.beginSlice (m : Mach) (g p : Nat) : Mach :=
  let d := Tbl.get 0 m.part.debt p
  let m := (m.setDebt p 0).addSat R.PTN_PSLICE_SLICES [p] 1
  let m := m.setFld R.PTN_GROUP_CURRENT [g] p
  { m with part := { m.part with left := eraseNat g m.part.left, sliceStart := Tbl.set 0 m.part.sliceStart g m.now, sliceEnd := Tbl.set 0 m.part.sliceEnd g (m.now + (m.sliceTicks p - d)),
                                 switching := Tbl.set 0 m.part.switching g 0, overrun := Tbl.set 0 m.part.overrun g 0 } }
/-- The panes of a group. -/
def Mach.groupPanes (m : Mach) (g : Nat) : List Nat := (((m.conf.cfg.members g).head?).map (fun p => m.conf.cfg.panes p)).getD []
/-- An idle group whose member may run starts its slice, after the turns that its debt costs it (R496). -/
def Mach.wakeGroup (m : Mach) (p : Nat) : Mach :=
  if !m.conf.cfg.shared p then m
  else
    let g := m.conf.cfg.groupOf p
    if m.fld R.PTN_GROUP_CURRENT [g] ≠ 0 ∨ Tbl.get 0 m.part.switching g ≠ 0 ∨ !m.inRotation p then m
    else
      let n := Mach.nextMember 4096 m [p]
      if n.2 = 0 then n.1 else ((n.1.groupPanes g).foldl (fun m q => m.restorePane p q) n.1).beginSlice g p
/-- Every member of a group is stopped: the group stands still (R544, R558). -/
def Mach.groupShut (m : Mach) (g : Nat) : Bool := (m.conf.cfg.members g).all (fun p => m.shut p)
/-- SLICE_END (R495): at its graticule time, or once the member has left the rotation. -/
def Mach.sliceEnd (m : Mach) (g : Nat) : Mach :=
  let p := m.fld R.PTN_GROUP_CURRENT [g]
  if p = 0 ∨ Tbl.get 0 m.part.switching g ≠ 0 ∨ m.groupShut g ∨ !m.running then m
  else if m.now < Tbl.get 0 m.part.sliceEnd g ∧ m.inRotation p then m
  else if m.inRotation p && (m.afterMember g p) == [p] then m.beginSlice g p
  else
    let m := (m.groupPanes g).foldl (fun m q => m.copyPause q) m
    { m with part := { m.part with switching := Tbl.set 0 m.part.switching g (max 1 m.now), overrun := Tbl.set 0 m.part.overrun g (max 1 m.now) } }
/-- A non-preemptible command still runs on a pane of a group. -/
def Mach.groupBusy (m : Mach) (g : Nat) : Bool :=
  (m.groupPanes g).any (fun q => !(m.pane q).mruns.isEmpty || (m.pane q).vrun.isSome || !(m.pane q).split.isEmpty)
/-- Such a command runs that no back-pressure of a conduit holds (R263). -/
def Mach.groupOverruns (m : Mach) (g : Nat) : Bool :=
  (m.groupPanes g).any (fun q => !(m.pane q).mruns.isEmpty || (m.pane q).vrun.any (fun r => !m.pressed q r.cmd) || !(m.pane q).split.isEmpty)
/-- The overrun of a slice moves with time while such a command runs (R496). -/
def Mach.overrunTick (m : Mach) (g : Nat) : Mach :=
  if Tbl.get 0 m.part.switching g ≠ 0 ∧ m.groupOverruns g then
    { m with part := { m.part with overrun := Tbl.set 0 m.part.overrun g (max 1 m.now) } } else m
/-- No switch is pending. -/
def Mach.clearSwitch (m : Mach) (g : Nat) : Mach :=
  { m with part := { m.part with left := eraseNat g m.part.left, switching := Tbl.set 0 m.part.switching g 0, overrun := Tbl.set 0 m.part.overrun g 0 } }
/-- SLICE_SWITCH (R495, R496): the outgoing member is charged its overrun and saved, unless it is torn down (R507); the next one is restored and its
slice begins. With none, nothing of a member stays on the panes (R491). -/
def Mach.sliceSwitch (m : Mach) (g : Nat) : Mach :=
  let t := Tbl.get 0 m.part.switching g
  let p := m.fld R.PTN_GROUP_CURRENT [g]
  if t = 0 ∨ m.groupBusy g ∨ m.groupShut g ∨ !m.running then m
  else
    let done := Tbl.get 0 m.part.overrun g
    let o := done - t
    let keep := decide (p ≠ 0) && !m.part.tearing.contains p && !m.part.left.contains g &&
      (m.pstate p == psActive || m.pstate p == psDraining || m.pstate p == psPaused)
    let m := if p = 0 then m else
               ((m.setFld R.PTN_PSLICE_LAST_O_US [p] (o / 1000)).meter p mOverrun o).setDebt p (if keep then Tbl.get 0 m.part.debt p + o else 0)
    let m := if keep then (m.groupPanes g).foldl (fun m q => m.savePane p q) m
             else if p = 0 then m else (m.groupPanes g).foldl (fun m q => m.leavePane p q) m
    let m := m.addSat R.PTN_GROUP_SWITCH_TICKS [g] (m.now - done)
    let n := Mach.nextMember 4096 m (m.afterMember g p)
    if n.2 = 0 then
      (((n.1.groupPanes g).foldl (fun m q => m.clearPane q) n.1).setFld R.PTN_GROUP_CURRENT [g] 0).clearSwitch g
    else
      let m := (n.1.groupPanes g).foldl (fun m q => m.restorePane n.2 q) n.1
      m.beginSlice g n.2

/-! ### States -/

/-- A TEARDOWN of a stopped partition waits for SCANNED, or for STOPPED where the stop writes no image (R559). -/
def Mach.tearWaits (m : Mach) (p : Nat) : Bool :=
  let st := m.fld R.SHT_STATUS_STATE []
  m.shut p && m.stopping && !(st == 5 || st == 6 || (st == 3 && m.sht.noscan))
/-- LOADING begins (R487, R613): a partition that fails a step takes nothing. -/
def Mach.loadPart (m : Mach) (p : Nat) : Mach :=
  let m := ((m.setPstate p psLoading).setPcode p 0).setFld R.PTN_PSTATE_FAULT_CAUSE [p] 0
  let r := m.loadSteps p
  let m := if r.2 = 0 then
      let m := r.1.measurePart p
      { m with sec := { m.sec with keyGens := Tbl.set 0 m.sec.keyGens p (Tbl.get 0 m.sec.keyGens p + 1) } }
    else r.1.releaseAll p
  { m with part := { m.part with loading := Tbl.set 0 m.part.loading p (r.2 + 1) } }
/-- ACTIVATE (R487): it waits while a margining run is in progress (R642). -/
def Mach.activate (m : Mach) (p : Nat) : Mach :=
  let st := m.pstate p
  if m.shut p then m.badState p
  else if st = psDefined ∨ st = psTornDown then
    if m.margining then { m with pwr := { m.pwr with acts := insertNat p m.pwr.acts } } else m.loadPart p
  else m.badState p
/-- LOADING_DONE (R485). -/
def Mach.loadingDone (m : Mach) (p : Nat) : Mach :=
  match Tbl.get 0 m.part.loading p with
  | 0 => m
  | code + 1 =>
    let m := { m with part := { m.part with loading := Tbl.set 0 m.part.loading p 0 } }
    if code = 0 then ((m.setPstate p psActive).meterReset p).wakeGroup p
    else (m.setPstate p psDefined).setPcode p code
/-- PAUSE (R488). -/
def Mach.pausePart (m : Mach) (p : Nat) : Mach :=
  if m.pstate p = psActive ∧ !m.shut p then (m.setPstate p psPaused).leftActive p else m.badState p
/-- The marks of DRAIN are gone. -/
def Mach.undrain (m : Mach) (p : Nat) : Mach :=
  let t : Tbl Nat := (List.range 4).foldl (fun (t : Tbl Nat) h => Tbl.set 0 t (p * 4 + h) 0) m.part.drainAt
  let m := { m with part := { m.part with drainAt := t } }
  let c := m.coll p
  if c.drain = 0 then m else m.setColl p { c with drain := 0 }
/-- The straggler deadlines of a partition, later by what a pause took (R288). -/
def Mach.shiftDeadlines (m : Mach) (p d : Nat) : Mach :=
  let x := m.coll p
  if x.runs.all (fun c => c.deadline == 0) then m
  else m.setColl p { x with runs := x.runs.map (fun c => { c with deadline := if c.deadline = 0 then 0 else c.deadline + d }) }
/-- The 10 ms of conduits of a partition that wait for their peer, later by what a pause took (R277). -/
def Mach.shiftOpens (m : Mach) (p d : Nat) : Mach :=
  (List.range 64).foldl (fun m k =>
    if m.cdPart k = p ∧ m.cdState k = cdOpening then m.setCond k { m.cond k with openedAt := (m.cond k).openedAt + d } else m) m
/-- RESUME (R485). -/
def Mach.resumePart (m : Mach) (p : Nat) : Mach :=
  let st := m.pstate p
  if (st = psPaused ∨ st = psDraining) ∧ !m.shut p then
    let d := m.now - m.fld R.PTN_PTIME_TIME [p]
    let m := if st = psPaused then (m.shiftOpens p d).shiftDeadlines p d else m
    let m := m.undrain p
    (m.setPstate p psActive).wakeGroup p
  else m.badState p
/-- DRAIN (R489). -/
def Mach.drainPart (m : Mach) (p : Nat) : Mach :=
  if m.pstate p = psActive ∧ !m.shut p then
    let m := m.setPstate p psDraining
    let at_ := (List.range 4).foldl (fun t h => Tbl.set 0 t (p * 4 + h) (m.fld R.HTC_CREDIT_NEXT [p, h] + 1)) m.part.drainAt
    let m := { m with part := { m.part with drainAt := at_ } }
    let m := m.setColl p { m.coll p with drain := (m.coll p).fifo.length + 1 }
    let m := if m.tstate p = tsRunning then m.trainStopCmd p else m
    (m.drainConduits p).leftActive p
  else m.badState p
/-- DRAIN_QUIET (R489). -/
def Mach.drainQuiet (m : Mach) (p : Nat) : Mach :=
  if m.pstate p = psDraining && m.drained p && m.running then m.setPstate p psPaused else m
/-- The work of a partition ends without records (R490). -/
def Mach.tear (m : Mach) (p : Nat) : Mach :=
  let m := (List.range 4).foldl (fun m h => m.setHatch p h { m.hatch p h with epoch := (m.hatch p h).epoch + 1, holding := [], fresh := [] }) m
  let m := ((m.hold p hdTear).abortPart p true).dropLaunches p false
  let m := if m.pstate p = psActive then m.leftActive p else m
  let m := ((m.stopWork p).servClear p).dropHandlers p
  let m := (List.range 4).foldl (fun m h => m.hatchFlush p h false) m
  let m := (m.txDrop p rcTxnAborted).setFld R.COL_CJOB_JOB [p] 0
  { m with part := { m.part with tearing := insertNat p m.part.tearing, loading := Tbl.set 0 m.part.loading p 0 } }
/-- TEARDOWN (R490); of a stopped partition it takes effect after SCANNED (R559). -/
def Mach.teardown (m : Mach) (p : Nat) : Mach :=
  let st := m.pstate p
  let live := decide (st ≠ psDefined ∧ st ≠ psTornDown ∧ st ≠ psNone)
  if m.tearWaits p ∧ live ∧ !m.part.tearing.contains p then { m with sht := { m.sht with tears := insertNat p m.sht.tears } } else
  if m.part.tearing.contains p ∨ st = psDefined ∨ st = psTornDown ∨ st = psNone then m.badState p else m.tear p
/-- A member that is TORN_DOWN in its slice: the slice has ended, and nothing of it is saved, whatever becomes of the partition before the switch
(R507). -/
def Mach.leaveSlice (m : Mach) (p : Nat) : Mach :=
  let g := m.conf.cfg.groupOf p
  if !m.conf.cfg.shared p ∨ m.fld R.PTN_GROUP_CURRENT [g] ≠ p then m
  else
    let pt := { m.part with left := insertNat g m.part.left }
    { m with part := if Tbl.get 0 pt.switching g ≠ 0 then pt
                     else { pt with switching := Tbl.set 0 pt.switching g (max 1 m.now), overrun := Tbl.set 0 pt.overrun g (max 1 m.now) } }
/-- TEARDOWN_DONE (R490): sealed descriptors discarded (R468), keys destroyed, slices zeroed, resources returned; nothing of it stays on its panes
(R491). -/
def Mach.teardownDone (m : Mach) (p : Nat) : Mach :=
  if !m.part.tearing.contains p then m
  else
    let m := (List.range 4).foldl (fun m h => m.hatchFlush p h false) m
    let m := (m.conf.cfg.panes p).foldl (fun m q => if m.paneOwner q = p then m.clearPane q else m) m
    let m := (((((m.servClear p).zeroSlices p).releaseAll p).setPstate p psTornDown).setDebt p 0).leaveSlice p
    let pt := m.part
    let pt := { pt with tearing := eraseNat p pt.tearing, holds := pt.holds.filter (fun h => h.1 != p) }
    { m with part := { pt with drainAt := pt.drainAt.filter (fun e => e.1 / 4 != p), exempt := eraseNat p pt.exempt } }

/-! ### The slice watchdog (R497) -/

/-- SLICE_WATCHDOG: a command that has run 2 × B cycles of its island. -/
def Mach.watchdog (m : Mach) (q : Nat) (e : EngineId) : Mach :=
  let x := m.pane q
  let isOver (r : Run) : Bool := decide (2 * r.bound * 1000 ≤ r.ran)
  let r := match e with
    | .matrix => (x.mruns ++ x.split).find? isOver
    | .vector => x.vrun.toList.find? isOver
    | .copy => none
  match r with
  | none => m
  | some r =>
    let p := r.cmd.part
    if m.core.stopped.contains q ∨ !m.running then m
    else
      let m := m.setPane q (match e with
        | .matrix => if x.mdrain = some r then { x with mdrain := none } else if x.mrun = some r then { x with mrun := none }
                     else { x with split := x.split.erase r }
        | _ => { x with vrun := none })
      (m.failCmd q r.cmd cAborted).contained p ecWatchdog q q 0 2

/-! ### Shared regions (R501, R503) -/

/-- FILL (R501); one that would take frames of the channel under test waits for the end of the run (R642). -/
def Mach.fill (m : Mach) (r : Nat) : Mach :=
  let code (m : Mach) (c : Nat) : Mach := m.setFld R.PTN_SREG_CODE [r] c
  if m.fld R.PTN_SREG_STATE [r] ≠ 0 then code m 1
  else
    let n := m.fld R.PTN_SREG_PAGES [r]
    let s := m.fld R.PTN_SREG_STACKS [r]
    let a := Mach.takePages (64 + r) (fun _ => if s = 0 then 0xFFFF else s) n m 0 0 []
    if a.2.1 ≠ 0 then code (a.1.freeFrames a.2.2) 2
    else if m.margining ∧ m.pwr.margin = 1 ∧ a.2.2.any (fun f => f % 512 == m.pwr.target) then { m with pwr := { m.pwr with fills := insertNat r m.pwr.fills } }
    else
      let m := { a.1 with part := { a.1.part with regionFrames := Tbl.set [] a.1.part.regionFrames r a.2.2, filling := insertNat r a.1.part.filling } }
      let m := { m with tier := { m.tier with keyGen := m.tier.keyGen + 1, keys := Tbl.set 0 m.tier.keys (64 + r) (m.tier.keyGen + 1) } }
      code (m.memSync.setFld R.PTN_SREG_STATE [r] 1) 0
/-- n bytes of a provider source: far pages, or host memory behind a port (R409, R501). -/
def Mach.provSegs (m : Mach) (src off n : Nat) : Option (List (Nat × Nat)) :=
  if src = 0 then segsOf (2 ^ 21) (m.farKeyOf 0) (n / 2 ^ 21 + 2) off n
  else some [(hostKey (src - 1) 0 off, n)]
/-- The frames of a region given back, its key destroyed. -/
def Mach.dropRegion (m : Mach) (r : Nat) : Mach :=
  let fs := m.regionFrames r
  let m := { m with part := { m.part with regionFrames := Tbl.set [] m.part.regionFrames r [], filling := eraseNat r m.part.filling } }
  ({ m with tier := { m.tier with keys := Tbl.set 0 m.tier.keys (64 + r) 0 } }).freeFrames fs |>.setFld R.PTN_SREG_STATE [r] 0
/-- FILL_DONE (R501), with the lines that came with EP set poisoned (R459); the provider hears of the end of the command (log entry 95). -/
def Mach.fillDone (m : Mach) (r : Nat) (how : FetchEnd) : Mach :=
  if !m.part.filling.contains r then m
  else
    let fs := m.regionFrames r
    match how, m.provSegs (m.fld R.PTN_SREG_SRC [r]) (m.fld R.PTN_SREG_ADDR_ADDR [r] * 4096) (fs.length * 2 ^ 21) with
    | .good ep, some src =>
        let dst := fs.map (fun f => (frameKey f 0, 2 ^ 21))
        let m := (m.move src dst).tagRuns dst (epRuns ep)
        let m := { m with sec := { m.sec with regionSm3 := Tbl.set 0 m.sec.regionSm3 r (sm3 (fs.flatMap (fun f => m.load (frameKey f 0) (2 ^ 21)))) } }
        (({ m with part := { m.part with filling := eraseNat r m.part.filling } }).setFld R.PTN_SREG_STATE [r] 2).pfVector 3
    | _, _ => (fetchFailed m fs).pfVector 3
where
  /-- The frames are zeroed and returned. -/
  fetchFailed (m : Mach) (fs : List Nat) : Mach :=
    let m := fs.foldl (fun m f => m.zero (frameKey f 0) (2 ^ 21)) m
    (m.dropRegion r).setFld R.PTN_SREG_CODE [r] 3
/-- DELETE (R503). -/
def Mach.deleteRegion (m : Mach) (r : Nat) : Mach :=
  let st := m.fld R.PTN_SREG_STATE [r]
  if st = 2 ∨ st = 3 then
    (if (m.mappers r).any (fun p => m.pstate p != psNone && m.pstate p != psDefined && m.pstate p != psTornDown) ∨ m.fld R.MEM_GOLD_CTL_STATE [r] = 1
     then m.setFld R.PTN_SREG_CODE [r] 1
     else (m.dropRegion r).setFld R.PTN_SREG_CODE [r] 0)
  else if st = 1 then m.setFld R.PTN_SREG_CODE [r] 1 else m

/-! ### Metering (R505, R506) -/

/-- MSNAP (R506): every live counter latched in one tick, into the copy of the viewer that wrote. -/
def Mach.snapMeters (m : Mach) (p : Nat) (tenant : Bool) (t : Nat) : Mach :=
  let base := if tenant then 2 ^ 28 + p * 2 ^ 26 + 0x401000 else R.PTN_PANE_TICKS_COUNT.addr [p]
  let at_ (f : Fld) : Nat := base + (f.addr [p] - R.PTN_PANE_TICKS_COUNT.addr [p])
  let regs := meterReg.zipIdx.foldl (fun r k => Regs.setWord r (at_ k.1) (BitVec.ofNat 64 (Tbl.get 0 m.part.meters (p * 16 + k.2)))) m.regs
  { m with regs := Regs.setWord regs (at_ R.PTN_SNAP_TIME_TIME) (BitVec.ofNat 64 t) }

/-- The pane ticks of one tick of a partition (R505): exempt, and then nothing else (R575); held for a provider transaction (R229); or its own. -/
def Mach.paneTick (m : Mach) (p : Nat) : Mach :=
  let st := m.pstate p
  let n := (m.conf.cfg.panes p).length
  let g := m.conf.cfg.groupOf p
  let mine := if m.conf.cfg.shared p then
                m.fld R.PTN_GROUP_CURRENT [g] == p && st != psTornDown && !m.part.left.contains g &&
                  (Tbl.get 0 m.part.switching g == 0 || m.groupBusy g)
              else st == psActive || st == psPaused || st == psDraining
  if !mine ∨ n = 0 then m
  else if m.part.exempt.contains p then m.meter p mExempt n
  else if m.part.holds.contains (p, 0) then m.meter p mHold n
  else m.meter p mPane n

/-- ACTIVATE (R487). -/
def execActivate (part : PartId) (s : State) : Res := s.withM (if s.m.accepts then s.m.activate (part.val + 1) else s.m)
/-- LOADING_DONE (R485). -/
def execLoadingDone (part : PartId) (s : State) : Res := s.withM (if s.m.running then s.m.loadingDone (part.val + 1) else s.m)
/-- PAUSE (R488). -/
def execPause (part : PartId) (s : State) : Res := s.withM (if s.m.accepts then s.m.pausePart (part.val + 1) else s.m)
/-- RESUME (R485). -/
def execPartitionResume (part : PartId) (s : State) : Res := s.withM (if s.m.accepts then s.m.resumePart (part.val + 1) else s.m)
/-- DRAIN (R489). -/
def execDrain (part : PartId) (s : State) : Res := s.withM (if s.m.accepts then s.m.drainPart (part.val + 1) else s.m)
/-- DRAIN_QUIET (R489). -/
def execDrainQuiet (part : PartId) (s : State) : Res := s.withM (s.m.drainQuiet (part.val + 1))
/-- TEARDOWN (R490). -/
def execTeardown (part : PartId) (s : State) : Res := s.withM (if s.m.accepts then s.m.teardown (part.val + 1) else s.m)
/-- TEARDOWN_DONE (R490). -/
def execTeardownDone (part : PartId) (s : State) : Res := s.withM (if s.m.running then s.m.teardownDone (part.val + 1) else s.m)
/-- SLICE_END (R495). -/
def execSliceEnd (group : GroupId) (s : State) : Res := s.withM (s.m.sliceEnd group)
/-- SLICE_SWITCH (R495, R496). -/
def execSliceSwitch (group : GroupId) (s : State) : Res := s.withM (s.m.sliceSwitch group)
/-- SLICE_WATCHDOG (R497). -/
def execSliceWatchdog (pane : PaneId) (e : EngineId) (s : State) : Res := s.withM (s.m.watchdog pane e)
/-- FILL (R501). -/
def execFill (region : RegionId) (s : State) : Res := s.withM (if s.m.accepts then s.m.fill region else s.m)
/-- FILL_DONE (R501). -/
def execFillDone (region : RegionId) (how : FetchEnd) (s : State) : Res := s.withM (if s.m.running then s.m.fillDone region how else s.m)
/-- DELETE (R503). -/
def execDeleteRegion (region : RegionId) (s : State) : Res := s.withM (if s.m.accepts then s.m.deleteRegion region else s.m)
/-- MSNAP (R506). -/
def execMsnap (part : PartId) (tenant : Bool) (s : State) : Res :=
  s.withM (if s.m.accepts then s.m.snapMeters (part.val + 1) tenant s.m.now else s.m)

end Sys2Proof.Machine
end

