-- ==== Sys2Proof/Machine/TierOps.lean ====
section
/-! DEFINITION. What the memory tiers do on errors and heat: corrected and poisoned lines, channels, stacks, far ports (09), and the repair of shared regions (R576 to R578). -/

namespace Sys2Proof.Machine

/-! ### Owners -/

/-- The partitions that own a frame of which a property holds, in ascending order. -/
def Mach.ownersWhere (m : Mach) (f : Nat → Bool) : List Nat :=
  ((List.range 32).map (fun i => i + 1)).filter (fun p => m.tier.frameOwner.any (fun e => e.2 == p && f e.1))
/-- The address of a line in the terms of the provider log: frame × 2^15 + line (R561). -/
def lineNo (frame line : Nat) : Nat := frame * 2 ^ 15 + line
/-- The page of a partition that a frame holds, if any. -/
def Mach.pageIn (m : Mach) (p frame : Nat) : Option Nat :=
  (m.tier.pages.find? (fun e => e.1 / 2 ^ 24 == p && (e.2.map (fun x => x.frame)) == some frame)).map (fun e => e.1 % 2 ^ 24)
/-- The partition address of a line of a frame, 0 where the partition has no page there. -/
def Mach.lineAddr (m : Mach) (p frame line : Nat) : Nat :=
  match m.pageIn p frame with
  | some v => (mkAddr 2 (v * 2 ^ 21 + line * 64)).toNat
  | none => 0

/-! ### Rollback requests (R574, R576, R585) -/

/-- The step a partition can roll back to: the one of a valid shadow, else the one of slot L (R585). -/
def Mach.ckptStep (m : Mach) (p : Nat) : Option Nat :=
  if m.flag R.CKP_STATUS_SHADOW [p] then some (m.ckpt p).shadowStep
  else if bitAt (m.fld R.CKP_STATUS_VALID [p]) (m.fld R.CKP_STATUS_LAST [p]) then some (m.fld R.CKP_STATUS_LAST_STEP [p])
  else none
/-- A rollback to step c is asked for: the partition is held, and step 2 of R585 follows at its quiet point. -/
def Mach.askRollback (m : Mach) (p c : Nat) : Mach :=
  let k := m.ckpt p
  if k.rollTo ≠ 0 then m.setCkpt p { k with rollTo := c + 1 }
  else (m.setCkpt p { k with rollTo := c + 1, rollLast := (((m.train p).steps.map (fun t => t.step)).getLast?).getD (m.tclosed p) }).hold p hdRoll
/-- The training of a partition that lost work: a rollback, or ABANDONED without a valid checkpoint (R574). -/
def Mach.recoverTraining (m : Mach) (p : Nat) : Mach :=
  if m.tstate p = tsStopped then m
  else match m.ckptStep p with
    | some c => m.askRollback p c
    | none => m.trainDrop p tcAbandoned

/-! ### Repair of shared regions (R576 to R578) -/

/-- A model of the atlas lies in a region as a partition maps it (R328, R502). -/
def Mach.modelIn (m : Mach) (p s r : Nat) : Bool :=
  (List.range 24).any (fun i =>
    let w := BitVec.ofNat 64 (m.atlasAt s (64 + 8 * i) 8)
    adSpace w == 2 && ((m.pageOf p (adOffset w / 2 ^ 21)).bind (fun e => e.region)) == some r)
/-- A region goes to FAILED (R577). -/
def Mach.regionFail (m : Mach) (r : Nat) : Mach :=
  let mine := m.fix.regions.filter (fun x => x.region == r)
  let m := { m with fix := { m.fix with regions := m.fix.regions.filter (fun x => x.region != r) } }
  let m := mine.foldl (fun (m : Mach) _ => m.endHandler 0 ecShared) m
  let m := m.setFld R.PTN_SREG_STATE [r] 3
  let m := if m.fld R.MEM_GOLD_CTL_STATE [r] = 1 then m.setFld R.MEM_GOLD_CTL_STATE [r] 2 else m
  (m.mappers r).foldl (fun m p =>
    let m := m.place (ErrRec.mk0 sevDeferred p ecRegionFailed 0xFFFF r 0)
    let hit := (m.entsOf p).filter (fun e => gsLive e.2.st && m.modelIn p e.2.model r)
    let m := (hit.foldl (fun m e => m.endNow p e.1 gcRegionFailed) m).pipesDrain p
    m.trainDrop p tcAbandoned) m
/-- A poisoned line of a SEALED region asks for the repair of its page, once per page (R576, R578). -/
def Mach.regionHurt (m : Mach) (r frame line : Nat) : Mach :=
  if m.fld R.PTN_SREG_STATE [r] ≠ 2 then m
  else if m.fld R.MEM_GOLD_CTL_STATE [r] ≠ 1 then m.regionFail r
  else
    let page := (m.regionFrames r).idxOf frame
    if m.fix.regions.any (fun x => x.region == r && x.page == page) then m
    else
      let m := { m with fix := { m.fix with regions := m.fix.regions ++ [RegionFix.mk r page frame line []] } }
      m.startHandler 0 sevDeferred ecShared
/-- One page of a region read from its golden copy into a frame: none where the fetch fails or the digest differs (R410, R577). -/
def Mach.goldenInto (m : Mach) (r page frame : Nat) : Option Mach :=
  let src := m.fld R.MEM_GOLD_CTL_SRC [r]
  match m.provSegs src (m.fld R.MEM_GOLD_ADDR_ADDR [r] * 4096 + page * 2 ^ 21) (2 ^ 21),
        m.provSegs src (m.fld R.MEM_GOLD_DIG_ADDR [r] * 64 + page * 32) 32 with
  | some l, some d =>
    if m.segsPoisoned l then none
    else if m.flag R.MEM_GOLD_CTL_DIGEST_EN [r] ∧ (m.segsPoisoned d ∨ (ofLe (m.readSegs d).reverse) ≠ (Config.sm3 (m.readSegs l)).toNat) then none
    else some (m.move l [(frameKey frame 0, 2 ^ 21)])
  | some l, none => if m.flag R.MEM_GOLD_CTL_DIGEST_EN [r] || m.segsPoisoned l then none else some (m.move l [(frameKey frame 0, 2 ^ 21)])
  | none, _ => none
/-- A page of a region moves to another frame. -/
def Mach.reframe (m : Mach) (r page old new : Nat) : Mach :=
  if old = new then m
  else
    let m := { m with part := { m.part with regionFrames := Tbl.set [] m.part.regionFrames r ((m.regionFrames r).set page new) },
                      tier := { m.tier with pages := m.tier.pages.map (fun (e : Nat × Option PageEnt) => (e.1, e.2.map (fun (x : PageEnt) =>
                        if x.frame == old && x.region == some r then { x with frame := new } else x))) } }
    m.freeFrames [old]
/-- The frame a repaired page lies in: its own, or a free one where its own is retired or out of reach (R576). -/
def Mach.repairFrame (m : Mach) (r frame : Nat) : Mach × Option Nat :=
  if m.tier.retired.contains frame || m.frameGone frame then
    let s := m.fld R.PTN_SREG_STACKS [r]
    let a := Mach.takePages (64 + r) (fun _ => if s = 0 then 0xFFFF else s) 1 m 0 0 []
    (a.1, a.2.2.head?)
  else (m, some frame)
/-- Marked steps retried, and their partitions told (R576). -/
def Mach.markedRetry (m : Mach) (x : RegionFix) : Mach :=
  let ps := (x.marked.map (fun e => e.1)).foldl (fun l p => insertNat p l) []
  let m := ps.foldl (fun m p =>
    let st := ((x.marked.find? (fun e => e.1 == p)).map (fun e => e.2)).getD 0
    let v := ((m.tier.pages.find? (fun e => e.1 / 2 ^ 24 == p && (e.2.map (fun y => y.region == some x.region && y.frame == x.frame)) == some true)).map
      (fun e => e.1 % 2 ^ 24)).getD 0
    let m := m.placeFor p { ErrRec.mk0 sevDeferred p ecShared 0xFFFF x.region 0 with step := st } 1 (mkAddr 2 (v * 2 ^ 21)).toNat x.region 0
    if x.marked.any (fun (e : Nat × Nat) => e.1 == p && (m.tstep p e.2).isSome) then m.recoverTraining p else m) m
  m.placeFor 0 (ErrRec.mk0 sevDeferred 0 ecShared (isl 4 (x.frame % 512)) x.region 0) 1 (lineNo x.frame x.line) x.region
    (ps.foldl (fun (a : Nat) p => a + 2 ^ (p - 1)) 0)
/-- SHARED_REGION_REPAIR_DONE: the oldest repair ends, its row mapped out before (R576 to R578). -/
def Mach.regionRepaired (m : Mach) (good : Bool) : Mach :=
  match m.fix.regions with
  | [] => m
  | x :: rest =>
    if m.tier.rowMoves.contains (lineNo x.frame x.line) then m
    else
      let a := m.repairFrame x.region x.frame
      match a.2 with
      | none => m.regionFail x.region
      | some f =>
        match if good then a.1.goldenInto x.region x.page f else none with
        | none => m.regionFail x.region
        | some m =>
          let m := { m with fix := { m.fix with regions := rest } }
          let m := m.markedRetry x
          ((m.reframe x.region x.page x.frame f).memSync).endHandler 0 ecShared

/-! ### HBM (R373 to R381) -/

/-- HBM_GIB and the counts of channels follow the channel states (R381). -/
def Mach.chanSync (m : Mach) : Mach :=
  let n (st : Nat) : Nat := ((List.range 512).filter (fun g => m.fld R.MEM_CHAN_STATE [g] == st)).length
  (m.setFlds [] [(R.PRT_LAYOUT_HBM_GIB, 2 * (n 1 + n 2)), (R.MEM_STATUS_CHAN_FAILED, n 3), (R.MEM_STATUS_CHAN_ABSENT, n 0)]).memSync
/-- A channel becomes FAILED (R380). -/
def Mach.chanFail (m : Mach) (g : Nat) : Mach :=
  if !m.chanLive g then m
  else
    let m := (m.setFld R.MEM_CHAN_STATE [g] 3).chanSync
    let m := (m.ownersWhere (fun f => f % 512 == g)).foldl (fun m p => m.contained p ecChannelFailed (isl 4 g) g 0 1) m
    (m.tier.frameOwner.filter (fun e => decide (64 ≤ e.2) && e.1 % 512 == g)).foldl (fun m e => m.regionHurt (e.2 - 64) e.1 0) m
/-- A pin marked failed (R375, R380). -/
def Mach.pinFail (m : Mach) (g pin : Nat) : Mach :=
  let b := Tbl.get 0 m.tier.failedPins g
  if bitAt b pin then m
  else
    let b := b + 2 ^ pin
    let n := popCount 72 b
    let m := ({ m with tier := { m.tier with failedPins := Tbl.set 0 m.tier.failedPins g b } }).setFld R.MEM_CHAN_PINS [g] (min 3 n)
    let m := m.place (ErrRec.mk0 sevCorrected 0 ecHbmPin (isl 4 g) (g * 256 + pin) 0)
    if 3 ≤ n then m.chanFail g else m.setFld R.MEM_CHAN_STATE [g] 2
/-- A corrected line (R373, R375). -/
def Mach.lineCorrected (m : Mach) (g : Nat) (pins : List Nat) : Mach :=
  let m := ((m.addSat R.MEM_CHAN_CORR [g] 1).countFor 0 (isl 4 (g / 32 * 32)) 2 1).placeLimited (isl 4 g) second (ErrRec.mk0 sevCorrected 0 ecHbmCorr (isl 4 g) g 0)
  pins.foldl (fun m pin =>
    let old := (Tbl.get [] m.tier.pinHits (g * 128 + pin)).filter (fun t => decide (m.now < t + second))
    let l := old ++ [m.now]
    let m := { m with tier := { m.tier with pinHits := Tbl.set [] m.tier.pinHits (g * 128 + pin) l } }
    if 256 ≤ l.length then m.pinFail g pin else m) m
/-- A line that cannot be corrected is poisoned (R376, R379, R380, R576). -/
def Mach.linePoisoned (m : Mach) (frame line : Nat) : Mach :=
  let g := frame % 512
  let m := (m.addSat R.MEM_CHAN_UNCORR [g] 1).poisonLines (frameKey frame (line * 64)) 64
  let o := Tbl.get 0 m.tier.frameOwner frame
  let m := { m with tier := { m.tier with rowMoves := m.tier.rowMoves ++ [lineNo frame line] } }
  let m := if 64 ≤ o then m.regionHurt (o - 64) frame line
           else
             (m.place { ErrRec.mk0 sevDeferred o ecPoison (isl 4 g) 2 0 with
                          addr := m.lineAddr o frame line, paddr := lineNo frame line }).startHandler o sevDeferred ecPoison
  let l : List Nat := ((Tbl.get [] m.tier.uncorrHits g).filter (fun t => decide (m.now < t + second))) ++ [m.now]
  let m := { m with tier := { m.tier with uncorrHits := Tbl.set [] m.tier.uncorrHits g l } }
  if 64 ≤ l.length then m.chanFail g else m
/-- What a read of a line of a live channel meets: nothing more where the line is poisoned already (R374). -/
def Mach.lineErr (m : Mach) (e : LineErr) : Mach :=
  let g := e.frame.val % 512
  if !m.chanLive g || m.frameGone e.frame || m.poison.contains (frameKey e.frame (e.line.val * 64) / 64) then m
  else if e.pins.isEmpty then m.linePoisoned e.frame e.line
  else m.lineCorrected g (e.pins.map (fun x => x.val))
/-- What ROW_MAP_OUT_DONE leaves in the module (R379): the row is mapped onto a spare one, or its frame is retired. -/
def Mach.rowMapped (m : Mach) (frame line : Nat) (spare : Bool) : Mach :=
  let k := lineNo frame line
  if !m.tier.rowMoves.contains k then m
  else
    let m := { m with tier := { m.tier with rowMoves := m.tier.rowMoves.filter (fun x => x != k) } }
    let m := if spare then m else ({ m with tier := { m.tier with retired := insertNat frame m.tier.retired } }).memSync
    let o := Tbl.get 0 m.tier.frameOwner frame
    if 64 ≤ o then m else m.endHandler o ecPoison

/-! ### Stacks (R382 to R388) -/

/-- The lower bounds of levels 1 to 7 in tenths of a °C (R382). -/
def levelBound (l : Nat) : Int := if l = 7 then 1050 else 830 + 20 * l
/-- The level of a reading. -/
def levelOf (t : Int) : Nat := ((List.range 7).filter (fun i => decide (levelBound (i + 1) ≤ t))).length
/-- A level in force, with doubled refresh from 6 up (R382, R383). -/
def Mach.setLevel (m : Mach) (s l : Nat) : Mach := (m.setFld R.MEM_STACK_LEVEL [s] l).setFld R.MEM_STACK_REFRESH2X [s] (b2n (l == 6))
/-- The time since which readings have stayed 2 °C below the bound of the present level, plus one; 0 where they have not (R383). -/
def Mach.setCool (m : Mach) (s : Nat) (fresh : Bool) : Mach :=
  let l := m.fld R.MEM_STACK_LEVEL [s]
  let cool := decide (1 ≤ l) && decide (Tbl.get 0 m.tier.readings s + 20 ≤ levelBound l)
  let since := Tbl.get 0 m.tier.coolSince s
  { m with tier := { m.tier with coolSince := Tbl.set 0 m.tier.coolSince s (if !cool then 0 else if fresh || since == 0 then m.now + 1 else since) } }
/-- Self-refresh at 105 °C (R387). -/
def Mach.stackDown (m : Mach) (s : Nat) : Mach :=
  let ps := m.ownersWhere (fun f => f % 512 / 32 == s)
  let m := m.setFld R.MEM_STACK_SHUTDOWN [s] 1
  let m := { m with tier := { m.tier with atShutdown := Tbl.set 0 m.tier.atShutdown s (ps.foldl (fun a p => a + 2 ^ p) 0) } }
  ps.foldl (fun m p => m.contained p ecStackShutdown 0xFFFF s 0 1) m
/-- STACK_TEMP_READING (R382, R383, R387), in tenths of a °C. -/
def Mach.stackTemp (m : Mach) (s : Nat) (t : Int) : Mach :=
  let whole := max (-128) (min 127 (t / 10))
  let high := max (signed 8 (m.fld R.MEM_STACK_MAX_TEMP [s])) whole
  let m := m.setFlds [s] [(R.MEM_STACK_TEMP, wrapInt 8 whole), (R.MEM_STACK_MAX_TEMP, wrapInt 8 high)]
  let m := { m with tier := { m.tier with readings := Tbl.set 0 m.tier.readings s t } }
  let up := decide (m.fld R.MEM_STACK_LEVEL [s] < levelOf t)
  let m := (if up then m.setLevel s (levelOf t) else m).setCool s up
  if 1050 ≤ t ∧ !m.flag R.MEM_STACK_SHUTDOWN [s] then m.stackDown s else m
/-- STACK_LEVEL_FALL (R383). -/
def Mach.levelFall (m : Mach) (s : Nat) : Mach :=
  let since := Tbl.get 0 m.tier.coolSince s
  if since = 0 ∨ m.now + 1 < since + 10 ^ 6 then m
  else (m.setLevel s (m.fld R.MEM_STACK_LEVEL [s] - 1)).setCool s true
/-- PREDICTED_DELAY_REPORT (R385, R442): E = Q / (c × 2.05 TB/s) − Q / (2.05 TB/s) with c = 1 − LEVEL / 8, in whole µs. -/
def Mach.delayOf (l q : Nat) : Nat := q * l / ((8 - l) * 2050000)
/-- The report of a stack for a partition with q bytes queued there. -/
def Mach.predicted (m : Mach) (s p q : Nat) : Mach :=
  let l := m.fld R.MEM_STACK_LEVEL [s]
  if l = 0 ∨ 6 < l ∨ m.fld R.COL_CSTAT_INFLIGHT [p] = 0 ∨ !(m.ownersWhere (fun f => f % 512 / 32 == s)).contains p then m
  else
    let e := Mach.delayOf l q
    let m := m.setFld R.MEM_STACK_PRED_US [s] (min (2 ^ 32 - 1) e)
    let named := m.fld R.COL_CCFG_MANAGER [p]
    let dst := if named = 0xFFFF then m.member p 0 0 else named
    if dst = m.moduleId then
      (m.setFlds [p] [(R.COL_CDELAY_MODULE, dst), (R.COL_CDELAY_STACK, s), (R.COL_CDELAY_LEVEL, l), (R.COL_CDELAY_PRED_US, min (2 ^ 32 - 1) e)]).setFld
        R.COL_CDELAY_T_TIME [p] m.now
    else m.trySend dst (m.jobOf p) 0x11 0 (leBytes 1 s ++ leBytes 1 l ++ leBytes 2 0 ++ leBytes 4 (min (2 ^ 32 - 1) e) ++ leBytes 8 m.now) false
/-- RESUME (R388): TOO_HOT, BUSY, or the stack leaves self-refresh with its shared regions restored. -/
def Mach.stackResume (m : Mach) (s : Nat) : Mach :=
  let code (m : Mach) (c : Nat) : Mach := m.setFlds [] [(R.MEM_STACKCMD_CODE, c)]
  if !m.flag R.MEM_STACK_SHUTDOWN [s] then code m 0
  else if 950 ≤ Tbl.get 0 m.tier.readings s then code m 2
  else if (setBits 33 (Tbl.get 0 m.tier.atShutdown s)).any (fun p => m.pstate p != psTornDown) then code m 1
  else
    let m := ({ m with tier := { m.tier with atShutdown := Tbl.set 0 m.tier.atShutdown s 0 } }).setFld R.MEM_STACK_SHUTDOWN [s] 0
    let hit := m.tier.frameOwner.filter (fun e => decide (64 ≤ e.2) && e.1 % 512 / 32 == s)
    let m := hit.foldl (fun m e =>
      let r := e.2 - 64
      if m.fld R.PTN_SREG_STATE [r] ≠ 2 then m
      else if m.fld R.MEM_GOLD_CTL_STATE [r] ≠ 1 then m.regionFail r
      else match m.goldenInto r ((m.regionFrames r).idxOf e.1) e.1 with
        | some m => m
        | none => m.regionFail r) m
    code m 0

/-! ### The far tier (R407, R408) -/

/-- The key of a 64-byte line of the device behind a port. -/
def Mach.farLine (m : Mach) (x line : Nat) : Nat :=
  let a := line * 64
  if m.flag R.FAR_CTL_INTERLEAVE [] then farKey (a / 2 ^ 20) ((2 * (a % 2 ^ 20 / 4096) + x) * 4096 + a % 4096)
  else farKey (x * 2 ^ 21 + a / 2 ^ 21) (a % 2 ^ 21)
/-- A POISON record of a far line for its owner (R408, R562). -/
def Mach.farPoisonRecord (m : Mach) (x line : Nat) : Mach :=
  let k := m.farLine x line
  let f := k % 2 ^ 72 / 2 ^ 21
  let p := Tbl.get 0 m.tier.farOwner f
  let v := ((m.tier.farPages.find? (fun e => e.1 / 2 ^ 24 == p && e.2 == f + 1)).map (fun e => e.1 % 2 ^ 24)).getD 0
  m.place { ErrRec.mk0 sevDeferred p ecPoison (isl 6 (2 + x)) 3 0 with
    addr := if p = 0 then 0 else (mkAddr 3 (v * 2 ^ 21 + k % 2 ^ 21)).toNat, paddr := lineNo f (k % 2 ^ 21 / 64) }
/-- FAR_DEVICE_POISON. -/
def Mach.farPoison (m : Mach) (x line : Nat) : Mach :=
  if m.fld R.FAR_PORT_STATE [x] ≠ 1 then m else (m.poisonLines (m.farLine x line) 64).farPoisonRecord x line
/-- FAR_TIMEOUT (R408, R519): the line reads as poison to the copy that asked for it. -/
def Mach.farTimeout (m : Mach) (x line pane i : Nat) : Mach :=
  if m.fld R.FAR_PORT_STATE [x] ≠ 1 then m
  else
    let m := ((m.addSat R.FAR_PORT_TIMEOUTS [x] 1).countFor 0 (isl 6 (2 + x)) 2 1).farPoisonRecord x line
    let y := m.pane pane
    match y.cruns[i]? with
    | some r => m.setPane pane { y with cruns := y.cruns.set i { r with vals := r.vals ++ [m.farLine x line / 64] } }
    | none => m
/-- A port goes DOWN (R408). -/
def Mach.farDown (m : Mach) (x : Nat) : Mach :=
  if m.fld R.FAR_PORT_STATE [x] ≠ 1 then m
  else
    let m := m.setFld R.FAR_PORT_STATE [x] 2
    let hit := ((List.range 32).map (fun i => i + 1)).filter (fun p =>
      m.tier.farOwner.any (fun e => e.2 == p && (m.flag R.FAR_CTL_INTERLEAVE [] || e.1 / 2 ^ 21 == x)))
    hit.foldl (fun m p => m.contained p ecFarDown (isl 6 (2 + x)) x 0 1) m
/-- FAR_VIOLATION (R408, R519): counted and logged; the sixteenth within 1 s takes the port DOWN. -/
def Mach.farViolation (m : Mach) (x : Nat) : Mach :=
  if m.fld R.FAR_PORT_STATE [x] ≠ 1 then m
  else
    let m := ((m.addSat R.FAR_PORT_VIOLATIONS [x] 1).countFor 0 (isl 6 (2 + x)) 2 1).place (ErrRec.mk0 sevCorrected 0 ecViolation (isl 6 (2 + x)) 0 0)
    let l := ((Tbl.get [] m.tier.farViol x).filter (fun t => decide (m.now < t + second))) ++ [m.now]
    let m := { m with tier := { m.tier with farViol := Tbl.set [] m.tier.farViol x l } }
    if 16 ≤ l.length then m.farDown x else m

/-! ### Golden copies (R409) -/

/-- REGISTER: BAD_REGION, BAD_SOURCE or BUSY, or the copy is registered. -/
def Mach.goldenRegister (m : Mach) (r : Nat) : Mach :=
  let n := m.fld R.MEM_GOLD_CTL_PAGES [r]
  let src := m.fld R.MEM_GOLD_CTL_SRC [r]
  let inside (off len : Nat) : Bool :=
    if src = 0 then decide (off + len ≤ m.fld R.FAR_PQUOTA_PAGES [0] * 2 ^ 21) else decide (src ≤ 2) && decide (off + len ≤ 2 ^ 64)
  let code (m : Mach) (c : Nat) : Mach := m.setFld R.MEM_GOLD_CTL_CODE [r] c
  if m.fld R.PTN_SREG_STATE [r] = 0 ∨ m.fld R.PTN_SREG_PAGES [r] ≠ n then code m 1
  else if !inside (m.fld R.MEM_GOLD_ADDR_ADDR [r] * 4096) (n * 2 ^ 21) ∨
      (m.flag R.MEM_GOLD_CTL_DIGEST_EN [r] ∧ !inside (m.fld R.MEM_GOLD_DIG_ADDR [r] * 64) (n * 32)) then code m 2
  else if m.fix.regions.any (fun x => x.region == r) then code m 3
  else code (m.setFld R.MEM_GOLD_CTL_STATE [r] 1) 0
/-- DEREGISTER. -/
def Mach.goldenDeregister (m : Mach) (r : Nat) : Mach := m.setFlds [r] [(R.MEM_GOLD_CTL_STATE, 0), (R.MEM_GOLD_CTL_CODE, 0)]

end Sys2Proof.Machine
end

