-- ==== Sys2Proof/Machine/RepairOps.lean ====
section
/-! DEFINITION. Panes that fail and are repaired (R29, R51, R571 to R575), and faults that have no row of their own. -/

namespace Sys2Proof.Machine

/-! ### Slots (R27, R29, R51) -/

/-- The slots of a die that back panes, apart from one pane. -/
def Mach.slotsUsed (m : Mach) (d but : Nat) : List Nat :=
  ((List.range 48).map (fun i => d * 48 + i)).filterMap (fun q => if q ≠ but ∧ m.flag R.PNE_ID_PRESENT [q] then some (m.fld R.PNE_ID_SLOT [q]) else none)
/-- The good slot of a die that takes over a pane's number: the lowest that backs no pane. R29 and R573 say a spare slot and not which one; the
lowest is the model's choice (log entry 54). -/
def Mach.spareSlot (m : Mach) (pane : Nat) : Option Nat :=
  let d := pane / 48
  (setBits 52 (Tbl.get 0 m.core.goodSlots d)).find? (fun s => !(m.slotsUsed d pane).contains s)
/-- SPARES of a die (good slots that back no index) and SPARES_MIN, PANES_ENABLED and the map of panes follow the slots. -/
def Mach.slotSync (m : Mach) : Mach :=
  let spare (m : Mach) (d : Nat) : Nat :=
    let used := m.slotsUsed d 384
    ((setBits 52 (Tbl.get 0 m.core.goodSlots d)).filter (fun s => !used.contains s)).length
  let present (m : Mach) (d : Nat) : Nat := (List.range 48).foldl (fun a i => a + b2n (m.flag R.PNE_ID_PRESENT [d * 48 + i]) * 2 ^ i) 0
  let m := (List.range 8).foldl (fun m d => m.setFlds [d] [(R.PRT_PANE_MAP_SPARES, spare m d), (R.PRT_PANE_MAP_PRESENT, present m d)]) m
  m.setFlds [] [(R.PRT_LAYOUT_PANES_ENABLED, ((List.range 384).filter (fun q => m.flag R.PNE_ID_PRESENT [q])).length),
                (R.PRT_LAYOUT_SPARES_MIN, ((List.range 8).map (fun d => spare m d)).foldl min 4)]
/-- The slot of a pane marked bad. -/
def Mach.slotBad (m : Mach) (pane : Nat) : Mach :=
  let d := pane / 48
  let s := m.fld R.PNE_ID_SLOT [pane]
  let g := Tbl.get 0 m.core.goodSlots d
  if bitAt g s then { m with core := { m.core with goodSlots := Tbl.set 0 m.core.goodSlots d (g - 2 ^ s) } } else m
/-- A spare slot takes the number of a failed pane (R29, R51). -/
def Mach.migrate (m : Mach) (pane : Nat) : Mach :=
  if !m.core.failed.contains pane then m
  else match m.spareSlot pane with
    | none => m
    | some s =>
      let m := { m with core := { m.core with failed := eraseNat pane m.core.failed } }
      (m.setFlds [pane] [(R.PNE_ID_SLOT, s), (R.PNE_ID_MIGRATED, 1), (R.PNE_ID_PRESENT, 1)]).slotSync

/-! ### Failure (R571, R572) -/

/-- The partitions whose definitions hold a pane. -/
def Cfg.holders (c : Cfg) (pane : Nat) : List Nat := c.parts.filter (fun p => (c.panes p).contains pane)
/-- A partition's stage for a pane has SPARE (R194). -/
def Cfg.mayMigrate (c : Cfg) (p pane : Nat) : Bool := ((c.stageOf p pane).map (fun e => bitAt (leAt e 4 1) 0)).getD false
/-- The commands that a member outside its slice has waiting for a pane end ABORTED. -/
def Mach.abortSaved (m : Mach) (p pane : Nat) : Mach :=
  let x := m.context p pane
  let m := m.setContext p pane { x with mq := [], vq := [], cq := [], cruns := [], split := [] }
  (x.mq ++ x.vq ++ x.cq ++ (x.cruns ++ x.split).map (fun r => r.cmd)).foldl (fun m q => m.failCmd pane q cAborted) m
/-- Open steps of pipelines whose stages include a pane can no longer seal (R574). -/
def Mach.breakSteps (m : Mach) (p pane : Nat) : Mach :=
  (List.range 32).foldl (fun m n =>
    if m.pipePart n = p ∧ m.plState n ≠ plDisabled ∧ (m.plPanes n).contains pane then
      let x := m.pipe n
      m.setPipe n { x with opened := x.opened.map (fun s => { s with broken := true }) }
    else m) m
/-- The record of a failed pane for one partition: a repair, or PANE_FAILED (R572). Spare slots promised to other panes do not count. -/
def Mach.paneHurt (m : Mach) (pane p : Nat) : Mach :=
  let st := m.pstate p
  let d := pane / 48
  let promised := ((m.fix.panes.map (fun x => x.2)).foldl (fun l q => insertNat q l) []).filter (fun q => q / 48 == d && q != pane)
  let spare := decide (promised.length < m.fld R.PRT_PANE_MAP_SPARES [d])
  if st = psActive ∨ st = psPaused ∨ st = psDraining ∨ st = psLoading then
    (if m.conf.cfg.mayMigrate p pane && spare then
      let m := m.place (ErrRec.mk0 sevDeferred p ecPaneRepaired pane pane 0)
      let m := { m with fix := { m.fix with panes := m.fix.panes ++ [(p, pane)] } }
      ((m.breakSteps p pane).hold p hdRepair).startHandler p sevDeferred ecPaneRepaired
    else m.contained p ecPaneFailed pane pane 0 1)
  else m
/-- A stage whose update phase cannot end: an entry of the step that is being updated has no owner pane left, and none of them waits for a spare
(R324). -/
def Mach.updStuck (m : Mach) (p : Nat) : Option Nat :=
  if m.tstate p = tsStopped ∨ !m.running then none
  else ((m.train p).steps.find? (fun t => t.gated && !t.skipped && !m.updEnded p t)).bind (fun t =>
    ((m.train p).table.zipIdx.find? (fun x => !(Tbl.get EntrySt.init t.entries x.2).ended && (m.owners x.1).isEmpty &&
      !(m.conf.cfg.stagePanes (ueStage x.1)).any (fun q => m.fix.panes.contains (p, q)))).map (fun x => ueStage x.1))
/-- PANE_FAILURE: the pane is isolated, its commands and those that sent transfers to it end ABORTED, its partitions are told (R36, R572). -/
def Mach.paneFail (m : Mach) (pane : Nat) : Mach :=
  if m.core.failed.contains pane ∨ !m.flag R.PNE_ID_PRESENT [pane] then m
  else
    let m := { m with core := { m.core with failed := insertNat pane m.core.failed } }
    let m := (m.slotBad pane).slotSync
    let own := m.paneOwner pane
    let m := (m.abortPane pane true).dropRoutesTo (isl 0 pane)
    let ps := m.conf.cfg.holders pane
    let m := (ps.filter (fun p => p != own && m.conf.cfg.shared p)).foldl (fun m p => m.abortSaved p pane) m
    let stuck (m : Mach) (p : Nat) : Bool := (m.updStuck p).isSome && (m.conf.cfg.stageOf p pane).isSome
    ps.foldl (fun m' p =>
      let m' := m'.paneHurt pane p
      if stuck m p && !m'.fix.panes.contains (p, pane) then m'.contained p ecUpdateStuck (isl 3 0) ((m.updStuck p).getD 0) 0 1 else m') m

/-! ### Repair (R573 to R575) -/

/-- Open steps of the pipelines that a pane served are abandoned; their groups retry (R574). -/
def Mach.abandonSteps (m : Mach) (p : Nat) : Mach × Bool :=
  (List.range 32).foldl (fun (a : Mach × Bool) n =>
    let x := a.1.pipe n
    if a.1.pipePart n = p ∧ x.opened.any (fun s => s.broken) then
      let gone := x.opened.filter (fun s => s.broken)
      let m := a.1.setPipe n { x with opened := x.opened.filter (fun s => !s.broken), retry := gone.foldl (fun l s => insertNat s.group l) x.retry }
      let m := (List.range 8).foldl (fun m d => m.setSmp d ((m.smp d).filter (fun r => r.pipe != n || !gone.any (fun s => s.n % 2 ^ 32 == r.row.step)))) m
      let m := if (m.pipe n).opened.isEmpty ∧ m.plState n = plRunning then m.setPlState n plIdle else m
      ((m.pipeDrain n).gztSync p, true)
    else a) (m, false)
/-- Every pane of a partition that waits for a spare gets it, with its code and streams as the image leaves them (R186). -/
def Mach.takeSpares (m : Mach) (p : Nat) : Mach :=
  let mine := (m.fix.panes.filter (fun x => x.1 == p)).map (fun x => x.2)
  let m := mine.foldl (fun m q =>
    let m := m.migrate q
    if m.paneOwner q = p then (m.zero (paneKey q 0) (2 ^ 22)).loadPane q p else m.loadSaved q p) m
  { m with fix := { m.fix with panes := m.fix.panes.filter (fun x => x.1 != p) } }
/-- The repairs of a partition and the recovery of its work are complete (R566): their handlers end, save those of panes that still wait. -/
def Mach.endRepairs (m : Mach) (p : Nat) : Mach :=
  let h := m.handlersOf p
  let n := (h.running ++ h.queued).countP (fun x => x.2 == ecPaneRepaired) - m.fix.panes.countP (fun x => x.1 == p)
  (List.range n).foldl (fun m _ => m.endHandler p ecPaneRepaired) m
/-- REPAIR_QUIET_POINT: none of the partition's commands runs and no other handler of it is ahead (R567, R573): spares take over, work is
recovered, the partition is released. A rollback holds it on, and the handlers end with it. -/
def Mach.repairQuiet (m : Mach) (p : Nat) : Mach :=
  let first := ((m.handlersOf p).running.head?.map (fun h => h.2 == ecPaneRepaired)).getD false
  if !m.running || m.shut p || !m.fix.panes.any (fun x => x.1 == p) || m.anyStarted p || !first then m
  else
    let m := m.takeSpares p
    let a := m.abandonSteps p
    let train := m.tstate p == tsRunning
    let last := (((m.train p).steps.map (fun t => t.step)).getLast?).getD (m.tclosed p)
    let m := if train then a.1.recoverTraining p else a.1
    let m := if train ∧ m.tstate p = tsRunning then m.setCkpt p { m.ckpt p with exemptTo := last + 1 } else m
    let m := if a.2 || (train && m.tstate p == tsRunning) then { m with part := { m.part with exempt := insertNat p m.part.exempt } } else m
    let m := if (m.ckpt p).rollTo = 0 then m.endRepairs p else m
    (m.unhold p hdRepair).wakeGroup p

/-! ### Faults without a row of their own -/

/-- HANDLER_START (R567): the record of a fault is placed and its actions begin. -/
def Mach.faultEvent (m : Mach) : FaultEvent → Mach
  | .porter => m.fatal ecPorter (isl 7 0) 0
  | .moduleRegion d => m.fatal ecModuleState (isl 3 d) d
  | .rail n => m.fatal ecPower 0xFFFF n
  | .transomCorrected d => m.addSat R.TRN_DIE_CORR [d] 1
  | .transomLine s l =>
    let m := (m.addSat R.TRN_DIE_UNCORR [s.val / 256] 1).poisonLines (sliceKey s (l.val * 64)) 64
    let p := Tbl.get 0 m.tier.sliceOwner s
    let k := (m.tier.slices.find? (fun e => e.1 / 4096 == p && e.2 == s.val + 1)).map (fun e => e.1 % 4096)
    m.place { ErrRec.mk0 sevDeferred p ecPoison (isl 3 (s.val / 256)) 1 0 with
      addr := (k.map (fun k => (mkAddr 1 (k * 2 ^ 22 + l.val * 64)).toNat)).getD 0 }
  | .paneLine q l =>
    let m := m.poisonLines (paneKey q (l.val * 64)) 64
    let p := m.paneOwner q
    let m := m.place { ErrRec.mk0 sevDeferred p ecPoison q 0 0 with addr := if p = 0 then 0 else l.val * 64 }
    let h : List Nat := ((Tbl.get [] m.tier.paneHits q).filter (fun t => decide (m.now < t + 10 ^ 6))) ++ [m.now]
    let m := { m with tier := { m.tier with paneHits := Tbl.set [] m.tier.paneHits q h } }
    if 16 ≤ h.length then m.paneFail q else m

end Sys2Proof.Machine
end

