-- ==== Sys2Proof/Machine/ConfigOps.lean ====
section
/-! DEFINITION. The running configuration: loads (R212, R216, R217), chart commands (R216 to R218), transactions (R220 to R232), pane clocks (R33, R34, R630, R631, R639), measurements (R613). -/

namespace Sys2Proof.Machine

/-! ### Pane clocks -/

/-- What holds a pane's clock, as (code of LIMIT, MHz), in the order in which ties fall (R630, R631, R639). -/
def Mach.clockLimits (m : Mach) (q : Nat) : List (Nat × Nat) :=
  let held (t : Tbl Nat) (code : Nat) : List (Nat × Nat) := match Tbl.get 0 t q with
    | 0 => []
    | k + 1 => [(code, k)]
  held m.pwr.heat 2 ++ held m.pwr.level 1 ++ [(3, m.fld R.PRT_PWRCAP_CLK_MHZ [])]
/-- ACTUAL_MHZ and LIMIT of a pane follow its target and its limits (R34, R631). -/
def Mach.clockSync (m : Mach) (q : Nat) : Mach :=
  if !m.flag R.PNE_ID_PRESENT [q] then m
  else
    let t := m.fld R.PNE_CLOCK_TARGET_MHZ [q]
    let w := (m.clockLimits q).foldl (fun (b : Nat × Nat) x => if x.2 < b.2 then x else b) (0, t)
    m.setFlds [q] [(R.PNE_CLOCK_LIMIT, w.1), (R.PNE_CLOCK_ACTUAL_MHZ, w.2)]
/-- Every pane's clock, and LIMITING. -/
def Mach.clockSyncAll (m : Mach) : Mach :=
  let m := (List.range 384).foldl (fun m q => m.clockSync q) m
  m.setFld R.PRT_POWER_LIMITING [] (b2n ((List.range 384).any (fun q => m.fld R.PNE_CLOCK_LIMIT [q] == 1)))

/-! ### What a configuration sets (R198, R485, R227) -/

/-- Every "img" register follows the running configuration. -/
def Mach.imgSync (m : Mach) : Mach :=
  let c := m.conf.cfg
  let m := (List.range 384).foldl (fun m q =>
    if !m.panePresent q then m
    else
      let e := c.islands.getD q []
      m.setFlds [q] [(R.PNE_CLOCK_TARGET_MHZ, leAt e 0 2), (R.PNE_STREAM_PRIO_FIRST, bits (leAt e 2 1) 5 4), (R.PNE_STREAM_PRIO_SECOND, bits (leAt e 2 1) 3 2),
        (R.PNE_STREAM_PRIO_THIRD, bits (leAt e 2 1) 1 0)]) m
  let m := m.clockSyncAll
  let m := ((List.range 32).map (fun i => i + 1)).foldl (fun m p =>
    (m.setFld R.MEM_PREG_CEIL_GBS [p] (((c.part p).map (fun e => leAt e 12 2)).getD 0)).setFld R.PTN_PSTATE_MODE [p] (b2n (c.shared p))) m
  ((List.range 32).foldl (fun m g => m.setFld R.PTN_GROUP_FIRST [g] (c.groups.getD g 0)) m).recordSync
/-- Partitions that a configuration adds are DEFINED with metering at 0; those it no longer defines read NONE (R485). -/
def Mach.defineParts (m : Mach) (fresh : Bool) : Mach :=
  ((List.range 32).map (fun i => i + 1)).foldl (fun m p =>
    if (m.conf.cfg.part p).isNone then (if m.pstate p = psNone then m else (m.meterReset p).setPstate p psNone)
    else if fresh ∨ m.pstate p = psNone then ((m.meterReset p).setPstate p psDefined).setFlds [p] [(R.PTN_PSTATE_CODE, 0), (R.PTN_PSTATE_FAULT_CAUSE, 0)]
    else m) m
/-- An image becomes the running configuration (R217, R224, R277, R485, R524, R613): no partition is live. -/
def Mach.install (m : Mach) (b : List Byte) (chart bank : Nat) (factory : Bool) (digest : Nat) : Mach :=
  let m := (List.range 33).foldl (fun m o => (m.txDrop o rcTxnAborted).traceIdle o) m
  let m := (List.range 64).foldl (fun m c => m.cdClose c lvOk) m
  let m := { m with conf := { m.conf with cfg := imageCfg b, req := imReq b }, sec := { m.sec with imgSvn := imSvn b }, part := { m.part with savedRegs := [] } }.adoptStrays
  let m := m.setFlds [] [(R.CFG_RUN_ID_IMAGE_ID, imId b), (R.CFG_RUN_CHART, chart), (R.CFG_RUN_FACTORY, b2n factory), (R.CFG_RUN_BANK, if factory then 0 else bank),
    (R.CFG_RUN_MODIFIED, 0), (R.CFG_RUN_MAJOR, leAt b 8 2), (R.CFG_RUN_MINOR, leAt b 10 2), (R.CFG_RUN_EPOCH, 0)]
  let m := (List.range 33).foldl (fun m p => m.setFld R.CFG_PEPOCH_EPOCH [p] 0) m
  let m := (List.range 384).foldl (fun m q =>
    (List.range 3).foldl (fun m n => m.setFlds [q, n] [(R.PNE_STREAM_STATE, 0), (R.PNE_STREAM_PC, 0), (R.PNE_STREAM_WAIT_ON, 0),
      (R.PNE_STREAM_TOKEN, 0), (R.PNE_STREAM_ISSUED, 0)]) ((m.setPane q Pane.init).queueSync q)) m
  ((m.defineParts true).imgSync).mrExtend 2 digest

/-! ### Chart commands (R216 to R218) -/

/-- The largest chart image (R209). -/
def slotMax : Nat := 66056192
/-- CFG_CHART_STATUS when a chart command ends, with its vector (R472). -/
def Mach.chartEnd (m : Mach) (code kib : Nat) : Mach :=
  let m := { m with conf := { m.conf with chartOp := none, chartImage := [] } }
  (m.setFlds [] [(R.CFG_CHART_STATUS_BUSY, 0), (R.CFG_CHART_STATUS_CODE, code), (R.CFG_CHART_STATUS_DONE_KIB, kib)]).pfVector 1
/-- A chart command begins: CHART_BUSY while another runs, LC_DENIED where the life cycle forbids it (R216, R622). -/
def Mach.chartStart (m : Mach) (op chart : Nat) (force : Bool) : Mach :=
  if !m.running then m
  else if m.flag R.CFG_CHART_STATUS_BUSY [] then m.setFld R.CFG_CHART_STATUS_CODE [] rcChartBusy
  else
    let m := m.setFld R.CFG_CHART_STATUS_OP [] op
    if m.lc ≠ 2 then m.chartEnd rcLcDenied 0
    else if op = 1 ∧ m.fld R.SHT_STATUS_STATE [] ≠ 0 then m.chartEnd rcChartBusy 0
    else
      let m := { m with conf := { m.conf with chartOp := some { op := op, chart := chart, force := force } } }
      m.setFlds [] [(R.CFG_CHART_STATUS_BUSY, 1), (R.CFG_CHART_STATUS_DONE_KIB, 0)]
/-- WRITE begins with the fetch of LEN bytes at ADDR through the PF of a port (R216). -/
def Mach.chartWriteStart (m : Mach) (chart port : Nat) : Mach :=
  let was := m.conf.chartOp
  let m := m.chartStart 2 chart false
  if was.isNone ∧ m.conf.chartOp.isSome then
    { m with conf := { m.conf with chartImage := m.load (hostKey port 0 (m.fld R.CFG_CHART_ADDR_ADDR [] * 4096)) (m.fld R.CFG_CHART_LEN_LEN []) } }
  else m
/-- The section and the entry of a failed check (R207), recorded in CFG_STATUS; codes of R208 that no check of R207 gives leave it as it is. -/
def Mach.failSeen (m : Mach) (f : ImgFail) : Mach :=
  if rcCode < f.1 then m else m.setFlds [] [(R.CFG_STATUS_FAIL_SECTION, f.2.1), (R.CFG_STATUS_FAIL_ENTRY, f.2.2)]
/-- CFG_STATUS of a load (R207, R212). -/
def Mach.loadStatus (m : Mach) (code fcode : Nat) (at_ : ImgFail) : Mach :=
  m.setFlds [] [(R.CFG_STATUS_LOAD_CODE, code), (R.CFG_STATUS_FACTORY_CODE, fcode), (R.CFG_STATUS_FAIL_SECTION, at_.2.1), (R.CFG_STATUS_FAIL_ENTRY, at_.2.2)]
/-- Every live partition torn down before a forced LOAD (R216, R485). -/
def Mach.tearAll (m : Mach) (tear : Mach → Nat → Mach) : Mach :=
  ((List.range 32).map (fun i => i + 1)).foldl (fun m p => if m.partIdle p then m else tear m p) m
/-- The check digest of a chart image under the owner key. -/
def Nv.imageDigest (n : Nv) (b : List Byte) : Nat := checkDigest (n.ownerKey.getD []) (b.take (b.length - 128))
/-- LOAD ends (R216, R217). -/
def Mach.chartLoaded (m : Mach) (n : Nv) (x : ChartOp) (tear : Mach → Nat → Mach) : Mach :=
  match n.current x.chart with
  | none => (m.loadStatus rcEmpty 0 (imgFail rcEmpty)).chartEnd rcEmpty 0
  | some bank =>
    let b := n.imageOf bank x.chart
    match m.loadCheck n b (n.commitOf bank x.chart) with
    | some f => (m.loadStatus f.1 0 f).chartEnd f.1 (b.length / 1024)
    | none =>
      if (!m.allIdle ∧ !x.force) ∨ m.fld R.SHT_STATUS_STATE [] ≠ 0 then (m.loadStatus rcChartBusy 0 (imgFail rcChartBusy)).chartEnd rcChartBusy (b.length / 1024)
      else
        let m := (m.tearAll tear).install b x.chart bank false (n.imageDigest b)
        let m := m.setFlds [] [(R.PRT_STATUS_CHART, x.chart), (R.PRT_STATUS_CFG_NONE, 0), (R.PRT_STATUS_CFG_FALLBACK, 0)]
        (m.loadStatus rcOk 0 (imgFail rcOk)).chartEnd rcOk (b.length / 1024)
/-- The images and commit records of a chart slot of a bank replaced. -/
def Nv.setSlot (n : Nv) (bank chart : Nat) (img : List Byte) (recs : List (List Byte)) : Nv :=
  let b := n.bank bank
  n.setBank bank { b with images := Tbl.set [] b.images chart img, commits := Tbl.set [] b.commits chart recs }
/-- WRITE ends (R216, R218). -/
def State.chartWritten (s : State) (x : ChartOp) (fetched flashOk : Bool) : State :=
  let m := s.m
  let b := m.conf.chartImage
  if !fetched then { s with m := m.chartEnd 0x32 0 }
  else if slotMax < b.length then { s with m := m.chartEnd rcBadLength 0 }
  else match m.loadCheck s.nv b none with
    | some f => { s with m := (m.failSeen f).chartEnd f.1 (b.length / 1024) }
    | none =>
      let bank := match s.nv.current x.chart with
        | some c => 1 - c
        | none => 0
      if !flashOk then
        let n := s.nv.setSlot bank x.chart [] []
        { s with nv := n, m := (m.chartEnd 0x31 (b.length / 1024)).chartSync n }
      else
        let r := commitRecord x.chart bank (s.nv.currentGen x.chart + 1) b.length (imId b) (s.nv.imageDigest b)
        let n := s.nv.setSlot bank x.chart b [r]
        { s with nv := n, m := (m.chartEnd rcOk (b.length / 1024)).chartSync n }
/-- ERASE ends: commit sectors first, the non-current one before the current one, then both image areas (R216). Where the read-back fails,
how far the erase came is left open. -/
def State.chartErased (s : State) (x : ChartOp) (flashOk : Bool) : State :=
  let cur := (s.nv.current x.chart).getD 0
  let recs (b : Nat) : List (List Byte) := Tbl.get [] (s.nv.bank b).commits x.chart
  let img (b : Nat) : List Byte := Tbl.get [] (s.nv.bank b).images x.chart
  if flashOk then
    let n := (s.nv.setSlot (1 - cur) x.chart [] []).setSlot cur x.chart [] []
    { s with nv := n, m := (s.m.chartEnd rcOk 0).chartSync n }
  else
    let k := s.m.free.toNat % 3
    let n := if k = 0 then s.nv else s.nv.setSlot (1 - cur) x.chart (img (1 - cur)) []
    let n := if k = 2 then n.setSlot cur x.chart (img cur) [] else n
    let _ := recs
    { s with nv := n, m := (s.m.drew.chartEnd 0x31 0).chartSync n }
/-- REVERT ends (R216, R218): a commit sector holds 32 records. -/
def State.chartReverted (s : State) (x : ChartOp) (flashOk : Bool) : State :=
  match s.nv.current x.chart with
  | none => { s with m := s.m.chartEnd rcEmpty 0 }
  | some cur =>
    match s.nv.commitOf (1 - cur) x.chart with
    | none => { s with m := s.m.chartEnd rcEmpty 0 }
    | some r =>
      let b := s.nv.imageOf (1 - cur) x.chart
      let v := s.nv.ownerCheck b (fun d => digestOf ((r.drop 26).take 32) != d)
      let recs := Tbl.get [] (s.nv.bank (1 - cur)).commits x.chart
      if v ≠ rcOk then { s with m := s.m.chartEnd v (b.length / 1024) }
      else if !flashOk ∨ 32 ≤ recs.length then { s with m := s.m.chartEnd 0x31 (b.length / 1024) }
      else
        let new := commitRecord x.chart (1 - cur) (s.nv.currentGen x.chart + 1) (leAt r 10 8) (leAt r 18 8) (digestOf ((r.drop 26).take 32))
        let n := s.nv.setSlot (1 - cur) x.chart (Tbl.get [] (s.nv.bank (1 - cur)).images x.chart) (recs ++ [new])
        { s with nv := n, m := (s.m.chartEnd rcOk (b.length / 1024)).chartSync n }
/-- The running chart command ends (R216 to R218). -/
def State.chartDone (s : State) (fetched flashOk : Bool) (tear : Mach → Nat → Mach) : State :=
  if !s.m.running then s
  else match s.m.conf.chartOp with
    | none => s
    | some x =>
      match x.op with
      | 1 => { s with m := s.m.chartLoaded s.nv x tear }
      | 2 => s.chartWritten x fetched flashOk
      | 3 => s.chartErased x flashOk
      | _ => s.chartReverted x flashOk

/-! ### Setting addresses and deltas (R202, R203) -/

/-- The parts of a setting address. -/
def saType (a : Word) : Nat := bits a.toNat 63 48
def saIndex (a : Word) : Nat := bits a.toNat 47 24
def saOffset (a : Word) : Nat := bits a.toNat 23 0
/-- A setting address is valid in a configuration (R202). -/
def Cfg.settingOk (c : Cfg) (a : Word) : Bool :=
  decide (1 ≤ saType a ∧ saType a ≤ 8) && c.types.contains (saType a) && decide (saIndex a < (c.sect (saType a)).length) &&
  saOffset a % 8 == 0 && decide (saOffset a + 8 ≤ entrySize (saType a))
/-- An entry with eight bytes replaced. -/
def patched (e : List Byte) (o : Nat) (v : Word) : List Byte := e.take o ++ leBytes 8 v.toNat ++ e.drop (o + 8)
/-- One write applied to a configuration. -/
def Cfg.applyWrite (c : Cfg) (w : Word × Word) : Cfg :=
  let l := c.sect (saType w.1)
  c.setSect (saType w.1) (l.set (saIndex w.1) (patched (l.getD (saIndex w.1) []) (saOffset w.1) w.2))
/-- Entries of a configuration, as section type and index. -/
abbrev Touched := List (Nat × Nat)
/-- Writes applied in order: TXN_ADDR at an invalid address (R225). -/
def Cfg.applyWrites (c : Cfg) (l : List (Word × Word)) : Except Nat (Cfg × Touched) :=
  if l.all (fun w => c.settingOk w.1) then .ok (l.foldl (fun c w => c.applyWrite w) c, l.map (fun w => (saType w.1, saIndex w.1)))
  else .error rcTxnAddr
/-- Entries of one section type with the same key (R203); ISLANDS entries by their index. -/
def sameKey (t : Nat) (a b : List Byte) : Bool :=
  match t with
  | 1 => leAt a 0 2 == leAt b 0 2
  | 2 => leAt a 0 2 == leAt b 0 2
  | 3 => leAt a 0 1 == leAt b 0 1
  | 4 => leAt a 0 1 == leAt b 0 1
  | 6 => leAt a 0 2 == leAt b 0 2 && leAt a 2 1 == leAt b 2 1
  | 7 => leAt a 0 1 == leAt b 0 1
  | 8 => leAt a 0 2 == leAt b 0 2
  | _ => false
/-- The place of a delta's entry among the running ones, their number where its key is new. -/
def placeOf (t : Nat) (run : List (List Byte)) (e : List Byte) (j : Nat) : Nat :=
  if t = 5 then min j run.length else (run.findIdx? (sameKey t e)).getD run.length
/-- The entries of one section of a delta replace or extend the running ones. -/
def replaceEntries (t : Nat) (run new : List (List Byte)) : List (List Byte) × Touched :=
  new.zipIdx.foldl (fun (a : List (List Byte) × Touched) x =>
    let i := placeOf t a.1 x.1 x.2
    (if i < a.1.length then a.1.set i x.1 else a.1 ++ [x.1], a.2 ++ [(t, i)])) (run, [])
/-- A delta applied: replacements, then PATCH entries in order (R203). -/
def Cfg.applyDelta (c : Cfg) (d : Delta) : Except Nat (Cfg × Touched) :=
  let a := ((List.range 9).filter (fun t => d.cfg.types.contains t)).foldl (fun (a : Cfg × Touched) t =>
    let r := replaceEntries t (a.1.sect t) (d.cfg.sect t)
    let c := a.1.setSect t r.1
    ({ c with types := if c.types.contains t then c.types else c.types ++ [t] }, a.2 ++ r.2)) (c, [])
  match a.1.applyWrites d.patch with
  | .ok b => .ok (b.1, a.2 ++ b.2)
  | .error e => .error e

/-! ### Transactions (R220 to R228) -/

/-- The partitions whose entry it is, 0 where it is module-wide or of unassigned panes (R226, R227). -/
def Cfg.scopesOf (c : Cfg) (x : Nat × Nat) : List Nat :=
  match (c.sect x.1)[x.2]? with
  | none => []
  | some e =>
    if x.1 = 4 then [0]
    else if x.1 = 5 then (let l := c.parts.filter (fun p => (c.panes p).contains x.2); if l.isEmpty then [0] else l)
    else if x.1 = 8 then [c.stagePart (leAt e 0 2)]
    else [entryPart x.1 e]
/-- The scopes a change touches, before and after. -/
def Cfg.scopes (old new : Cfg) (l : Touched) : List Nat :=
  l.foldl (fun acc x => (old.scopesOf x ++ new.scopesOf x).foldl (fun acc p => insertNat p acc) acc) []
/-- A tenant's change of one entry lies within its scope (R222), in the running configuration and in the new one: old is none for an appended
entry. -/
def Cfg.inScope (c new : Cfg) (p : Nat) (x : Nat × Nat) (old : Option (List Byte)) (e : List Byte) : Bool :=
  let was (f : List Byte → Nat) : Bool := old.all (fun o => f o == f e)
  match x.1 with
  | 1 => entryPart 1 e == p && was (entryPart 1) && (bitmapPanes e 8).all (fun q => (c.panes p).contains q)
  | 2 => entryPart 2 e == p && was (entryPart 2)
  | 7 => entryPart 7 e == p && was (entryPart 7)
  | 6 => entryPart 6 e == p && was (entryPart 6) && was (fun y => leAt y 0 2) && (c.panes p).contains (leAt e 0 2)
  | 8 => new.stagePart (leAt e 0 2) == p && old.all (fun o => c.stagePart (leAt o 0 2) == p)
  | 5 => c.parts.all (fun r => (c.panes r).contains x.2 == (r == p)) && decide (leAt e 0 2 ≤ ((c.part p).map (fun y => leAt y 10 2)).getD 0)
  | _ => false
/-- Every change of a list lies within a tenant's scope; the provider's is everything. -/
def Cfg.allInScope (c new : Cfg) (o : Nat) (l : Touched) : Bool :=
  o == 0 || l.all (fun x => c.inScope new o x ((c.sect x.1)[x.2]?) ((new.sect x.1).getD x.2 []))

/-- RESULT of an owner's transaction. -/
def Mach.txResult (m : Mach) (o code : Nat) : Mach := m.setFld R.CFG_TXN_STATUS_RESULT [o] code
/-- PEPOCH values of an owner's scope (R224). -/
def Mach.pepochs (m : Mach) (o : Nat) : List (Nat × Nat) :=
  (if o = 0 then List.range 33 else [o]).map (fun p => (p, m.fld R.CFG_PEPOCH_EPOCH [p]))
/-- BEGIN. -/
def Mach.txBegin (m : Mach) (o : Nat) : Mach :=
  if !m.accepts then m
  else if m.txState o ≠ txIdle then m.txResult o rcTxnState
  else (((m.setTxn o { Txn.init with epochs := m.pepochs o }).setFlds [o] [(R.CFG_TXN_STATUS_WRITES, 0), (R.CFG_TXN_STATUS_DELTA, 0)]).txMove o txOpen).txResult o rcOk
/-- WDATA (R220, R221). -/
def Mach.txWrite (m : Mach) (o : Nat) (v : Word) : Mach :=
  let t := m.txn o
  let a := BitVec.ofNat 64 (m.fld R.CFG_TXN_WADDR_SETTING [o])
  let c := m.conf.cfg
  if !m.accepts then m
  else if m.txState o = txIdle then m.txResult o rcTxnState
  else if m.txState o ≠ txOpen then m
  else if t.delta.isSome then m.txResult o rcTxnMixed
  else if !c.settingOk a then m.txResult o rcTxnAddr
  else if !c.allInScope (c.applyWrite (a, v)) o [(saType a, saIndex a)] then m.txResult o rcTxnDenied
  else if t.writes.any (fun w => w.1 == a) then
    (m.setTxn o { t with writes := t.writes.map (fun w => if w.1 == a then (a, v) else w) }).txResult o rcOk
  else if 4096 ≤ t.writes.length then m.txResult o rcTxnFull
  else ((m.setTxn o { t with writes := t.writes ++ [(a, v)] }).setFld R.CFG_TXN_STATUS_WRITES [o] (t.writes.length + 1)).txResult o rcOk
/-- DELTA_LEN (R220, R223): the fetch goes out on the port of the owner's VF, or on the provider's port. -/
def Mach.txDelta (m : Mach) (o port len : Nat) : Mach :=
  let t := m.txn o
  if !m.accepts ∨ m.txState o ≠ txOpen then m
  else if m.lc ≠ 2 then m.txResult o rcLcDenied
  else if len = 0 ∨ len % 64 ≠ 0 ∨ 2 ^ 24 < len then m.txResult o rcBadLength
  else if !t.writes.isEmpty then m.txResult o rcTxnMixed
  else ((m.setTxn o { t with delta := none, fetchLen := len, port := port }).setFld R.CFG_TXN_STATUS_DELTA [o] 0).txMove o txVerifying
/-- The key of the delta of an owner. -/
def Mach.deltaKey (m : Mach) (o : Nat) : Nat :=
  let a := m.fld R.CFG_TXN_DELTA_ADDR_ADDR [o] * 64
  if o = 0 then hostKey (m.txn o).port 0 a else m.partHostKey o a
/-- Verification of a fetched delta (R203, R205, R207, R222, R223): the delta, or the failure, its section that of the delta's own table. -/
def Mach.deltaCheck (m : Mach) (n : Nv) (o : Nat) (b : List Byte) : Except ImgFail Delta :=
  let v := n.ownerCheck b (fun _ => false)
  let rows : List (Unit → Option ImgFail) := [fun _ => layoutCheck b, fun _ => versionCheck b, fun _ => sectionCheck b true false,
    fun _ => if imSvn b < n.imgFloor then some (imgFail rcRollback) else none, fun _ => m.reqCheck (imReq b)]
  if imLength b ≠ b.length then .error (imgFail rcBadLength)
  else if v ≠ rcOk then .error (imgFail v)
  else match rows.findSome? (fun f => f ()) with
    | some f => .error f
    | none =>
      if imBase b ≠ m.fld R.CFG_RUN_ID_IMAGE_ID [] then .error (imgFail rcTxnBase)
      else
        let d : Delta := { imageId := imId b, digest := n.imageDigest b, cfg := imageCfg b, patch := imagePatch b, req := imReq b }
        match m.conf.cfg.applyDelta d with
        | .error e => .error (imgFail e)
        | .ok r => if m.conf.cfg.allInScope r.1 o r.2 then .ok d else .error (imgFail rcTxnDenied)
/-- The fetch and verification of a delta end (R223, R224). -/
def Mach.txVerified (m : Mach) (n : Nv) (o : Nat) (fetched : Bool) : Mach :=
  let t := m.txn o
  let k := m.deltaKey o
  if !m.running ∨ m.txState o ≠ txVerifying ∨ (fetched && o != 0 && !m.portUp o) then m
  else
    let back (m : Mach) (d : Option Delta) (code : Nat) : Mach :=
      (((m.setTxn o { t with delta := d }).setFld R.CFG_TXN_STATUS_DELTA [o] (b2n d.isSome)).txMove o txOpen).txResult o code
    if !fetched ∨ m.poisonedAt k t.fetchLen then back m none rcHostFetch
    else
      let m := m.traffic o false [(k, t.fetchLen)]
      match m.deltaCheck n o (m.load k t.fetchLen) with
      | .ok d => back m (some d) rcOk
      | .error f => back (m.failSeen f) none f.1
/-- The configuration that a transaction makes of the running one, and what it changes. -/
def Mach.txTarget (m : Mach) (o : Nat) : Except Nat (Cfg × Touched) :=
  match (m.txn o).delta with
  | some d => m.conf.cfg.applyDelta d
  | none => m.conf.cfg.applyWrites (m.txn o).writes
/-- The partitions whose entries a transaction changes (R226). -/
def Mach.txScopes (m : Mach) (o : Nat) : List Nat :=
  match m.txTarget o with
  | .ok r => (m.conf.cfg.scopes r.1 r.2).filter (fun p => p != 0)
  | .error _ => []
/-- COMMIT (R224). -/
def Mach.txCommit (m : Mach) (o timeout : Nat) : Mach :=
  if !m.accepts then m
  else if m.txState o = txIdle then m.txResult o rcTxnState
  else if m.txState o ≠ txOpen then m
  else
    let t := m.txn o
    (m.setTxn o { t with commitAt := m.now, limit := (if timeout = 0 then 10000 else timeout) * 1000, holdAt := 0, affected := m.txScopes o, valid := false }).txMove
      o txCommitting
/-- ABORT (R224); the module begins no other action on it. -/
def Mach.txAbort (m : Mach) (o : Nat) : Mach :=
  if !m.accepts then m
  else if m.txState o = txIdle then m.txResult o rcTxnState
  else m.txEnd o rcOk
/-- A recorded PEPOCH has changed (R224). -/
def Mach.txConflict (m : Mach) (o : Nat) : Bool := (m.txn o).epochs.any (fun e => m.fld R.CFG_PEPOCH_EPOCH [e.1] != e.2)
/-- What the running configuration with a transaction's delta asks of the module (R189, R225). -/
def Mach.txReq (m : Mach) (o : Nat) : Nat × Nat × Nat :=
  let a := m.conf.req
  match (m.txn o).delta with
  | some d => (max a.1 d.req.1, max a.2.1 d.req.2.1, max a.2.2 d.req.2.2)
  | none => a
/-- The validation of R225: a failure, or the partitions affected. A failed check of R207 names the section by the order of the running image's
table (log entry 66). -/
def Mach.txValidate (m : Mach) (o : Nat) : Except ImgFail (List Nat) :=
  match m.txTarget o with
  | .error e => .error (imgFail e)
  | .ok r =>
    let old := m.conf.cfg
    let new := r.1
    let patch := ((m.txn o).delta.map (fun d => d.patch.map (fun w => (saType w.1, saIndex w.1)))).getD []
    if !old.allInScope new o patch then .error (imgFail rcTxnAddr) else
    let field (c : Cfg) (p : Nat) : Option (List Byte × Nat × Nat) := (c.part p).map (fun e => ((e.drop 32).take 48, leAt e 4 4, leAt e 8 2))
    let live := ((List.range 32).map (fun i => i + 1)).filter (fun p => !m.partIdle p)
    let ix (t : Nat) : Nat := (new.types.findIdx? (fun x => x == t)).getD 0xFFFF
    match r.2.find? (fun x => !imgEntryOk x.1 ((new.sect x.1).getD x.2 [])) with
    | some x => .error (rcBadSection, ix x.1, x.2)
    | none =>
      if new.fabric.length ≠ 14 then .error (rcBadSection, ix 4, 0xFFFFFF)
      else if new.islands.length ≠ 384 then .error (rcBadSection, ix 5, 0xFFFFFF)
      else match m.contentCheck new ix (m.txReq o) with
      | some f => .error f
      | none =>
        if live.any (fun p => field old p != field new p) then .error (imgFail rcPartBusy)
        else .ok (m.txScopes o)
/-- A partition is at a step boundary already (R226): outside its slice, or with no command started. -/
def Mach.atBoundary (m : Mach) (p : Nat) : Bool :=
  (m.conf.cfg.shared p && m.fld R.PTN_GROUP_CURRENT [m.conf.cfg.groupOf p] != p) || !m.anyStarted p
/-- The affected partitions that are at a boundary are held (R226). -/
def Mach.txReach (m : Mach) (o : Nat) : Mach :=
  (m.txn o).affected.foldl (fun m p => if m.atBoundary p ∧ !m.part.holds.contains (p, o) then m.txHold o p else m) m
/-- Commit validation ends (R224, R225). -/
def Mach.txValidated (m : Mach) (o : Nat) : Mach :=
  if !m.running ∨ m.txState o ≠ txCommitting ∨ (m.txn o).valid then m
  else if m.txConflict o then m.txEnd o rcTxnConflict
  else match m.txValidate o with
    | .error f => ((m.failSeen f).txMove o txOpen).txResult o f.1
    | .ok l => (m.setTxn o { m.txn o with affected := l, valid := true }).txReach o
/-- The panes and partitions whose CODE entry a change touches, as they were and as they become (R226 to R228). -/
def Cfg.codePanes (old new : Cfg) (l : Touched) : List (Nat × Nat) :=
  let at_ (c : Cfg) (x : Nat × Nat) : List (Nat × Nat) := if x.1 = 6 then (c.code[x.2]?).toList.map (fun e => (leAt e 0 2, leAt e 2 1)) else []
  (l.flatMap (fun x => at_ old x ++ at_ new x)).eraseDups
/-- A partition is quiet for a transaction: held by it, its started commands ended, and on each pane whose CODE entry changes its streams
IDLE or FAULT (R226). -/
def Mach.txQuiet (m : Mach) (o : Nat) (new : Cfg) (l : Touched) (p : Nat) : Bool :=
  m.part.holds.contains (p, o) && !m.anyStarted p &&
  (m.conf.cfg.codePanes new l).all (fun e =>
    let q := e.1
    let st (n : Nat) : Nat := if m.paneOwner q = p then m.sstate q n else bits (Tbl.get 0 m.part.savedRegs ((p * 512 + q) * 4 + n)).toNat 63 62
    e.2 != p || (List.range 3).all (fun n => st n == ssIdle || st n == ssFault))
/-- A committing transaction is ready to apply. -/
def Mach.txReady (m : Mach) (o : Nat) : Bool :=
  m.txState o == txCommitting && (m.txn o).valid &&
  (match m.txTarget o with
   | .ok r => (m.txn o).affected.all (fun p => m.txQuiet o r.1 r.2 p)
   | .error _ => false)
/-- Streams of a partition restart on a pane whose code or address table has changed; its tokens are cleared (R228). -/
def Mach.reloadCode (m : Mach) (q p : Nat) : Mach :=
  let fresh := m.conf.cfg.freshPane q p
  let x := m.context p q
  let m := m.setContext p q { x with code := fresh.code, f := fresh.f, b := fresh.b, u := fresh.u, tok := [] }
  if m.paneOwner q = p then (List.range 3).foldl (fun m n => m.streamReset q n) m else m.savedReset p q
/-- The conduits whose CONDUIT entry or route a change touches (R277). -/
def Cfg.conduitsOf (c : Cfg) (l : Touched) : List Nat :=
  (c.conduit.zipIdx.filter (fun x => l.contains (7, x.2) || l.any (fun y => y.1 == 2 && (((c.sect 2)[y.2]?).map (fun r => leAt r 0 2)) == some (leAt x.1 6 2)))).map
    (fun x => leAt x.1 0 1)
/-- The conduit has a tap over a route that a change touches (R255, R277). -/
def Mach.tapRoutes (m : Mach) (c : Nat) (l : Touched) : Bool :=
  (m.cdTaps c).any (fun t => l.any (fun y => y.1 == 2 && (((m.conf.cfg.sect 2)[y.2]?).map (fun r => leAt r 0 2)) == some (m.fld R.LVR_TAP_ROUTE [c, t])))
/-- The value by which an application extends its measurement registers (R613): owner, new EPOCH, and the held writes in setting-address
order or the delta's check digest (log entry 27). -/
def Mach.txMeasure (m : Mach) (o : Nat) (t : Txn) : Nat :=
  let body := match t.delta with
    | some d => digestBytes d.digest
    | none => ((t.writes.foldl (fun (acc : List (Word × Word)) w =>
        (acc.filter (fun x => decide (x.1.toNat < w.1.toNat))) ++ [w] ++ acc.filter (fun x => decide (w.1.toNat < x.1.toNat))) []).flatMap
          (fun w => leBytes 8 w.1.toNat ++ leBytes 8 w.2.toNat))
  sm3 (leBytes 8 o ++ leBytes 8 (m.fld R.CFG_RUN_EPOCH []) ++ body)
/-- What a group keeps moves with its members to their number in the new configuration (R495): CURRENT and its slice. -/
def Mach.regroup (m : Mach) (old : Cfg) : Mach :=
  let new := m.conf.cfg
  let was (g : Nat) : Option Nat := ((new.members g).find? (fun p => old.shared p)).map old.groupOf
  let word (h : Option Nat) : Word := (h.map (fun h => Regs.word m.regs (R.PTN_GROUP_CURRENT.addr [h]))).getD 0
  let carry (t : Tbl Nat) : Tbl Nat := (List.range 32).foldl (fun u g => Tbl.set 0 u g (((was g).map (fun h => Tbl.get 0 t h)).getD 0)) []
  let x := m.part
  let left := (List.range 32).filter (fun g => ((was g).map x.left.contains).getD false)
  let regs := (List.range 32).foldl (fun r g => Regs.setWord r (R.PTN_GROUP_CURRENT.addr [g]) (word (was g))) m.regs
  { m with regs := regs, part := { x with sliceEnd := carry x.sliceEnd, sliceStart := carry x.sliceStart, switching := carry x.switching,
                                          overrun := carry x.overrun, left := left } }
/-- The application itself (R227, R228): every setting in one tick, epochs, measurements, then the partitions are released. -/
def Mach.txDo (m : Mach) (o : Nat) (new : Cfg) (l : Touched) : Mach :=
  let t := m.txn o
  let old := m.conf.cfg
  let scopes := old.scopes new l
  let hit := (List.range 64).filter (fun c => (old.conduitsOf l).contains c || (new.conduitsOf l).contains c || m.tapRoutes c l)
  let m := hit.foldl (fun m c => m.cdClose c lvReconfigured) m
  let m := ({ m with conf := { m.conf with cfg := new } }.adoptStrays).regroup old
  let m := (m.defineParts false).imgSync
  let m := (old.codePanes new l).foldl (fun m e => if m.partIdle e.2 then m else m.reloadCode e.1 e.2) m
  let m := (m.addWrap R.CFG_RUN_EPOCH [] 1).setFld R.CFG_RUN_MODIFIED [] 1
  let m := scopes.foldl (fun m p => m.addWrap R.CFG_PEPOCH_EPOCH [p] 1) m
  let m := match t.delta with
    | some d => m.setFld R.CFG_RUN_ID_IMAGE_ID [] d.imageId
    | none => m
  let v := m.txMeasure o t
  let m := (scopes.filter (fun p => p != 0)).foldl (fun m p => m.pmrExtend p v) (m.mrExtend 3 v)
  let m := (m.setFld R.CFG_TXN_APPLIED_TIME [o] m.now).txEnd o rcOk
  m.stirGroups t.affected
/-- A transaction is applied once every affected partition is quiet and no earlier COMMIT of the same hold is ready (R227, R230): every
committing transaction takes hold of the partitions that are at their boundary first. None is applied once a stop has been requested (R232), or
while a repair waits for the same boundary (R231). -/
def Mach.txApply (m : Mach) (o : Nat) : Mach :=
  let m := (List.range 33).foldl (fun m q => if m.txState q = txCommitting ∧ (m.txn q).valid then m.txReach q else m) m
  let t := m.txn o
  let before (q : Nat) : Bool := q != o && m.txReady q && (decide ((m.txn q).commitAt < t.commitAt) || ((m.txn q).commitAt == t.commitAt && decide (q < o))) &&
    (m.txn q).affected.any (fun p => t.affected.contains p)
  if !m.running ∨ !m.txReady o ∨ (List.range 33).any before ∨ m.fld R.SHT_STATUS_STATE [] ≠ 0 ∨ m.fix.panes.any (fun x => t.affected.contains x.1) then m
  else if m.txConflict o then m.txEnd o rcTxnConflict
  else match m.txTarget o with
    | .ok r => m.txDo o r.1 r.2
    | .error e => m.txEnd o e
/-- A hold that exceeds TIMEOUT (R224). From the request of a stop on, the transaction stays COMMITTING (R232). -/
def Mach.txTimeout (m : Mach) (o : Nat) : Mach :=
  let t := m.txn o
  if !m.running ∨ m.txState o ≠ txCommitting ∨ !m.flag R.CFG_TXN_STATUS_HOLDING [o] ∨ m.fld R.SHT_STATUS_STATE [] ≠ 0 ∨ m.now ≤ t.holdAt + t.limit then m
  else
    let m := (m.setTxn o { t with affected := [], valid := false, holdAt := 0 }).release o
    ((m.setFld R.CFG_TXN_STATUS_HOLDING [o] 0).txMove o txOpen).txResult o rcTxnTimeout

end Sys2Proof.Machine
end

