-- ==== Sys2Proof/Machine/BootOps.lean ====
section
/-! DEFINITION. Reset and boot (R212, R601, R609, R613, R621, R636, R637), power failure and its flush (R599 to R603, R633). -/

namespace Sys2Proof.Machine

/-! ### What every reset sets -/

/-- The firmware copy that the ROM selects: valid, its SVN not below FW_FLOOR, the higher SVN, copy A on a tie (R609). -/
def Nv.fwCopy (n : Nv) : Option Nat :=
  let ok (b : Bank) : Bool := b.fwValid && decide (n.fwFloor ≤ b.fwSvn)
  if ok n.bankA ∧ (!ok n.bankB ∨ n.bankB.fwSvn ≤ n.bankA.fwSvn) then some 0 else if ok n.bankB then some 1 else none
/-- SEC_LC and SEC_FLOOR follow the fuses (R612, R617, R622). -/
def Mach.secSync (m : Mach) (n : Nv) : Mach :=
  let copy := m.sec.fwRun - 1
  let m := m.setFlds [] [(R.SEC_LC_STATE, n.lc), (R.SEC_LC_PENDING, b2n (n.pendingLc != 0)), (R.SEC_LC_OWNER_SLOT, n.owners.length - 1),
    (R.SEC_LC_SLOTS_USED, n.owners.length), (R.SEC_LC_TRANSITIONS, (n.trans.filter (fun t => t.2)).length), (R.SEC_LC_DEBUG, b2n (n.lc == 0 || n.lc == 3)),
    (R.SEC_LC_DIRECT, b2n (n.lc == 0 || n.lc == 3)), (R.SEC_FLOOR_IMG_FLOOR, n.imgFloor), (R.SEC_FLOOR_FW_FLOOR, n.fwFloor),
    (R.SEC_FLOOR_FW_SVN, (n.bank copy).fwSvn), (R.SEC_FLOOR_FW_COPY, copy)]
  m.marginSync
/-- MR0, MR4 and MR1 at a reset (R613); the encodings are the model's (log entry 27). -/
def Mach.measureBoot (m : Mach) (n : Nv) : Mach :=
  let fuses := [n.serial.toNat, n.imgFloor, n.fwFloor, n.idDigest] ++ n.trans.flatMap (fun t => [t.1, b2n t.2]) ++ n.makers.flatMap (fun t => [t.1, b2n t.2]) ++
    n.owners.flatMap (fun t => [t.1, b2n t.2])
  let m := m.mrExtend 0 (Config.fuseDigest fuses).toNat
  let m := m.mrExtend 4 (sm3 (leBytes 1 (m.fld R.SEC_LC_STATE []) ++ leBytes 1 (m.fld R.SEC_LC_OWNER_SLOT []) ++ leBytes 1 (m.fld R.SEC_LC_DEBUG []) ++
    leBytes 1 (m.fld R.SEC_LC_MARGIN []) ++ leBytes 1 (m.fld R.SEC_LC_DIRECT [])))
  if m.sec.fwRun = 0 then m else m.mrExtend 1 (sm3 (n.bank (m.sec.fwRun - 1)).fwImage)
/-- PARAM of the capabilities 0 to 21 (R46). -/
def capParams : List Nat := [0, 1, 1, 1024, 0, 16384, 8, 0, 64, 32, 50, 2, 16, 0, 0, 2, 0, 4095, 256, 0, 0, 0]
/-- The identity and capability registers (R43 to R46). -/
def Mach.capSync (m : Mach) (n : Nv) : Mach :=
  let m := (m.setFld R.PRT_SERIAL_SERIAL [] n.serial.toNat).setFld R.PRT_CAP_MAP_PRESENT [] (2 ^ capParams.length - 1)
  capParams.zipIdx.foldl (fun m x =>
    m.setFlds [x.2] [(R.PRT_CAP_ENTRY_PARAM, x.1), (R.PRT_CAP_ENTRY_VERSION, 0x0100), (R.PRT_CAP_ENTRY_CAP_ID, x.2), (R.PRT_CAP_ENTRY_PRESENT, 1)]) m

/-! ### The flushed state at a reset (R601) -/

/-- The bank of the newest flush, if one is found. -/
def Nv.flushBank (n : Nv) : Option Nat :=
  match n.bankA.flush, n.bankB.flush with
  | none, none => none
  | some _, none => some 0
  | none, some _ => some 1
  | some a, some b => some (if a.gen < b.gen then 1 else 0)
/-- A field of a register word. -/
def Fld.of (f : Fld) (w : Word) : Nat := bits w.toNat f.hi f.lo
/-- A record with FLAGS.FLUSHED. -/
def flushedRecord (b : List Byte) : List Byte := b.take 56 ++ leBytes 2 (leAt b 56 2 ||| 4) ++ b.drop 58
/-- The flushed records go to the provider log, the registers of the flush are filled, and the metering reaches the provider's copy. -/
def Mach.showFlush (m : Mach) (n : Nv) : Mach :=
  match n.flushBank.bind (fun b => (n.bank b).flush) with
  | none => m
  | some f =>
    let m := f.records.foldl (fun m r => m.placeBytes 0 (leAt r.2 12 1) (flushedRecord r.2)) m
    let m := m.setFlds [] [(R.ERR_FLUSH_VALID, 1), (R.ERR_FLUSH_BANK, n.flushBank.getD 0), (R.ERR_FLUSH_GEN, f.gen), (R.ERR_FLUSH_T_TIME, f.failAt),
      (R.PRT_STATUS_PREV_UNANNOUNCED, b2n f.unannounced)]
    ((List.range 32).map (fun i => i + 1)).foldl (fun m p =>
      let w := Tbl.get 0 f.ckpts p
      let m := m.setFlds [p] [(R.ERR_FLUSH_CKP_VALID, b2n (Fld.of R.CKP_STATUS_VALID w != 0)), (R.ERR_FLUSH_CKP_SLOT, Fld.of R.CKP_STATUS_LAST w),
        (R.ERR_FLUSH_CKP_LAST_STEP, Fld.of R.CKP_STATUS_LAST_STEP w)]
      let m := meterReg.zipIdx.foldl (fun m k => m.setFld k.1 [p] (Tbl.get 0 f.meters (p * 16 + k.2))) m
      m.setFld R.PTN_SNAP_TIME_TIME [p] f.failAt) m

/-! ### Reset (R636) and the release of RESET_N (R637) -/

/-- The hosts' memory, which is no state of the module: no reset of it clears a byte there (R457, R636). -/
def Mach.hostMem (m : Mach) : List Host.Cell := m.mem.filter (fun c => decide (memKey 16 0 ≤ c.1))
/-- The volatile state cleared; the hosts' memory is not the module's, and what has left the module and the count of free values are the
model's own: these stay. -/
def State.cleared (s : State) : Mach :=
  let m := { Mach.init with mem := s.m.hostMem, out := s.m.out, freeCtr := s.m.freeCtr, pwrGood := s.ext.power && !s.ext.tripped }
  if s.m.alertN then m else m.emit (.pin 0 true)
/-- A chart command that a reset or a loss of power cuts short: how far its erase or its commit record came is left open (R216, R218). -/
def State.cutChart (s : State) : State :=
  let k := s.m.free.toNat
  match s.m.conf.chartOp with
  | none => s
  | some x =>
    let s' : State := { s with m := s.m.drew }
    let cut : State := match x.op with
      | 2 => (match s.nv.current x.chart with
        | some c => { s' with nv := s.nv.setSlot (1 - c) x.chart [] [] }
        | none => { s' with nv := s.nv.setSlot 0 x.chart [] [] })
      | 3 => { s' with nv := (s'.chartErased x false).nv }
      | 4 => { s' with nv := (s'.chartReverted x true).nv }
      | _ => s'
    if k % 2 = 0 then s' else cut
/-- RESET_N takes effect. -/
def State.enterReset (s : State) : State :=
  let s := s.cutChart
  { s with m := s.cleared }
/-- The boot begins (R637): graticule time starts at 0, the latched pins, the fuses, the firmware copy and the flush are shown; the phase
is WAIT_POWER while PWRFAIL_N is low, else ROM. The rows that the Porter recorded are repaired permanently (R379). cause: 0 power-on, 1 RESET_N, 2 self-reset. -/
def State.boot (s : State) (cause sel feed smb : Nat) : State :=
  let s := s.enterReset
  let m := s.m.capSync s.nv
  let m := { m with sec := { m.sec with fwRun := (s.nv.fwCopy.map (fun c => c + 1)).getD 0 } }
  let m := m.setFlds [] [(R.PRT_STATUS_PHASE, b2n s.ext.pwrfailN), (R.PRT_STATUS_RESET_CAUSE, cause), (R.PRT_STATUS_FEED_ID, feed), (R.PRT_STATUS_SMB_ADDR, smb),
    (R.PRT_STATUS_REFCLK_OK, 1), (R.PRT_STATUS_CHART, sel)]
  let m := ((m.secSync s.nv).measureBoot s.nv).setWindow R.SEC_CERT_WORD [] 32 s.nv.cert
  let m := ((List.range 32).map (fun i => i + 1)).foldl (fun m p =>
    (m.setWindow R.ATT_CERT_WORD [p] 32 s.nv.cert).setFlds [p] [(R.GZT_PAIRSTAT_OWN_FEED, feed), (R.PTN_PSTATE_STATE, psNone)]) m
  let m := (m.chartSync s.nv).showFlush s.nv
  { s with m := { m with tier := { m.tier with keyGen := 1, keys := [(0, 1)] } },
           nv := { s.nv with rows := [], repaired := s.nv.rows.foldl (fun l k => insertNat k l) s.nv.repaired }, ext := { s.ext with cold := false, chartSel := sel } }
/-- The module resets itself after a life-cycle transition (R618, R636), with the pins as latched. -/
def State.selfReset (s : State) : State :=
  s.boot 2 s.ext.chartSel (s.m.fld R.PRT_STATUS_FEED_ID []) (s.m.fld R.PRT_STATUS_SMB_ADDR [])
/-- The ROM has selected a firmware copy and no transition is pending: SELFTEST may end (R609, R621). -/
def State.romPassed (s : State) : Bool := s.m.sec.fwRun != 0 && s.nv.pendingLc == 0

/-! ### Self-test (R27, R38, R380, R391) and the chart load (R212) -/

/-- The panes of a die take the good slots in ascending order (R27). -/
def Mach.assignSlots (m : Mach) (d : Nat) (bad : List Nat) : Mach :=
  let good := (List.range 52).filter (fun s => !bad.contains s)
  let m := { m with core := { m.core with goodSlots := Tbl.set 0 m.core.goodSlots d ((good.map (fun s => 2 ^ s)).sum) } }
  (List.range 48).foldl (fun m i =>
    let q := d * 48 + i
    m.setFlds [q] [(R.PNE_ID_ISLAND, q), (R.PNE_ID_PANE, q), (R.PNE_ID_DIE, d), (R.PNE_ID_SLOT, (good[i]?).getD 0), (R.PNE_ID_PRESENT, b2n (decide (i < good.length)))]) m
/-- What self-test finds. -/
def Mach.selfTested (m : Mach) (t : SelfTest) : Mach :=
  let m := (List.range 8).foldl (fun m d => m.assignSlots d ((t.badSlots.filter (fun x => x.1.val == d)).map (fun x => x.2.val))) m
  let m := (List.range 512).foldl (fun m g =>
    let pins := ((t.failedPins.filter (fun x => x.1.val == g)).map (fun x => x.2.val)).foldl (fun l k => insertNat k l) []
    let gone := t.absentChannels.any (fun x => x.val == g) || decide (2 < pins.length)
    let st := if gone then 0 else if pins.isEmpty then 1 else 2
    let m := { m with tier := { m.tier with failedPins := Tbl.set 0 m.tier.failedPins g (if gone then 0 else (pins.map (fun k => 2 ^ k)).sum) } }
    m.setFlds [g] [(R.MEM_CHAN_STATE, st), (R.MEM_CHAN_PINS, if gone then 0 else pins.length)]) m
  let wh := (t.withheld.map (fun x => x.val)).foldl (fun l k => insertNat k l) []
  let m := { m with tier := { m.tier with withheld := wh } }
  let m := (List.range 8).foldl (fun m d =>
    let rows := ((t.rowsMapped.filter (fun x => x.1.val == d)).map (fun x => x.2.val)).sum
    m.setFlds [d] [(R.TRN_DIE_SLICES, 256 - (wh.filter (fun s => s / 256 == d)).length), (R.TRN_DIE_SPARE_ROWS, 2048 - rows)]) m
  let m := m.setFld R.PRT_LAYOUT_TRANSOM_MIB [] (4 * (2048 - wh.length))
  let m := t.bridges.foldl (fun m x =>
    m.wiresFound (x.1.val * 2 + b2n x.2.1) (x.2.2.map (fun w => w.val))) m
  (m.slotSync.chanSync).recordSync
/-- The check digest of the factory image under the maker key that signed it. -/
def Nv.factoryDigest (n : Nv) : Nat :=
  let k := ((n.makers.filter (fun k => !k.2)).find? (fun k => digestOf ((n.factory.drop (n.factory.length - 128)).take 32) == k.1)).getD (0, false)
  checkDigest (digestBytes k.1) (n.factory.take (n.factory.length - 128))
/-- The load of R212: the chart that CHART_SEL names, or the factory chart, or nothing. -/
def Mach.bootLoad (m : Mach) (n : Nv) : Mach :=
  let sel := m.fld R.PRT_STATUS_CHART []
  let code : ImgFail := match n.current sel with
    | none => imgFail rcEmpty
    | some b => (m.loadCheck n (n.imageOf b sel) (n.commitOf b sel)).getD (imgFail rcOk)
  let bank := (n.current sel).getD 0
  let m := if code.1 = rcOk then
      (m.install (n.imageOf bank sel) sel bank false (n.imageDigest (n.imageOf bank sel))).loadStatus rcOk 0 (imgFail rcOk)
    else
      match m.factoryCheck n with
      | none => ((m.install n.factory sel 0 true n.factoryDigest).loadStatus code.1 rcOk code).setFlds [] [(R.PRT_STATUS_CFG_FALLBACK, 1), (R.PRT_STATUS_CFG_NONE, 0)]
      | some f => (m.loadStatus code.1 f.1 code).setFlds [] [(R.PRT_STATUS_CFG_FALLBACK, 0), (R.PRT_STATUS_CFG_NONE, 1)]
  m.setFld R.PRT_STATUS_PHASE [] phaseReady

/-! ### Power failure (R599 to R603, R633) -/

/-- The records of a queue that nobody has read, oldest first. -/
def Mach.unread (m : Mach) (o : Nat) : List (Nat × List Byte) :=
  let n := if o = 0 then 1024 else 16
  let ix := if o = 0 then [] else [o]
  let tail := m.fld (if o = 0 then R.ERR_LTAIL_TAIL else R.ERR_QTAIL_TAIL) ix
  let head := m.fld (if o = 0 then R.ERR_LSTAT_HEAD else R.ERR_QSTAT_HEAD) ix
  (List.range (min n ((head + 2 ^ 32 - tail) % 2 ^ 32))).map (fun i =>
    let k := (tail + i) % 2 ^ 32 % n
    (o, if o = 0 then m.window R.ERR_LOG_WORD [k] 8 else m.window R.ERR_QREC_WORD [o, k] 8))
/-- What the flush holds (R600). -/
def Mach.flushOf (m : Mach) (gen : Nat) (unannounced : Bool) : Flush :=
  { gen := gen, failAt := m.now, unannounced := unannounced, records := (List.range 33).flatMap (fun o => m.unread o), meters := m.part.meters,
    txns := (List.range 33).map (fun o => (o, Regs.word m.regs (R.CFG_TXN_STATUS_STATE.addr [o]), (m.part.holds.filter (fun h => h.2 == o)).map (fun h => h.1))),
    ckpts := ((List.range 32).map (fun i => i + 1)).foldl (fun t p => Tbl.set 0 t p (Regs.word m.regs (R.CKP_STATUS_STATE.addr [p]))) [],
    mstate := Regs.word m.regs (R.ERR_MSTATE_STATE.addr []), status := Regs.word m.regs (R.PRT_STATUS_PHASE.addr []) }
/-- A power failure: POWER_FAIL unless FATAL holds, the POWER record with ALERT_N, and the flush, once the firmware runs. -/
def State.powerFail (s : State) (unannounced : Bool) : State :=
  let m := s.m
  let st := m.fld R.ERR_MSTATE_STATE []
  if m.fld R.PRT_STATUS_PHASE [] < 3 ∨ st = 2 ∨ m.errs.flushing.isSome then s
  else
    let m := if st = 0 then m.setFlds [] [(R.ERR_MSTATE_STATE, 2), (R.ERR_MSTATE_CAUSE, ecPower)] else m
    let m := m.place (ErrRec.mk0 sevFatal 0 ecPower (isl 7 0) 0xFF 0)
    let gen := ((s.nv.flushBank.bind (fun b => (s.nv.bank b).flush)).map (fun f => f.gen)).getD 0 + 1
    { s with m := { m with errs := { m.errs with flushing := some (m.flushOf gen unannounced) } } }
/-- The commit record of the flush is written, in the bank that does not hold the newest one; a RESET_N that waited for it takes effect
(R600, R603, R636). -/
def State.flushCommit (s : State) : State :=
  match s.m.errs.flushing with
  | none => s
  | some f =>
    let b := match s.nv.flushBank with
      | some k => 1 - k
      | none => 0
    let s : State := { s with nv := s.nv.setBank b { s.nv.bank b with flush := some f }, m := { s.m with errs := { s.m.errs with flushing := none } } }
    if s.ext.resetN then s else s.enterReset

end Sys2Proof.Machine
end

