-- ==== Sys2Proof/Machine/Lintel.lean ====
section
/-! DEFINITION. The instructions of the Lintel streams, the end of their waits, and launches (R143 to R155). -/

namespace Sys2Proof.Machine

/-- SCALAR_INTEGER (R149, R150). -/
def execScalarInteger (pane : PaneId) (st : StreamId) (op : IntOp) (imm : Bool) (s : State) : Res :=
  s.withM (s.m.insnRegs pane st.num 0 (fmtOfImm imm) (fun x w => x.setS (inRd w) (intOp op (x.sreg (inRs1 w)) (src2 imm x w))))

/-- SCALAR_FP32 (R149, R150): an RR instruction on the low 32 bits; FMA adds rd. -/
def execScalarFp32 (pane : PaneId) (st : StreamId) (op : FpOp) (s : State) : Res :=
  s.withM (s.m.insnRegs pane st.num 1 .rr (fun x w => x.setS (inRd w) (fpOp op (x.sreg (inRs1 w)) (x.sreg (inRs2 w)) (x.sreg (inRd w)))))

/-- ADDRESS (R149): rd an address register but for a move to a scalar register; the operand is s[rs1] or imm, a move to a
scalar reads a[rs1], an add or a field move starts from a[rs1]. -/
def execAddress (pane : PaneId) (st : StreamId) (op : AddrOp) (imm : Bool) (s : State) : Res :=
  s.withM (s.m.insnRegs pane st.num 2 (fmtOfImm imm) (fun x w =>
    match op with
    | .toScalar => x.setS (inRd w) (x.areg (inRs1 w))
    | .ofScalar => x.setA (inRd w) (if imm then immWord w else x.sreg (inRs1 w))
    | .add | .setSpace | .setRoute | .setOffset => x.setA (inRd w) (addrOp op (x.areg (inRs1 w)) (src2 imm x w))))

/-- PREDICATE (R149): a compare of scalars into p, or logic on predicates; in form RI the second predicate is imm, true where it is not 0
(log entry 63). -/
def execPredicate (pane : PaneId) (st : StreamId) (op : PredOp) (imm : Bool) (s : State) : Res :=
  s.withM (s.m.insnRegs pane st.num 3 (fmtOfImm imm) (fun x w =>
    x.setP (inRd w) (if predIsCmp op then predCmp op (x.sreg (inRs1 w)) (src2 imm x w)
                     else predLogic op (x.preg (inRs1 w)) (if imm then inImm w != 0 else x.preg (inRs2 w)))))

/-- LOAD (R151). -/
def execLoad (pane : PaneId) (st : StreamId) (s : State) : Res :=
  let n := st.num
  s.withM (s.m.insn pane n 4 .mem 11 (fun m w =>
    let x := m.stream pane n
    match memAddr cLoadRange (x.areg (inMemA w)) (inMemOff w) with
    | .error c => m.exceptionFree pane n c
    | .ok o => (m.setStream pane n (x.setS (inRd w) (BitVec.ofNat 64 (m.loadLe (paneKey pane o) 8)))).retire pane n w (m.pc pane n + 1)))

/-- STORE (R151). -/
def execStore (pane : PaneId) (st : StreamId) (s : State) : Res :=
  let n := st.num
  s.withM (s.m.insn pane n 4 .mem 11 (fun m w =>
    let x := m.stream pane n
    match memAddr cStoreRange (x.areg (inMemA w)) (inMemOff w) with
    | .error c => m.exceptionFree pane n c
    | .ok o => (m.storeLe (paneKey pane o) 8 (x.sreg (inRd w)).toNat).retire pane n w (m.pc pane n + 1)))

/-- The target of a branch (R149): relative to the branch itself, in the 14 bits of PC; a target beyond the code store wraps, the model's choice (log entry 59). -/
def branchTarget (pc : Nat) (w : InsnWord) : Nat := wrapInt 14 ((pc : Int) + inBrOff w)

/-- BRANCH (R149). -/
def execBranch (pane : PaneId) (st : StreamId) (s : State) : Res :=
  let n := st.num
  s.withM (s.m.insn pane n 5 .br 8 (fun m w =>
    let t := branchTarget (m.pc pane n) w
    (m.traceInsn pane n 8 0 t).retire pane n w t))

/-- CALL (R149): the return address is kept by the stream (log entry 7). -/
def execCall (pane : PaneId) (st : StreamId) (s : State) : Res :=
  let n := st.num
  s.withM (s.m.insn pane n 5 .br 8 (fun m w =>
    let t := branchTarget (m.pc pane n) w
    let x := m.stream pane n
    ((m.setStream pane n { x with calls := (m.pc pane n + 1) % 2 ^ 14 :: x.calls }).traceInsn pane n 8 0 t).retire pane n w t))

/-- RETURN (R149): to the instruction after the matching call; a free PC where there is none (log entry 7). -/
def execRet (pane : PaneId) (st : StreamId) (s : State) : Res :=
  let n := st.num
  s.withM (s.m.insn pane n 5 .br 8 (fun m w =>
    let x := m.stream pane n
    match x.calls with
    | t :: l => ((m.setStream pane n { x with calls := l }).traceInsn pane n 8 0 t).retire pane n w t
    | [] =>
      let t := (Config.openResult 4 (BitVec.ofNat 64 (m.pc pane n)) 0).toNat % 2 ^ 14
      (m.traceInsn pane n 8 0 t).retire pane n w t))

/-- CMD (R152, R158, R162). -/
def execCmd (pane : PaneId) (st : StreamId) (s : State) : Res :=
  s.withM (s.m.insn pane st.num 6 .c 1 (fun m w => m.cmdIssue pane st.num 0 w))

/-- WAITT (R152, R155). -/
def execWaitt (pane : PaneId) (st : StreamId) (s : State) : Res :=
  s.withM (s.m.insn pane st.num 6 .ri 9 (fun m w => m.waitToken pane st.num w))

/-- SIGT (R152): a count of 255 stays (R164). -/
def execSigt (pane : PaneId) (st : StreamId) (s : State) : Res :=
  let n := st.num
  s.withM (s.m.insn pane n 6 .ri 9 (fun m w => m.tokenInsn pane n w (fun t =>
    let m := m.setPane pane ((m.pane pane).signal t)
    (m.traceInsn pane n 9 t ((m.pane pane).token t).count).retire pane n w (m.pc pane n + 1))))

/-- CLRT (R152). -/
def execClrt (pane : PaneId) (st : StreamId) (s : State) : Res :=
  let n := st.num
  s.withM (s.m.insn pane n 6 .ri 9 (fun m w => m.tokenInsn pane n w (fun t =>
    let m := m.setPane pane ((m.pane pane).setToken t ⟨0, false⟩)
    (m.traceInsn pane n 9 t 0).retire pane n w (m.pc pane n + 1))))

/-- FENCE (R152). -/
def execFence (pane : PaneId) (st : StreamId) (s : State) : Res :=
  s.withM (s.m.insn pane st.num 6 .ri 10 (fun m w => m.fenceInsn pane st.num w))

/-- HALT (R155): the stream goes to IDLE with its PC where it is. -/
def execHalt (pane : PaneId) (st : StreamId) (s : State) : Res :=
  let n := st.num
  s.withM (s.m.insn pane n 7 .ri 6 (fun m w => (m.traceInsn pane n 11 0 w.toNat).setSstate pane n ssIdle))

/-- YIELD (R149): the stream gives up its issue turn, which changes no state (R153; log entry 15). -/
def execYield (pane : PaneId) (st : StreamId) (s : State) : Res :=
  s.withM (s.m.insnRegs pane st.num 7 .ri (fun x _ => x))

/-- TRAP (R166): imm goes to PNE_EXC.INFO. -/
def execTrap (pane : PaneId) (st : StreamId) (s : State) : Res :=
  s.withM (s.m.insn pane st.num 7 .ri 7 (fun m w => m.exception pane st.num cTrap (wrapInt 24 (inImm w))))

/-- READ_GRT (R149, R182). -/
def execReadGrt (pane : PaneId) (st : StreamId) (s : State) : Res :=
  let t := s.m.now
  s.withM (s.m.insnRegs pane st.num 7 .ri (fun x w => x.setS (inRd w) (BitVec.ofNat 64 t)))

/-- ILLEGAL_INSN (R145, R166): the core meets a reserved opcode or func, or a fetch beyond the code. -/
def execIllegalInsn (pane : PaneId) (st : StreamId) (s : State) : Res :=
  let n := st.num
  s.withM (if s.m.sstate pane n ≠ ssRun ∨ !s.m.mayIssue pane ∨ s.m.insnBlocks pane n 7 then s.m
           else s.m.exceptionFree pane n cIllegal)

/-- STREAM_WAIT_CLEARED (R155, R183). -/
def execStreamWaitCleared (pane : PaneId) (st : StreamId) (s : State) : Res := s.withM (s.m.waitCleared pane st.num)

/-- A launch on its way to a stage reaches one pane (R161, R465): it needs its partition to start commands there (R488,
R226); a pane that refuses it traces a failure (R521); the last pane ends it with its record, STREAM_BUSY where one refused it (R166, R470). -/
def Mach.launchDelivered (m : Mach) (pane n : Nat) : Mach :=
  match m.part.launches.find? (fun l => l.left.contains pane && l.desc.stream == n && m.mayStart l.part pane) with
  | none => m
  | some l =>
    let (m, ok) := m.launchStream pane n l.desc
    let m := if ok then m else m.trace l.part pane 4 (n + 4 * 3 + 32) (m.pc pane n) l.desc.layer l.desc.opId cStreamBusy l.desc.sealNo l.desc.step 0
    let l' := { l with left := eraseNat pane l.left, busy := l.busy || !ok }
    let m := m.stepUsed l.part l.desc.step
    if l'.left.isEmpty then
      let m := { m with part := { m.part with launches := m.part.launches.filter (fun x => x != l) } }
      match l.src with
      | .hatch p h ep => m.hatchComplete p h ep l.desc (if l'.busy then cStreamBusy else cOk) 0xFFFF false
      | .core _ _ => m
    else { m with part := { m.part with launches := m.part.launches.map (fun x => if x = l then l' else x) } }

/-- LAUNCH (R155, R161). -/
def execLaunch (pane : PaneId) (st : StreamId) (s : State) : Res := s.withM (s.m.launchDelivered pane st.num)

end Sys2Proof.Machine
end

