-- ==== Sys2Proof/Machine/CkptOps.lean ====
section
/-! DEFINITION. Hardware checkpoints (R579 to R587): what one holds, where it lies, the copy, the drain, RESTORE, rollback; BULK messages of slots (R418, R582). -/

namespace Sys2Proof.Machine

/-- States and codes of CKP_STATUS. -/
def ckIdle : Nat := 0
def ckCopying : Nat := 1
def ckDraining : Nat := 2
def ckRestoring : Nat := 3
def ckNoRoom : Nat := 1
def ckPoison : Nat := 2
def ckDestError : Nat := 3
def ckBadSlot : Nat := 4
/-- STATE of a partition's checkpoints, read and written. -/
def Mach.ckState (m : Mach) (p : Nat) : Nat := m.fld R.CKP_STATUS_STATE [p]
def Mach.setCkState (m : Mach) (p st code : Nat) : Mach := m.setFlds [p] [(R.CKP_STATUS_STATE, st), (R.CKP_STATUS_CODE, code)]
/-- A CHECKPOINT record (R562, R581, R584). -/
def Mach.ckRecord (m : Mach) (p step code : Nat) : Mach :=
  m.place { ErrRec.mk0 sevDeferred p ecCheckpoint 0xFFFF code 0 with step := step }

/-! ### Content (R579; the order of the body is the model's, log entry 23) -/

/-- Key of a byte that an export has fetched from another module: the model's own. -/
def exportKey (p off : Nat) : Nat := memKey 5 (p * 2 ^ 48 + off)
/-- A place in a partition's address spaces: SPACE (8 is host memory, 9 what an export has fetched) and an offset of any size. -/
abbrev Spot := Nat × Nat
/-- A place moved on. -/
def onward (w : Spot) (n : Nat) : Spot := (w.1, w.2 + n)
/-- The pieces of n bytes at a place. -/
def Mach.spotSegs (m : Mach) (p : Nat) (write : Bool) (w : Spot) (n : Nat) : Option (List (Nat × Nat)) :=
  if w.1 = 8 then some [(m.partHostKey p w.2, n)] else if w.1 = 9 then some [(exportKey p w.2, n)] else m.segs p none write (mkAddr w.1 w.2) n
/-- n bytes at a place; zeros where it has no translation. -/
def Mach.spotLoad (m : Mach) (p : Nat) (w : Spot) (n : Nat) : List Byte :=
  match m.spotSegs p false w n with
  | some l => m.readSegs l
  | none => List.replicate n 0
/-- Bytes written at a place. -/
def Mach.spotStore (m : Mach) (p : Nat) (w : Spot) (bs : List Byte) : Mach :=
  match m.spotSegs p true w bs.length with
  | some l => ((chunksOf l bs false).foldl (fun m c => m.putChunk c) m).traffic p true l
  | none => m

/-- Intervals less one interval. -/
def cutOut (l : List (Nat × Nat)) (a b : Nat) : List (Nat × Nat) :=
  l.flatMap (fun x => (if x.1 < min x.2 a then [(x.1, min x.2 a)] else []) ++ (if max x.1 b < x.2 then [(max x.1 b, x.2)] else []))
/-- The Transom space of a partition, less its conduit queue regions and its capture area. -/
def Mach.ckTransom (m : Mach) (p : Nat) : List (Spot × Nat) :=
  let n := (m.tier.slices.filter (fun e => e.1 / 4096 == p)).length * 2 ^ 22
  let qs := (m.conf.cfg.conduit.filter (fun e => leAt e 1 1 == p)).map (fun e => (leAt e 12 4 * 2 ^ 20, (leAt e 12 4 + leAt e 10 2) * 2 ^ 20))
  let cap := m.fld R.SHT_PDEST_CAP_BASE [p] * 2 ^ 16
  let l := (qs ++ [(cap, cap + m.fld R.SHT_PDEST_CAP_MIB [p] * 2 ^ 20)]).foldl (fun l (q : Nat × Nat) => cutOut l q.1 q.2) [(0, n)]
  l.map (fun (x : Nat × Nat) => ((1, x.1), x.2 - x.1))
/-- The arrays of an update table: planes, gradients, moments. -/
def ckArrays (t : List (List Byte)) : List (Spot × Nat) :=
  t.flatMap (fun e =>
    let n := ueCount e
    [((2, ueW e), 2 * n), ((2, ueLo e), 2 * n), ((2, ueG e), 4 * n), ((2, ueM e), 4 * n)] ++
    (if ueRule e = 0 then [] else [((2, ueM2 e), 4 * n)]))
/-- Ranges with their offsets in the body from o, each at a multiple of 64. -/
def laidOut : List (Spot × Nat) → Nat → List (Nat × Spot × Nat)
  | [], _ => []
  | (w, n) :: l, o => (o, w, n) :: laidOut l (o + roundUp n 64)
/-- The bytes that ranges take. -/
def laidBytes (l : List (Spot × Nat)) : Nat := (l.map (fun x => roundUp x.2 64)).sum
/-- The registers of the body, and the state of steps, layers and point-to-point counts that the module keeps beside them. -/
def Mach.ckTail (m : Mach) (p : Nat) : List Byte :=
  let w := m.train p
  let c := m.coll p
  let g := ((m.tstep p (stepAdd (m.tclosed p) 1)).map (fun t => t.gexp)).getD (m.fld R.COL_TSCALE_GEXP [p])
  let pairs (t : Tbl Nat) : List Byte := leBytes 4 t.length ++ t.flatMap (fun e => leBytes 4 e.1 ++ leBytes 4 e.2)
  leBytes 4 (m.tclosed p) ++ leBytes 8 (Regs.word m.regs (R.COL_TSCALE_GEXP.addr [p])).toNat ++ leBytes 4 (m.fld R.COL_CSTAT_NEXT [p]) ++
  (List.range 5).flatMap (fun a => leBytes 4 (Tbl.get 0 c.counts a)) ++ leBytes 4 g ++ leBytes 4 w.layers.length ++
  w.layers.flatMap (fun e => leBytes 4 e.1 ++ leBytes 2 (b2n e.2.applied) ++ leBytes 2 e.2.k ++ leBytes 4 e.2.ratio ++ leBytes 4 e.2.wnorm ++ leBytes 4 e.2.gnorm) ++
  pairs c.sends ++ pairs c.recvs
/-- The ranges of a checkpoint of a window. -/
def Mach.ckRanges (m : Mach) (p : Nat) : List (Spot × Nat) := m.ckTransom p ++ ckArrays (m.train p).table
/-- BYTES of the body. -/
def Mach.ckBytes (m : Mach) (p : Nat) : Nat := laidBytes (m.ckRanges p) + (m.ckTail p).length

/-! ### Places (R582, R583) -/

/-- The shadow, a slot of this module, and a slot kept for another module. -/
def Mach.ckShadow (m : Mach) (p : Nat) : Spot := (2, m.fld R.CKP_SHADOW_BASE [p] * 2 ^ 21)
def Mach.ckSlot (m : Mach) (p k : Nat) : Spot :=
  (if m.fld R.CKP_CTL_DEST [p] = 1 then 8 else 3, m.fld R.CKP_DEST_ADDR [p] * 4096 + k * m.fld R.CKP_DESTLEN_SLOT_MIB [p] * 2 ^ 20)
def Mach.ckKept (m : Mach) (p k : Nat) : Spot :=
  (3, m.fld R.CKP_RECV_BASE [p] * 2 ^ 21 + k * m.fld R.CKP_DESTLEN_SLOT_MIB [p] * 2 ^ 20)
/-- n bytes at an address moved to another, metered; whether they carried poison. -/
def Mach.ckMove (m : Mach) (p : Nat) (a b : Spot) (n : Nat) : Mach × Bool :=
  match m.spotSegs p false a n, m.spotSegs p true b n with
  | some l, some l' => (((m.move l l').traffic p false l).traffic p true l', m.segsPoisoned l)
  | _, _ => (m, false)
/-- Ranges copied to their places in a body at an address, or back from them; whether poison was read. -/
def Mach.ckCopy (m : Mach) (p : Nat) (l : List (Nat × Spot × Nat)) (body : Spot) (back : Bool) : Mach × Bool :=
  l.foldl (fun (a : Mach × Bool) x =>
    let r := if back then a.1.ckMove p (onward body x.1) x.2.1 x.2.2 else a.1.ckMove p x.2.1 (onward body x.1) x.2.2
    (r.1, a.2 || r.2)) (m, false)
/-- ASCII SHBCHKPT. -/
def ckMagic : List Byte := [0x53, 0x48, 0x42, 0x43, 0x48, 0x4B, 0x50, 0x54]
/-- The SM3 digest of n bytes at an address. -/
def Mach.ckDigest (m : Mach) (p : Nat) (w : Spot) (n : Nat) : Nat := (Config.sm3 (m.spotLoad p w n)).toNat
/-- The header of a slot (R583). -/
def ckHeader (step entries n digest done : Nat) : List Byte :=
  ckMagic ++ leBytes 4 step ++ leBytes 4 entries ++ leBytes 8 n ++ leBytes 32 digest ++ leBytes 8 done
/-- Whether a slot at an address is valid for a partition (R583, R587): its STEP if so. -/
def Mach.ckValid (m : Mach) (p : Nat) (w : Spot) : Option Nat :=
  let h := m.spotLoad p w 64
  let n := leAt h 16 8
  if h.take 8 == ckMagic && leAt h 56 8 != 0 && leAt h 12 4 == m.fld R.COL_TTABLE_UPD_ENTRIES [p] && leAt h 24 32 == m.ckDigest p (onward w 64) n
  then some (leAt h 8 4) else none

/-! ### Export (R320 to R322) -/

/-- The arrays that a mode writes, among those that a checkpoint holds of an entry: offset in the body, bytes. -/
def exportArrays (mode : Nat) (e : List Byte) (o : Nat) : List (Nat × Nat) :=
  let n := ueCount e
  let hi := (o, 2 * n)
  let lo := (o + roundUp (2 * n) 64, 2 * n)
  let m1 := (o + 2 * roundUp (2 * n) 64 + roundUp (4 * n) 64, 4 * n)
  let m2 := (m1.1 + roundUp (4 * n) 64, 4 * n)
  if mode = 0 then [hi] else if mode = 1 then [hi, lo] else if ueRule e = 0 then [hi, lo, m1] else [hi, lo, m1, m2]
/-- The bytes that a checkpoint holds of an entry. -/
def entryBytes (e : List Byte) : Nat := laidBytes (ckArrays [e])
/-- Entries with the offset of their arrays in a checkpoint body, from o. -/
def entryOffsets : List (List Byte) → Nat → List (List Byte × Nat)
  | [], _ => []
  | e :: l, o => (e, o) :: entryOffsets l (o + entryBytes e)
/-- An export is RUNNING. -/
def Mach.exporting (m : Mach) (p : Nat) : Bool := m.fld R.COL_TEXPORT_STATUS_STATE [p] == 1
/-- An export ends in a state, with its event vector (R472). -/
def Mach.exportEnd (m : Mach) (p st n : Nat) : Mach :=
  ((m.zero (exportKey p 0) (2 ^ 48)).setFlds [p] [(R.COL_TEXPORT_STATUS_STATE, st), (R.COL_TEXPORT_STATUS_BYTES, n)]).vfVector p 6
/-- ASCII SHBEXPRT. -/
def exMagic : List Byte := [0x53, 0x48, 0x42, 0x45, 0x58, 0x50, 0x52, 0x54]
/-- All that an export reads is at hand. -/
def Mach.exportRead (m : Mach) (p : Nat) : Bool :=
  let x := m.ckpt p
  m.fld R.CKP_CTL_DEST [p] != 2 || (x.expTotal != 0 && decide (x.expTotal ≤ x.expGot + 1))
/-- Header, manifest and the arrays of the first k entries written, with the bytes they take (R321). -/
def Mach.exportWrite (m : Mach) (p k : Nat) : Mach × Nat :=
  let src : Spot := if m.fld R.CKP_CTL_DEST [p] = 2 then (9, 0) else m.ckSlot p (m.ckpt p).expSlot
  let mode := m.fld R.COL_TEXPORT_STATUS_MODE [p]
  let t := (m.train p).table
  let es := entryOffsets t (laidBytes (m.ckTransom p))
  let dst := m.partHostKey p (m.fld R.COL_TEXPORT_ADDR_ADDR [p] * 4096)
  let arrs := es.map (fun x => (x.1, exportArrays mode x.1 x.2))
  let size (l : List (Nat × Nat)) : Nat := (l.map (fun y => roundUp y.2 64)).sum
  let total := 64 + 64 * t.length + (arrs.map (fun x => size x.2)).sum
  let hd := exMagic ++ leBytes 4 (m.ckpt p).expStep ++ leBytes 1 mode ++ leBytes 3 0 ++ leBytes 4 t.length ++ leBytes 8 total ++ leBytes 36 0
  let m := m.store dst hd
  let m := (arrs.zipIdx.foldl (fun (a : Mach × Nat) x =>
    let e := x.1.1
    (a.1.store (dst + 64 + 64 * x.2) (leBytes 2 (ueLayer e) ++ leBytes 1 (ueRule e) ++ leBytes 1 0 ++ leBytes 4 (ueCount e) ++ leBytes 8 a.2 ++ leBytes 48 0),
     a.2 + size x.1.2)) (m, 64 + 64 * t.length)).1
  let r := (arrs.take k).foldl (fun (a : Mach × Nat) x =>
    x.2.foldl (fun (b : Mach × Nat) y =>
      let m := match b.1.spotSegs p false (onward src (64 + y.1)) y.2 with
        | some l => (b.1.zero (dst + b.2) (roundUp y.2 64)).move l [(dst + b.2, y.2)]
        | none => b.1
      (m, b.2 + roundUp y.2 64)) a) (m, 64 + 64 * t.length)
  (r.1.meter p mHost r.2, r.2)
/-- An export is cut short and ends in a state: how much of it has been written by then is left open, to whole arrays of an entry (log entry 69). -/
def Mach.exportStop (m : Mach) (p st : Nat) : Mach :=
  let k := m.free.toNat % ((m.train p).table.length + 2)
  let m := m.drew
  let r := if k = 0 ∨ !m.exportRead p then (m, 0) else m.exportWrite p (k - 1)
  r.1.exportEnd p st r.2
/-- An export that reads a slot about to be written ends OVERTAKEN (R322). -/
def Mach.overtake (m : Mach) (p k : Nat) : Mach := if m.exporting p ∧ (m.ckpt p).expSlot = k then m.exportStop p 3 else m

/-! ### Taking a checkpoint (R580, R581) -/

/-- An array of the update table holds poison. -/
def Mach.ckPoisoned (m : Mach) (p : Nat) : Bool :=
  (ckArrays (m.train p).table).any (fun x => ((m.spotSegs p false x.1 x.2).map (fun l => m.segsPoisoned l)).getD false)
/-- Whether a checkpoint is due at the boundary of a step (R580, R589). -/
def Mach.ckWanted (m : Mach) (p c : Nat) : Bool :=
  let k := m.fld R.CKP_CTL_INTERVAL [p]
  let named := (m.hier p).named
  (m.hierRole p != 2 && k != 0 && (m.stepsFrom p c + 1) % k == 0) || (m.ckpt p).nowReq || (named != 0 && stepLe (named - 1) c)
/-- Room for the shadow and both slots. -/
def Mach.ckRoom (m : Mach) (p : Nat) : Bool :=
  let n := m.ckBytes p + 64
  decide (n ≤ m.fld R.CKP_SHADOW_PAGES [p] * 2 ^ 21) && decide (n ≤ m.fld R.CKP_DESTLEN_SLOT_MIB [p] * 2 ^ 20)
/-- The checkpoint that is due at the boundary of step c begins: the partition is held; one that a mark or poison keeps back stays
asked for. -/
def Mach.ckBegin (m : Mach) (p c : Nat) (marked : Bool) : Mach :=
  if m.tstate p = tsStopped ∨ !m.ckWanted p c ∨ m.ckState p ≠ ckIdle then m
  else if marked || m.ckPoisoned p then m.setCkpt p { m.ckpt p with nowReq := true }
  else
    let m := (m.setCkpt p { m.ckpt p with nowReq := false, step := c }).setHier p { m.hier p with named := 0 }
    if !m.ckRoom p then m.setFld R.CKP_STATUS_CODE [p] ckNoRoom
    else (m.setCkState p ckCopying 0).hold p hdCkpt
/-- Slot (L + 1) mod 2. -/
def Mach.ckNext (m : Mach) (p : Nat) : Nat := (m.fld R.CKP_STATUS_LAST [p] + 1) % 2
/-- VALID with bit k replaced. -/
def Mach.ckSetValid (m : Mach) (p k : Nat) (v : Bool) : Mach :=
  let b := m.fld R.CKP_STATUS_VALID [p]
  m.setFld R.CKP_STATUS_VALID [p] (b - (b2n (bitAt b k)) * 2 ^ k + b2n v * 2 ^ k)
/-- A slot number. -/
def fin2 (k : Nat) : Fin 2 := if k = 0 then 0 else 1
/-- The body of a checkpoint message of BULK. -/
def bulkBytes : BulkBody → List Byte
  | .part k o bs => leBytes 1 1 ++ leBytes 1 k.val ++ leBytes 6 o.toNat ++ bs
  | .fetch w b k s => leBytes 1 2 ++ leBytes 1 k.val ++ leBytes 1 (b2n b) ++ leBytes 2 w.toNat ++ leBytes 4 s.toNat
  | .reply o n bs => leBytes 1 3 ++ leBytes 1 0 ++ leBytes 6 o.toNat ++ leBytes 6 n.toNat ++ bs
/-- A BULK message of checkpoints to a module. -/
def Mach.bulkSend (m : Mach) (p dst : Nat) (b : BulkBody) (ps : Bool) : Mach := m.trySend dst (m.jobOf p) 0x38 0xC5000000 (bulkBytes b) ps
/-- Bytes of one message. -/
def bulkMax : Nat := 2 ^ 25
/-- n bytes at an address sent piece by piece, in order. -/
def Mach.bulkRange (m : Mach) (p dst : Nat) (w : Spot) (n : Nat) (f : Nat → List Byte → BulkBody) : Mach :=
  (List.range (ceilDiv n bulkMax)).foldl (fun m i =>
    let len := min bulkMax (n - i * bulkMax)
    let ps := ((m.spotSegs p false (onward w (i * bulkMax)) len).map (fun l => m.segsPoisoned l)).getD false
    m.bulkSend p dst (f (i * bulkMax) (m.spotLoad p (onward w (i * bulkMax)) len)) ps) m
/-- CHECKPOINT_COPY_DONE (R581, R582): the shadow holds checkpoint c and its drain begins, or poison leaves it invalid. -/
def Mach.ckCopied (m : Mach) (p : Nat) : Mach :=
  if m.ckState p ≠ ckCopying ∨ m.anyStarted p ∨ !m.running ∨ m.shut p then m
  else
    let c := (m.ckpt p).step
    let rs := m.ckRanges p
    let tail := m.ckTail p
    let n := laidBytes rs + tail.length
    let sh := m.ckShadow p
    let r := m.ckCopy p (laidOut rs 0) (onward sh 64) false
    if r.2 then (((r.1.setFld R.CKP_STATUS_SHADOW [p] 0).setCkState p ckIdle ckPoison).ckRecord p c ckPoison).unhold p hdCkpt
    else
      let m := r.1.spotStore p (onward sh (64 + laidBytes rs)) tail
      let m := m.spotStore p sh (ckHeader c (m.train p).table.length n (m.ckDigest p (onward sh 64) n) 0)
      let k := m.ckNext p
      let m := m.overtake p k
      let m := (m.ckSetValid p k false).setFld R.CKP_STATUS_SHADOW [p] 1
      let h := m.hier p
      let m := m.setHier p { h with verdicts := h.verdicts.filter (fun v => !stepLe v.1 c), releases := h.releases.filter (fun s => !stepLe s c) }
      let m := (m.setCkpt p { m.ckpt p with shadowStep := c }).setCkState p ckDraining 0
      let m := if m.fld R.CKP_CTL_DEST [p] = 2 then m.bulkSend p (m.fld R.CKP_CTL_BUDDY [p]) (.part (fin2 k) 0 (leBytes 64 0)) false
               else m.spotStore p (onward (m.ckSlot p k) 56) (leBytes 8 0)
      m.unhold p hdCkpt
/-- The checkpoint slots are in host memory, and the host port is down (R476). -/
def Mach.ckAway (m : Mach) (p : Nat) : Bool := m.fld R.CKP_CTL_DEST [p] == 1 && !m.portUp p
/-- CHECKPOINT_DRAIN_DONE (R582 to R584): good says that the destination took the bytes. -/
def Mach.ckDrained (m : Mach) (p : Nat) (good : Bool) : Mach :=
  if m.ckState p ≠ ckDraining ∨ !m.running ∨ m.shut p ∨ (good && m.ckAway p) then m
  else
    let c := (m.ckpt p).step
    let k := m.ckNext p
    let sh := m.ckShadow p
    let h := m.spotLoad p sh 64
    let n := leAt h 16 8
    let hd := h.take 56 ++ leBytes 8 m.now
    let dest := m.fld R.CKP_CTL_DEST [p]
    let there := decide (dest = 2) || (m.spotSegs p true (m.ckSlot p k) (64 + n)).isSome
    let buddy := m.fld R.CKP_CTL_BUDDY [p]
    if !good ∨ !there ∨ (dest = 2 ∧ (m.routeLink buddy m.moduleId (m.jobOf p) 0xC5000000).isNone) then
      (m.setCkState p ckIdle ckDestError).ckRecord p c ckDestError
    else
      let m := if dest = 2 then
                 (m.bulkRange p buddy (onward sh 64) n (fun o bs => .part (fin2 k) (BitVec.ofNat 48 (64 + o)) bs)).bulkSend p buddy
                   (.part (fin2 k) 0 hd) false
               else ((m.ckMove p (onward sh 64) (onward (m.ckSlot p k) 64) n).1).spotStore p (m.ckSlot p k) hd
      let m := (m.ckSetValid p k true).setFlds [p] [(R.CKP_STATUS_LAST, k), (R.CKP_STATUS_LAST_STEP, c)]
      let x := m.ckpt p
      (m.setCkpt p { x with slots := Tbl.set 0 x.slots k (c + 1) }).setCkState p ckIdle 0

/-! ### Restoring (R569, R585, R587) -/

/-- A list of pairs of numbers as ckTail writes it, from byte o. -/
def ckPairs (bs : List Byte) (o : Nat) : Tbl Nat :=
  (List.range (leAt bs o 4)).foldl (fun t i => Tbl.set 0 t (leAt bs (o + 4 + 8 * i) 4) (leAt bs (o + 8 + 8 * i) 4)) []
/-- The registers and what the module keeps beside them, from the end of a body; answers the exponent of the next step. -/
def Mach.ckUntail (m : Mach) (p : Nat) (bs : List Byte) : Mach × Nat :=
  let m := { m with regs := Regs.setWord m.regs (R.COL_TSCALE_GEXP.addr [p]) (BitVec.ofNat 64 (leAt bs 4 8)) }
  let m := m.setFlds [p] [(R.COL_TSTATE_CLOSED, leAt bs 0 4), (R.COL_CSTAT_NEXT, leAt bs 12 4)]
  let nl := leAt bs 40 4
  let layers := (List.range nl).foldl (fun t i =>
    let o := 44 + 20 * i
    Tbl.set LayerSt.init t (leAt bs o 4) { applied := leAt bs (o + 4) 2 == 1, k := leAt bs (o + 6) 2, ratio := leAt bs (o + 8) 4, wnorm := leAt bs (o + 12) 4, gnorm := leAt bs (o + 16) 4 }) []
  let o := 44 + 20 * nl
  let c := m.coll p
  let counts := (List.range 5).foldl (fun t a => Tbl.set 0 t a (leAt bs (16 + 4 * a) 4)) []
  let m := m.setColl p { c with counts := counts, sends := ckPairs bs o, recvs := ckPairs bs (o + 4 + 8 * leAt bs o 4) }
  (m.setTrain p { m.train p with layers := layers }, leAt bs 36 4)
/-- The content of R579 restored from a slot or shadow at an address: the exponent of the next step, and whether poison was read. A
window that is STOPPED takes the update table as it stands in the restored Transom. -/
def Mach.ckRestore (m : Mach) (p : Nat) (w : Spot) : Mach × Nat × Bool :=
  let tr := m.ckTransom p
  let body := onward w 64
  let a := m.ckCopy p (laidOut tr 0) body true
  let t := if a.1.tstate p = tsStopped then a.1.readTable p else (a.1.train p).table
  let b := a.1.ckCopy p (laidOut (ckArrays t) (laidBytes tr)) body true
  let o := laidBytes tr + laidBytes (ckArrays t)
  let n := leAt (b.1.spotLoad p w 64) 16 8
  let r := b.1.ckUntail p (b.1.spotLoad p (onward body o) (n - o))
  (r.1, r.2, a.2 || b.2)
/-- A poisoned line read by a restore (R569): a rollback's restore is an action of a handler, RESTORE and a spare's restore are not. -/
def Mach.ckHurt (m : Mach) (p : Nat) (handler : Bool) : Mach := m.containedBy handler p ecPoison 0xFFFF 0 0 1
/-- A slot kept on another module is asked for: the slot k, or the one that holds a step. -/
def Mach.ckAsk (m : Mach) (p owner buddy why : Nat) (byStep : Bool) (k step : Nat) : Mach :=
  let m := if m.exporting p && !m.exportRead p then m.exportStop p 4 else m
  let m := ((m.setFld R.CKP_STATUS_SHADOW [p] 0).setCkpt p { m.ckpt p with why := why, total := 0, got := 0 }).setCkState p ckRestoring 0
  m.bulkSend p buddy (.fetch (BitVec.ofNat 16 owner) byStep (fin2 k) (BitVec.ofNat 32 step)) false
/-- RESTORE from an address into a stopped window (R587). -/
def Mach.ckRestoreAt (m : Mach) (p : Nat) (w : Spot) : Mach :=
  match m.ckValid p w with
  | none => m.setCkState p ckIdle ckBadSlot
  | some _ =>
    let r := m.ckRestore p w
    let m := r.1.setCkState p ckIdle 0
    if r.2.2 then m.ckHurt p false else m
/-- CHECKPOINT_RESTORE (R587). A slot in host memory that no read reaches, its port being down, is no valid one (log entry 96). -/
def Mach.ckRestoreCmd (m : Mach) (p k : Nat) : Mach :=
  if m.tstate p ≠ tsStopped ∨ m.ckState p ≠ ckIdle then m
  else if m.fld R.CKP_CTL_DEST [p] = 2 then m.ckAsk p m.moduleId (m.fld R.CKP_CTL_BUDDY [p]) 1 false k 0
  else if m.ckAway p then m.setCkState p ckIdle ckBadSlot
  else m.ckRestoreAt p (m.ckSlot p k)

/-- Every conduit of a partition is reset at once as RESET resets it (R585). -/
def Mach.resetAllConduits (m : Mach) (p : Nat) : Mach :=
  let m := (List.range 64).foldl (fun m c =>
    if m.cdPart c = p ∧ m.cdState c ≠ cdClosed then m.setCond c { m.cond c with resetReq := true } else m) m
  m.resetConduits p
/-- Queued commands of steps that are abandoned end ABORTED (log entry 24). -/
def Mach.abortSteps (m : Mach) (p : Nat) (ss : List Nat) : Mach :=
  (m.conf.cfg.panes p).foldl (fun m q =>
    let x := m.context p q
    let hit (c : QCmd) : Bool := c.part == p && ss.contains c.desc.step
    let l := (x.mq ++ x.vq ++ x.cq).filter hit
    let m := m.setContext p q { x with mq := x.mq.filter (fun c => !hit c), vq := x.vq.filter (fun c => !hit c), cq := x.cq.filter (fun c => !hit c) }
    if m.paneOwner q = p then l.foldl (fun m c => m.failCmd q c cAborted) (m.queueSync q) else m) m
/-- Steps abandoned and collectives ended before a restore (step 2 of R585). -/
def Mach.abandonOpen (m : Mach) (p : Nat) : Mach :=
  let m := m.abortSteps p ((m.train p).steps.map (fun t => t.step))
  let m := m.setTrain p { m.train p with steps := [] }
  let x := m.coll p
  let m := x.runs.foldl (fun m c => m.runEnd p c crAborted) m
  let m := x.fifo.foldl (fun m e => m.collEnd p e.1 e.2 crAborted) m
  let m := (m.setColl p { CollSt.init with counts := x.counts, sends := x.sends, recvs := x.recvs }).setFld R.COL_CSTAT_INFLIGHT [p] 0
  m.resetAllConduits p
/-- A rollback is over, or given up: the partition is released, and the handlers whose work it recovered end (R566). -/
def Mach.rollEnd (m : Mach) (p : Nat) : Mach :=
  (((m.setCkpt p { m.ckpt p with rollTo := 0 }).endRepairs p).unhold p hdRoll).wakeGroup p
/-- ROLLBACK (steps 1 and 2 of R585): at a quiet point, once a drain has ended (log entry 24). A window that has been stopped meanwhile has nothing
to roll back. -/
def Mach.rollbackCmd (m : Mach) (p : Nat) : Mach :=
  let x := m.ckpt p
  if x.rollTo = 0 ∨ m.anyStarted p ∨ m.ckState p ≠ ckIdle ∨ !m.running ∨ m.shut p ∨ m.fix.panes.any (fun f => f.1 == p) then m
  else if m.tstate p = tsStopped then m.rollEnd p
  else
    let c := x.rollTo - 1
    let m := m.abandonOpen p
    let m := m.setCkpt p { m.ckpt p with step := c }
    if m.flag R.CKP_STATUS_SHADOW [p] ∧ x.shadowStep = c then (m.setCkpt p { m.ckpt p with source := 0 }).setCkState p ckRestoring 0
    else match (List.range 2).find? (fun k => bitAt (m.fld R.CKP_STATUS_VALID [p]) k && Tbl.get 0 x.slots k == c + 1) with
      | some k =>
        let m := m.setCkpt p { m.ckpt p with source := k + 1 }
        if m.fld R.CKP_CTL_DEST [p] = 2 then m.ckAsk p m.moduleId (m.fld R.CKP_CTL_BUDDY [p]) 2 true k c else m.setCkState p ckRestoring 0
      | none => (m.trainDrop p tcAbandoned).rollEnd p
/-- The window runs again from step c + 1 (step 4 of R585). -/
def Mach.resumeTraining (m : Mach) (p c g : Nat) : Mach :=
  let w := m.train p
  let e := m.fld R.COL_TSCALE_GEXP [p]
  let k := m.stepsFrom p (stepAdd c 1)
  let slots := (m.schedStages p).foldl (fun t n => Tbl.set 0 t n (k * m.schedSlots n)) []
  let m := m.setTrain p { w with steps := [TStep.init (stepAdd c 1) g, TStep.init (stepAdd c 2) e], slots := slots, tprev := m.now, phAt := m.now, phF := 0, phB := 0, phU := 0, phC := 0, phI := 0 }
  let m := { m with core := { m.core with usedRecs := m.core.usedRecs.filter (fun u => u.1 != p) } }
  if m.tstate p = tsRunning then m else m.setTstate p tsRunning
/-- ROLLBACK_RESTORE_DONE (steps 3 to 5 of R585); a later request for an older checkpoint follows at once. -/
def Mach.rollbackDone (m : Mach) (p : Nat) : Mach :=
  let x := m.ckpt p
  if x.rollTo = 0 ∨ m.ckState p ≠ ckRestoring ∨ (x.why ≠ 0 ∧ (x.total = 0 ∨ x.got + 1 < x.total)) ∨ !m.running ∨ m.shut p ∨
      (x.source ≠ 0 ∧ x.why = 0 ∧ m.ckAway p) then m
  else
    let c := x.step
    let more := x.rollTo != c + 1
    let w := if x.source = 0 ∨ x.why ≠ 0 then m.ckShadow p else m.ckSlot p (x.source - 1)
    let m := m.setCkpt p { x with rollTo := if more then x.rollTo else 0, why := 0, total := 0, got := 0 }
    if x.source ≠ 0 ∧ m.ckValid p w ≠ some c then ((m.setCkState p ckIdle ckBadSlot).trainDrop p tcAbandoned).rollEnd p
    else
      let r := m.ckRestore p w
      let m := (r.1.setCkState p ckIdle 0).setFld R.COL_TSTATE_CLOSED [p] c
      if r.2.2 then m.ckHurt p true
      else
        let m := (m.resumeTraining p c r.2.1).place { ErrRec.mk0 sevDeferred p ecRollback 0xFFFF c x.rollLast with step := c }
        let m := m.vfVector p 6
        if more then m else m.rollEnd p

end Sys2Proof.Machine
end

