-- ==== Sys2Proof/Machine/HierOps.lean ====
section
/-! DEFINITION. The training hierarchy (R588 to R591): gates, barriers, named checkpoints, failed workers and their replacement; slots that travel as BULK (R418, R582, R590). -/

namespace Sys2Proof.Machine

/-- States of HIER_STAT. -/
def hiRunning : Nat := 1
def hiReplacing : Nat := 2
def hiStopped : Nat := 3
/-- STATE of a hierarchy written. -/
def Mach.setHi (m : Mach) (p st : Nat) : Mach := m.setFld R.HIER_STAT_STATE [p] st
/-- Key of byte o of the roster. -/
def Mach.rosterAt (m : Mach) (p o : Nat) : Word := mkAddr 1 (m.fld R.HIER_ROSTER_BASE [p] * 64 + o)
/-- The roster: module and ROLE. -/
def Mach.roster (m : Mach) (p : Nat) : List (Nat × Nat) :=
  (List.range (m.fld R.HIER_ROSTER_COUNT [p])).map (fun i => (ofLe (m.loadAt p (m.rosterAt p (4 * i)) 2), ofLe (m.loadAt p (m.rosterAt p (4 * i + 2)) 2)))
/-- The workers, the manager's own module among them. -/
def Mach.hierWorkers (m : Mach) (p : Nat) : List Nat :=
  m.moduleId :: ((m.roster p).filter (fun e => e.2 == 2 && e.1 != m.moduleId)).map (fun e => e.1)
/-- Every other module of the roster. -/
def Mach.hierOthers (m : Mach) (p : Nat) : List Nat := ((m.roster p).filter (fun e => (e.2 == 2 || e.2 == 3) && e.1 != m.moduleId)).map (fun e => e.1)
/-- A message to several modules. -/
def Mach.hierCast (m : Mach) (p : Nat) (l : List Nat) (kind step arg : Nat) : Mach := l.foldl (fun m d => m.hierSend p d kind step arg) m
/-- HB_US and MGR_TIMEOUT_MS in ticks, 0 meaning 1,000. -/
def Mach.hbTicks (m : Mach) (p : Nat) : Nat :=
  let v := m.fld R.HIER_CFG_HB_US [p]
  (if v = 0 then 1000 else v) * 1000
def Mach.mgrTicks (m : Mach) (p : Nat) : Nat :=
  let v := m.fld R.HIER_CFG_MGR_TIMEOUT_MS [p]
  (if v = 0 then 1000 else v) * 10 ^ 6

/-! ### Gates and barriers (R589) -/

/-- GATE at the manager: the last one sends GATE_ALL. -/
def Mach.onGate (m : Mach) (p src s : Nat) (overs : Bool) : Mach :=
  let h := m.hier p
  let g := (h.gates.filter (fun x => !(x.1 == src && x.2.1 == s))) ++ [(src, s, overs)]
  let ws := m.hierWorkers p
  if ws.all (fun w => g.any (fun x => x.1 == w && x.2.1 == s)) then
    let v := g.any (fun x => x.2.1 == s && x.2.2)
    let m := m.setHier p { h with gates := g.filter (fun x => x.2.1 != s), verdicts := h.verdicts ++ [(s, 1 + b2n v)] }
    m.hierCast p (ws.filter (fun w => w != m.moduleId)) 3 s (b2n v)
  else m.setHier p { h with gates := g }
/-- The largest checkpoint step that every worker has reported drained, plus one; 0 while one has none. -/
def Mach.hierEpoch (m : Mach) (p : Nat) : Nat :=
  let l := (m.hierWorkers p).map (fun w => Tbl.get 0 (m.hier p).drained w)
  if l.contains 0 then 0
  else match l with
    | [] => 0
    | a :: r => r.foldl (fun e x => if stepBefore (x - 1) (e - 1) then x else e) a
/-- A checkpoint is due by INTERVAL at the boundary of a step. -/
def Mach.hierDue (m : Mach) (p c : Nat) : Bool :=
  let k := m.fld R.CKP_CTL_INTERVAL [p]
  k != 0 && (m.stepsFrom p c + 1) % k == 0
/-- READY at the manager: the last one sends RELEASE, after naming the checkpoint of the step that it lets open. -/
def Mach.onReady (m : Mach) (p src s arg : Nat) : Mach :=
  let h := m.hier p
  let r := (h.readies.filter (fun x => x != (src, s))) ++ [(src, s)]
  let m := m.setHier p { h with readies := r, drained := if arg < 2 ^ 32 then Tbl.set 0 h.drained src (arg + 1) else h.drained }
  let e := m.hierEpoch p
  let m := (m.setHier p { m.hier p with epoch := e }).setFld R.HIER_STAT_EPOCH [p] (e - 1)
  let ws := m.hierWorkers p
  if ws.all (fun w => r.contains (w, s)) then
    let h := m.hier p
    let m := m.setHier p { h with readies := r.filter (fun x => x.2 != s), releases := h.releases ++ [s] }
    let far := ws.filter (fun w => w != m.moduleId)
    let m := if m.hierDue p (stepAdd s 1) then m.hierCast p far 6 (stepAdd s 1) 0 else m
    m.hierCast p far 5 s 0
  else m
/-- The last drained checkpoint of a partition, all ones in the 64 bits of ARG for none: the model's choice (log entry 85). -/
def Mach.lastDrained (m : Mach) (p : Nat) : Nat :=
  if bitAt (m.fld R.CKP_STATUS_VALID [p]) (m.fld R.CKP_STATUS_LAST [p]) then m.fld R.CKP_STATUS_LAST_STEP [p] else 2 ^ 64 - 1
/-- The verdict of a step on this module goes to the manager, once. -/
def Mach.hierGate (m : Mach) (p : Nat) (t : TStep) (overs : Bool) : Mach :=
  if t.asked then m
  else
    let m := m.setTstep p { t with asked := true }
    if m.hierRole p = 1 then m.onGate p m.moduleId t.step overs else m.hierSend p (m.hierMgr p) 2 t.step (b2n overs)
/-- The verdict of the job for a step, once known: 1 CLEAN, 2 OVERFLOW. -/
def Mach.hierVerdict (m : Mach) (p s : Nat) : Option Nat := ((m.hier p).verdicts.find? (fun v => v.1 == s)).map (fun v => v.2)
/-- The barrier of a step: READY goes to the manager, once. -/
def Mach.hierReady (m : Mach) (p : Nat) (t : TStep) : Mach :=
  if t.ready then m
  else
    let m := m.setTstep p { t with ready := true }
    if m.hierRole p = 1 then m.onReady p m.moduleId t.step (m.lastDrained p) else m.hierSend p (m.hierMgr p) 4 t.step (m.lastDrained p)
/-- A partition whose steps wait for a manager. -/
def Mach.inHier (m : Mach) (p : Nat) : Bool := m.hierRole p == 1 || m.hierRole p == 2
/-- START in a hierarchy: heartbeats count from now; the manager names a checkpoint of the first step. -/
def Mach.hierStart (m : Mach) (p f : Nat) : Mach :=
  if m.hierRole p = 0 then m
  else
    let heard := (m.hierOthers p).foldl (fun t w => Tbl.set 0 t w m.now) []
    let m := m.setHier p { Hier.init with heard := heard, mgrHeard := m.now, named := (m.hier p).named, homes := (m.hier p).homes }
    let m := m.setFlds [p] [(R.HIER_STAT_STATE, hiRunning), (R.HIER_STAT_CODE, 0), (R.HIER_STAT_WORKERS, if m.hierRole p = 1 then (m.hierWorkers p).length else 0)]
    if m.hierRole p = 1 ∧ m.hierDue p f then m.hierCast p ((m.hierWorkers p).filter (fun w => w != m.moduleId)) 6 f 0 else m

/-! ### Failure and replacement (R590, R591) -/

/-- Member-table entries that hold one ID rewritten with another. -/
def Mach.rewriteMembers (m : Mach) (p old new : Nat) : Mach :=
  (List.range 5).foldl (fun m a =>
    (List.range (m.axisSize p a)).foldl (fun m r =>
      if m.axisLinked p a ∧ m.member p a r = old then
        m.storeAt p (mkAddr 1 (m.fld R.COL_CMEMBERS_BASE [p] * 64 + a * 8192 + 2 * r)) (leBytes 2 new) else m) m) m
/-- A member rolls back to the epoch and waits for RESUME. -/
def Mach.hierRoll (m : Mach) (p e : Nat) : Mach :=
  let m := m.setHier p { m.hier p with verdicts := [], releases := [], gates := [], readies := [], named := 0, rolling := e + 1 }
  let m := (m.setHi p hiReplacing).hold p hdHier
  if m.tstate p = tsStopped then m else m.askRollback p e
/-- The hierarchy stops for want of a spare or of a slot: the manager's window at once, the workers' for want of a manager (R591). -/
def Mach.hierStop (m : Mach) (p code : Nat) : Mach :=
  ((m.setHi p hiStopped).setFld R.HIER_STAT_CODE [p] code).trainDrop p tcAbandoned |>.unhold p hdHier
/-- The manager declares a module failed. -/
def Mach.hierFail (m : Mach) (p w : Nat) : Mach :=
  let h := m.hier p
  let asSpare := h.joining.find? (fun j => j.2 == w)
  if m.hierRole p ≠ 1 ∨ m.fld R.HIER_STAT_STATE [p] = hiStopped ∨ w = m.moduleId ∨ h.lost.contains w ∨
     !((m.hierWorkers p).contains w || asSpare.isSome) then m
  else
    let orig := (asSpare.map (fun j => j.1)).getD w
    let home := Tbl.get 0 h.homes orig
    let buddy := (home - 1) % 65536
    let lost := w :: h.lost
    let spares := ((m.roster p).filter (fun e => e.2 == 3 && !lost.contains e.1 && !h.joining.any (fun j => j.2 == e.1))).map (fun e => e.1)
    match spares with
    | [] => m.hierStop p 1
    | sp :: _ =>
      let reach := buddy == m.moduleId || buddy == sp || !(m.routeLinks buddy).isEmpty
      if h.epoch = 0 ∨ (home - 1) / 65536 ≠ 2 ∨ home = 0 ∨ lost.contains buddy ∨ !reach then m.hierStop p 2
      else
        let e := h.epoch - 1
        let m := m.setHier p { h with lost := lost, joining := (h.joining.filter (fun j => j.1 != orig)) ++ [(orig, sp)], rolled := true }
        let m := (m.setHi p hiReplacing).hierSend p sp 8 e (orig + buddy * 65536)
        let far := (m.hierWorkers p).filter (fun x => x != m.moduleId && !lost.contains x)
        let m := (m.hierCast p far 7 e (w + sp * 65536)).rewriteMembers p w sp
        if h.rolled then m else m.hierRoll p e
/-- JOINED at the manager: the roster follows; the last one sends RESUME, after naming the checkpoint of the step that it lets run (R589). -/
def Mach.hierJoined (m : Mach) (p src : Nat) : Mach :=
  let h := m.hier p
  match h.joining.find? (fun j => j.2 == src) with
  | none => m
  | some j =>
    let m := (m.roster p).zipIdx.foldl (fun m e =>
      if e.1.1 = j.1 ∧ e.1.2 = 2 then m.storeAt p (m.rosterAt p (4 * e.2)) (leBytes 2 src ++ leBytes 2 2)
      else if e.1 = (src, 3) then m.storeAt p (m.rosterAt p (4 * e.2)) (leBytes 2 src ++ leBytes 2 0)
      else m) m
    let rest := h.joining.filter (fun x => x != j)
    let m := m.setHier p { h with joining := rest, heard := Tbl.set 0 h.heard src m.now, drained := Tbl.set 0 (Tbl.set 0 h.drained j.1 0) src h.epoch }
    if rest.isEmpty then
      let e := h.epoch - 1
      let m := if m.hierDue p (stepAdd e 1) then m.hierCast p ((m.hierWorkers p).filter (fun w => w != m.moduleId)) 6 (stepAdd e 1) 0 else m
      let m := m.hierCast p (m.hierOthers p) 10 e 0
      let m := m.setHier p { m.hier p with rolled := false, lost := [], rolling := 0 }
      (m.setHi p hiRunning).unhold p hdHier |>.wakeGroup p
    else m
/-- RESUME at a member. -/
def Mach.hierResumed (m : Mach) (p : Nat) : Mach :=
  if (m.hier p).rolling = 0 then m
  else ((m.setHier p { m.hier p with rolling := 0 }).setHi p hiRunning).unhold p hdHier |>.wakeGroup p
/-- A spare that holds the slot takes the failed worker's place: state, ranks, member tables, ROLE, JOINED. -/
def Mach.takeOver (m : Mach) (p : Nat) : Mach :=
  let h := m.hier p
  let w := m.ckShadow p
  let m := m.setCkpt p { m.ckpt p with why := 0, total := 0, got := 0 }
  if m.ckValid p w ≠ some (h.epoch - 1) then m.setCkState p ckIdle ckBadSlot
  else
    let e := h.epoch - 1
    let r := m.ckRestore p w
    let m := (r.1.setCkState p ckIdle 0).setTrain p { (r.1.train p) with first := stepAdd e 1, table := r.1.readTable p }
    if r.2.2 then m.ckHurt p false
    else
      let m := (m.setFlds [p] [(R.CKP_STATUS_SHADOW, 1), (R.COL_TSTATE_CLOSED, e)]).setCkpt p { m.ckpt p with shadowStep := e }
      let m := (List.range 5).foldl (fun m a =>
        match (List.range (m.axisSize p a)).find? (fun k => m.axisLinked p a && m.member p a k == h.replaces) with
        | some k => m.setFld R.COL_TAXIS_RANK [p, a] k
        | none => m) m
      let m := (m.rewriteMembers p h.replaces m.moduleId).setFld R.HIER_CFG_ROLE [p] 2
      let m := (m.setHier p { m.hier p with rolling := e + 1, mgrHeard := m.now }).setHi p hiReplacing
      ((m.hold p hdHier).resumeTraining p e r.2.1).hierSend p (m.hierMgr p) 9 e 0
/-- REPLACE at a spare: the slot is fetched from the buddy. -/
def Mach.hierReplace (m : Mach) (p e arg : Nat) : Mach :=
  if m.tstate p ≠ tsStopped ∨ m.ckState p ≠ ckIdle then m
  else
    let failed := arg % 65536
    let buddy := arg / 65536 % 65536
    let m := (m.setHier p { m.hier p with replaces := failed, buddy := buddy, epoch := e + 1 }).setHi p hiReplacing
    if buddy = m.moduleId then
      match (List.range 2).find? (fun k => m.ckValid p (m.ckKept p k) == some e) with
      | some k =>
        let n := leAt (m.spotLoad p (m.ckKept p k) 64) 16 8
        (m.ckMove p (m.ckKept p k) (m.ckShadow p) (64 + n)).1.takeOver p
      | none => m.setCkState p ckIdle ckBadSlot
    else m.ckAsk p failed buddy 3 true 0 e
/-- HEARTBEAT. -/
def Mach.hierHeard (m : Mach) (p src arg : Nat) : Mach :=
  let h := m.hier p
  if m.hierRole p = 1 then m.setHier p { h with heard := Tbl.set 0 h.heard src m.now, homes := Tbl.set 0 h.homes src (arg % 2 ^ 18 + 1) }
  else if src ≠ m.hierMgr p then m
  else
    let m := m.setHier p { h with mgrHeard := m.now, orphan := false }
    if h.orphan ∧ h.rolling = 0 then (m.unhold p hdHier).wakeGroup p else m

/-- A hierarchy message at the partition of its job (R588): what its kind does in the partition's role. -/
def Mach.hierIn (m : Mach) (link src job kind step arg : Nat) : Mach :=
  if m.jobShut job then m else
  let m := m.consumed link clCollective
  let p := m.jobPart job
  if p = 0 then (m.addSat R.MRD_STAT_UNCLAIMED [] 1).unreachable src job 0x27 0x80000000
  else
    let role := m.hierRole p
    let mgr := role == 1
    let worker := role == 2 && src == m.hierMgr p
    let h := m.hier p
    if kind = 1 ∧ role ≠ 0 then m.hierHeard p src arg
    else if kind = 2 ∧ mgr then m.onGate p src step (bitAt arg 0)
    else if kind = 3 ∧ worker then m.setHier p { h with verdicts := (h.verdicts.filter (fun v => v.1 != step)) ++ [(step, 1 + b2n (bitAt arg 0))] }
    else if kind = 4 ∧ mgr then m.onReady p src step arg
    else if kind = 5 ∧ worker then m.setHier p { h with releases := (h.releases.filter (fun s => s != step)) ++ [step] }
    else if kind = 6 ∧ worker then m.setHier p { h with named := step + 1 }
    else if kind = 7 ∧ worker then
      let m := m.rewriteMembers p (arg % 65536) (arg / 65536 % 65536)
      if h.rolling = 0 then m.hierRoll p step else m
    else if kind = 8 ∧ role = 3 ∧ src = m.hierMgr p then m.hierReplace p step arg
    else if kind = 9 ∧ mgr then m.hierJoined p src
    else if kind = 10 ∧ worker then m.hierResumed p
    else if kind = 11 ∧ mgr then m.hierFail p src
    else m

/-- HIER_HEARTBEAT_TIMER: each member tells its manager, the manager every member; ARG is DEST and BUDDY of the sender (log entry 17). -/
def Mach.hierTimer (m : Mach) (p : Nat) : Mach :=
  let arg := m.fld R.CKP_CTL_DEST [p] * 65536 + m.fld R.CKP_CTL_BUDDY [p]
  if !m.running ∨ m.fld R.HIER_STAT_STATE [p] = hiStopped then m
  else if m.hierRole p = 1 then m.hierCast p (m.hierOthers p) 1 0 arg
  else if m.hierRole p = 2 ∨ m.hierRole p = 3 then m.hierSend p (m.hierMgr p) 1 0 arg
  else m
/-- WORKER_HEARTBEAT_MISS: three periods without a heartbeat. -/
def Mach.workerMiss (m : Mach) (p w : Nat) : Mach :=
  if m.running && decide (Tbl.get 0 (m.hier p).heard w + 3 * m.hbTicks p ≤ m.now) then m.hierFail p w else m
/-- MANAGER_HEARTBEAT_MISS: the partition is held at its next boundary. -/
def Mach.managerMiss (m : Mach) (p : Nat) : Mach :=
  let h := m.hier p
  if m.running && m.hierRole p == 2 && decide (h.mgrHeard + 3 * m.hbTicks p ≤ m.now) then m.setHier p { h with orphan := true } else m
/-- MGR_TIMEOUT: the window stops. -/
def Mach.managerGone (m : Mach) (p : Nat) : Mach :=
  let h := m.hier p
  if m.running && m.hierRole p == 2 && decide (h.mgrHeard + m.mgrTicks p ≤ m.now) && m.tstate p != tsStopped then
    ((m.setHier p { h with orphan := false, rolling := 0 }).trainDrop p tcAbandoned).setHi p hiStopped |>.unhold p hdHier
  else m

/-! ### Slots over Meridian (R418, R582, R590) -/

/-- The slot that a module keeps for another: by number, or by the step it holds. -/
def Mach.keptSlot (m : Mach) (p : Nat) (byStep : Bool) (k step : Nat) : Option Nat :=
  (if byStep then [0, 1] else [k]).find? (fun j =>
    let h := m.spotLoad p (m.ckKept p j) 64
    h.take 8 == ckMagic && leAt h 56 8 != 0 && (!byStep || leAt h 8 4 == step))
/-- What the answer to a fetch completes, once all of it has come. -/
def Mach.fetched (m : Mach) (p : Nat) : Mach :=
  let x := m.ckpt p
  if x.got + 1 < x.total then m
  else if x.why = 1 then (m.setCkpt p { x with why := 0, total := 0, got := 0 }).ckRestoreAt p (m.ckShadow p)
  else if x.why = 3 then m.takeOver p
  else m
/-- BULK of a checkpoint or of a spare module. -/
def Mach.bulkIn (m : Mach) (link src job : Nat) (b : BulkBody) (ps : Bool) : Mach :=
  if m.jobShut job then m else
  let m := m.consumed link clMemory
  let p := m.jobPart job
  if p = 0 then (m.addSat R.MRD_STAT_UNCLAIMED [] 1).unreachable src job 0x38 0xC5000000
  else match b with
    | .part k o bs =>
      if m.fld R.CKP_RECV_SENDER [p] ≠ src then m
      else match m.spotSegs p true (onward (m.ckKept p k) o.toNat) bs.length with
        | some l => ((chunksOf l bs ps).foldl (fun m c => m.putChunk c) m).traffic p true l
        | none => m
    | .fetch owner byStep k step =>
      let none_ := m.bulkSend p src (.reply 0 0 []) false
      if m.fld R.CKP_RECV_SENDER [p] ≠ owner.toNat then none_
      else match m.keptSlot p byStep k step.toNat with
        | none => none_
        | some j =>
          let w := m.ckKept p j
          let n := 64 + leAt (m.spotLoad p w 64) 16 8
          m.bulkRange p src w n (fun o bs => .reply (BitVec.ofNat 48 o) (BitVec.ofNat 48 n) bs)
    | .reply o total bs =>
      let x := m.ckpt p
      let home := if x.why = 3 then (m.hier p).buddy else m.fld R.CKP_CTL_BUDDY [p]
      if x.why = 0 && m.exporting p && !m.exportRead p && src == home then
        (if total = 0 then m.exportStop p 4
         else ((chunksOf [(exportKey p o.toNat, bs.length)] bs ps).foldl (fun m c => m.putChunk c) m).setCkpt p { x with expTotal := total.toNat + 1, expGot := x.expGot + bs.length })
      else if x.why = 0 ∨ m.ckState p ≠ ckRestoring ∨ src ≠ home then m
      else if total = 0 then
        let m := (m.setCkpt p { x with why := 0, total := 0, got := 0, rollTo := 0 }).setCkState p ckIdle ckBadSlot
        if x.why = 2 then (m.trainDrop p tcAbandoned).rollEnd p else m
      else match m.spotSegs p true (onward (m.ckShadow p) o.toNat) bs.length with
        | none => m
        | some l =>
          let m := ((chunksOf l bs ps).foldl (fun m c => m.putChunk c) m).traffic p true l
          (m.setCkpt p { x with total := total.toNat + 1, got := x.got + bs.length }).fetched p

end Sys2Proof.Machine
end

