-- ==== Sys2Proof/Machine/TrainCmdOps.lean ====
section
/-! DEFINITION. What the training rows do beside the arithmetic of the update: START and the gate in a hierarchy (R301, R588), the step boundary with all that attaches to it (R142, R277, R286, R287, R580, R584, R589, R591), pass 1 with its reads of HBM, a stage without an owner pane (R324), export (R320 to R322). -/

namespace Sys2Proof.Machine

/-- START (R288) with its hierarchy (R588). -/
def Mach.trainStartCmd (m : Mach) (p f : Nat) : Mach :=
  let was := m.tstate p
  let m := m.trainStart p f
  if was = tsStopped ∧ m.tstate p = tsRunning then m.hierStart p f else m

/-- UPDATE_GATE_OPEN (R301): alone, on this module's verdict; in a hierarchy, on the manager's. -/
def Mach.updateGate (m : Mach) (p : Nat) : Mach :=
  if m.tstate p = tsStopped ∨ m.tfrozen p then m
  else match m.gateStep p with
    | none => m
    | some t =>
      let mine := m.overflows p t
      let finish (m : Mach) (t : TStep) (overs : Bool) : Mach :=
        let m := m.gateOpen p t overs
        if overs then m.collOverflow p t.step else m
      if m.inHier p then
        let m := if (m.hierVerdict p t.step).isSome then m else m.hierGate p t mine
        match m.hierVerdict p t.step, m.tstep p t.step with
        | some v, some t => finish m t (v == 2)
        | _, _ => m
      else finish m t mine

/-- A page or line error met by a read of HBM, then pass 1 (R302, R376). -/
def Mach.pass1Cmd (m : Mach) (p i c : Nat) (hits : List LineErr) : Mach :=
  if m.tstate p = tsStopped then m
  else match m.updStuck p with
    | some n => m.contained p ecUpdateStuck (isl 3 0) n 0 1
    | none => (hits.foldl (fun m e => m.lineErr e) m).pass1 p i c
/-- UPDATE_PASS2 (R303); a stage with no owner pane left ends in UPDATE_STUCK (R324). -/
def Mach.pass2Cmd (m : Mach) (p i c : Nat) : Mach :=
  match m.updStuck p with
  | some n => m.contained p ecUpdateStuck (isl 3 0) n 0 1
  | none => m.pass2Upd p i c

/-! ### The boundary -/

/-- Slices of a step that wait for a tile which lacks a partial are given up (R142). -/
def Mach.dropTiles (m : Mach) (p s : Nat) : Mach :=
  (m.stepSplits p s).foldl (fun m r => m.abandonTile r.cmd.part r.cmd.slotAddr r.cmd.desc.step) m
/-- What attaches to the boundary of step s: RESETs of conduits, a checkpoint that is due, the end of EXEMPT ticks (R277, R575, R580). -/
def Mach.afterBoundary (m : Mach) (p s : Nat) (marked : Bool) : Mach :=
  let m := m.resetConduits p
  let x := m.ckpt p
  let m := if x.exemptTo ≠ 0 ∧ stepLe (x.exemptTo - 1) s then
             { m.setCkpt p { x with exemptTo := 0 } with part := { m.part with exempt := eraseNat p m.part.exempt } } else m
  m.ckBegin p s marked
/-- STEP_BOUNDARY (R286, R287): the lowest open step closes once every condition holds; in a hierarchy its barrier is asked for first, and a
worker without its manager is held here (R589, R591). -/
def Mach.stepBoundary (m : Mach) (p : Nat) : Mach :=
  match m.closeReady p with
  | none => m
  | some t =>
    if (m.stepSplits p t.step).any (fun r => m.tileFull r) ∨ m.ckState p ≠ ckIdle then m
    else
      let m := m.dropTiles p t.step
      let m := if m.inHier p ∧ !(m.hier p).releases.contains t.step then m.hierReady p t else m
      let m := if (m.hier p).orphan then m.hold p hdHier else m
      if m.inHier p ∧ !(m.hier p).releases.contains t.step then m
      else (((m.boundary p t).afterBoundary p t.step t.marked).windowEnd p t).txBoundary p

/-! ### Export (R320 to R322) -/

/-- EXPORT (R320): slot L as it stands now. Of a slot kept on another module the shadow is a copy while it holds that checkpoint; else the module
asks for it by BULK (log entry 69). -/
def Mach.exportStart (m : Mach) (p mode : Nat) : Mach :=
  let k := m.fld R.CKP_STATUS_LAST [p]
  let c := m.fld R.CKP_STATUS_LAST_STEP [p]
  if m.exporting p then m.setTcode p tcTstate
  else if !bitAt (m.fld R.CKP_STATUS_VALID [p]) k then m.setTcode p tcExportNone
  else if mode = 3 then m
  else
    let m := m.setFlds [p] [(R.COL_TEXPORT_STATUS_STATE, 1), (R.COL_TEXPORT_STATUS_MODE, mode), (R.COL_TEXPORT_STATUS_BYTES, 0)]
    let m := m.setCkpt p { m.ckpt p with expSlot := k, expStep := c, expTotal := 0, expGot := 0 }
    if m.fld R.CKP_CTL_DEST [p] ≠ 2 then m
    else if m.flag R.CKP_STATUS_SHADOW [p] && (m.ckpt p).shadowStep == c then
      let n := 64 + leAt (m.spotLoad p (m.ckShadow p) 64) 16 8
      match m.spotSegs p false (m.ckShadow p) n with
      | some l => (m.move l [(exportKey p 0, n)]).setCkpt p { m.ckpt p with expTotal := n + 1, expGot := n }
      | none => m
    else m.bulkSend p (m.fld R.CKP_CTL_BUDDY [p]) (.fetch (BitVec.ofNat 16 m.moduleId) false (fin2 k) 0) false
/-- EXPORT_ABORT. -/
def Mach.exportAbort (m : Mach) (p : Nat) : Mach := if m.exporting p then m.exportStop p 0 else m
/-- EXPORT_DONE: header, manifest and arrays are written, or a host write failed. With the port down it waits (R476). -/
def Mach.exportDone (m : Mach) (p : Nat) (good : Bool) : Mach :=
  if !m.exporting p ∨ !m.running ∨ m.shut p ∨ (good && !m.portUp p) then m
  else if !good then (m.setTcode p tcHostWrite).exportStop p 4
  else if !m.exportRead p then m
  else
    let r := m.exportWrite p (m.train p).table.length
    r.1.exportEnd p 2 r.2

end Sys2Proof.Machine
end

