-- ==== Sys2Proof/Machine/Hatches.lean ====
section
/-! DEFINITION. The rows of hatches and completion rings (R462 to R473), function-level and port resets (R475), DMA reads that fail (R459). -/

namespace Sys2Proof.Machine

/-- Boot has reached READY: the host ports answer and registers can be reached (R638). -/
def Mach.hostUp (m : Mach) : Bool := m.fld R.PRT_STATUS_PHASE [] == phaseReady

/-! ### Sealing (R462 to R464, R468) -/

/-- A counted error of a function of a port (R474, R519), with one CORRECTED record a second. -/
def Mach.hostMisuse (m : Mach) (p port fn : Nat) : Mach :=
  (m.count p (isl 6 port) 2 1).placeLimited (2 ^ 50 + port * 64 + fn) second (ErrRec.mk0 sevCorrected p ecHost (isl 6 port) fn 0)
/-- Hatch misuse by the VF of a partition (R474). -/
def Mach.hatchMisuse (m : Mach) (p : Nat) : Mach := m.hostMisuse p (m.conf.cfg.portOf p) (m.conf.cfg.vfOf p)
/-- A discard as BAD_SEAL. -/
def Mach.badSeal (m : Mach) (p h : Nat) : Mach := ((m.raise R.HTC_STAT_BAD_SEAL [p, h] 1).addSat R.HTC_STAT_BAD_SEALS [p, h] 1).hatchMisuse p
/-- Words 0 to 6 of a slot (R464). -/
def Mach.hatchWord (m : Mach) (p h slot word : Nat) (v : Word) : Mach :=
  let x := m.hatch p h
  if x.isSealed.any (fun e => e.1 == slot) then m.badSeal p h
  else m.setHatch p h { x with slots := Tbl.set 0 x.slots (slot * 8 + word) v }
/-- Word 7 of a slot (R463, R468): a disabled hatch refuses it. -/
def Mach.hatchSeal (m : Mach) (p h slot : Nat) (v : Word) : Mach :=
  let x := m.hatch p h
  let s := bits v.toNat 63 32
  let next := m.fld R.HTC_CREDIT_NEXT [p, h]
  if !m.flag R.HTC_TARGET_ENABLE [p, h] ∨ m.pstate p = psTornDown then m.addSat R.HTC_STAT_REFUSED [p, h] 1
  else if seqGe s (x.disp + 1024) then ((m.raise R.HTC_STAT_HATCH_OVERRUN [p, h] 1).addSat R.HTC_STAT_OVERRUNS [p, h] 1).hatchMisuse p
  else if slot ≠ s % 1024 ∨ !seqGe s next ∨ x.isSealed.any (fun e => e.1 == slot) then m.badSeal p h
  else
    let l := x.isSealed ++ [(slot, s)]
    let m := m.setHatch p h { x with slots := Tbl.set 0 x.slots (slot * 8 + 7) v, isSealed := l }
    (m.setFld R.HTC_CREDIT_NEXT [p, h] (sealNext l 1024 next)).hatchSync p h

/-! ### Dispatch (R465 to R468, R471, R489) -/

/-- The launch of a descriptor is valid (R161, R467). -/
def Mach.launchOk (m : Mach) (p : Nat) (d : Desc) : Bool :=
  let n := bits d.w5.toNat 47 36
  d.kind == 3 && d.wellFormed && tokenOk d.wait && tokenOk d.signal && bits d.w5.toNat 35 0 == 0 && (m.conf.cfg.stage n).isSome &&
  m.conf.cfg.stagePart n == p
/-- A hatch waits for a queue of a pane, from the first time it found no place there (R465, R466). -/
def Mach.hatchWait (m : Mach) (p h pane : Nat) (e : EngineId) : Mach :=
  let x := m.hatch p h
  match x.waitOn with
  | some (q, k, _) => if q = pane ∧ k = e.num then m else m.setHatch p h { x with waitOn := some (pane, e.num, m.now) }
  | none => m.setHatch p h { x with waitOn := some (pane, e.num, m.now) }
/-- Whether a stream of the pane that waits on a queue takes its next slot before a hatch does: the hatch ranks below the streams, but for a wait of
32 cycles that is the longest (R154, R466). -/
def Mach.hatchYields (m : Mach) (p h pane : Nat) (e : EngineId) : Bool :=
  let wh := match (m.hatch p h).waitOn with
    | some (q, k, t) => if q = pane ∧ k = e.num then (m.now - t) * m.fld R.PNE_CLOCK_ACTUAL_MHZ [pane] else 0
    | none => 0
  (List.range 3).any (fun k => m.sstate pane k == ssWait && m.fld R.PNE_STREAM_WAIT_ON [pane, k] == 2 + e.num &&
    (decide (wh < 32000) || decide (wh ≤ m.waited pane k)))
/-- The oldest submitted descriptor of a hatch leaves its slot for its pane queue or its stage. A target pane that is none of the
partition's fails it. A launch of a step that is not open yet waits, one of a closed step fails (R285). -/
def Mach.hatchDispatch (m : Mach) (p h : Nat) : Mach :=
  let x := m.hatch p h
  let d := Desc.ofSlots x.slots (x.disp % 1024)
  let pane := m.fld R.HTC_TARGET_PANE [p, h]
  let taken (m : Mach) : Mach :=
    (m.setHatch p h { x with isSealed := x.isSealed.filter (fun e => e.2 != x.disp), disp := (x.disp + 1) % 2 ^ 32, waitOn := none }).hatchSync p h
  let src := CmdSrc.hatch p h x.epoch
  if !m.hatchOpen p h ∨ !m.flag R.HTC_TARGET_ENABLE [p, h] ∨ x.disp = m.fld R.HTC_CREDIT_NEXT [p, h] ∨ 256 ≤ x.holding.length + x.fresh.length then m
  else match engineOf d.kind with
    | some e =>
      let q := QCmd.of d src p (fun i => BitVec.ofNat 64 (m.fld R.HTC_BASE_BASE [p, h, i]))
      if !(m.conf.cfg.panes p).contains pane then (taken m).hatchComplete p h x.epoch d cDescInvalid pane false
      else if queueSize e ≤ ((m.pane pane).queue e).length ∨ m.hatchYields p h pane e = true then m.hatchWait p h pane e
      else ((taken m).enqueue pane e q).traceCmd pane 1 q 0 false
    | none =>
      if m.launchOk p d && m.stepGate p d.step == 2 then (taken m).hatchComplete p h x.epoch d cStepClosed 0xFFFF false
      else if m.launchOk p d && m.stepGate p d.step == 1 then m
      else if m.launchOk p d then
        let m := taken m
        let l : Launch := { src := src, part := p, desc := d, left := m.conf.cfg.stagePanes (bits d.w5.toNat 47 36), busy := false }
        { m with part := { m.part with launches := m.part.launches ++ [l] } }
      else (taken m).hatchComplete p h x.epoch d cDescInvalid (if d.kind = 3 then 0xFFFF else pane) false

/-! ### Enabling (R469) -/

/-- ENABLE and PANE of HTC_TARGET set together. -/
def Mach.hatchEnable (m : Mach) (p h pane : Nat) : Mach :=
  if m.fld R.HTC_CREDIT_OCCUPIED [p, h] ≠ 0 then m.setFld R.HTC_TARGET_CODE [p, h] 1
  else if !(m.conf.cfg.panes p).contains pane then m.setFld R.HTC_TARGET_CODE [p, h] 2
  else
    let was := m.flag R.HTC_TARGET_ENABLE [p, h]
    let m := m.setFlds [p, h] [(R.HTC_TARGET_ENABLE, 1), (R.HTC_TARGET_PANE, pane), (R.HTC_TARGET_CODE, 0)]
    if was then m
    else
      let m := m.setHatch p h { m.hatch p h with isSealed := [], disp := 0, waitOn := none }
      let m := { m with part := { m.part with drainAt := Tbl.set 0 m.part.drainAt (p * 4 + h) 0 } }
      (m.setFld R.HTC_CREDIT_NEXT [p, h] 0).hatchSync p h
/-- ENABLE cleared: sealed, undispatched descriptors end ABORTED with their records. -/
def Mach.hatchDisable (m : Mach) (p h : Nat) : Mach :=
  let m := if m.flag R.HTC_TARGET_ENABLE [p, h] then m.hatchFlush p h true else m
  (m.setFlds [p, h] [(R.HTC_TARGET_ENABLE, 0), (R.HTC_TARGET_CODE, 0)]).hatchSync p h
/-- HTC_CTAIL (R470, R471). -/
def Mach.ringTail (m : Mach) (p h : Nat) (v : Nat) : Mach :=
  let old := m.fld R.HTC_CTAIL_TAIL [p, h]
  let d (a : Nat) : Nat := (a + 2 ^ 64 - old) % 2 ^ 64
  if d (m.fld R.HTC_CHEAD_HEAD [p, h]) < d v then m
  else Mach.ringDrain 1024 (m.setFld R.HTC_CTAIL_TAIL [p, h] v) p h

/-! ### Resets of functions and ports (R475) -/

/-- The DMA in flight of a partition's VF is aborted (R475): a copy from or to the host fails with HOST_ERROR (R459), a fetch with its own code, an
export or a checkpoint on its way to the host with HOST_WRITE (log entry 96). -/
def Mach.dmaAbort (m : Mach) (p : Nat) : Mach :=
  let m := (m.conf.cfg.panes p).foldl (fun m q =>
    let x := m.pane q
    let mine (r : Run) : Bool := r.cmd.part == p && r.cmd.onHost
    (x.cruns.filter mine).foldl (fun m r => m.failCmd q r.cmd cHostError) (m.setPane q { x with cruns := x.cruns.filter (fun r => !mine r) })) m
  let m := (m.fetchesOf p).foldl (fun m _ => m.promptDone p .fails) m
  let m := (m.ovlFetchesOf p).foldl (fun m _ => m.overlayDone p .fails) m
  let m := m.exportDone p false
  if m.fld R.CKP_CTL_DEST [p] = 1 then m.ckDrained p false else m
/-- FLR of the VF of a partition. -/
def Mach.vfReset (m : Mach) (p : Nat) : Mach :=
  let m := (List.range 4).foldl (fun m h =>
    let m := m.setHatch p h { Hatch.init with epoch := (m.hatch p h).epoch + 1 }
    let m := (List.range 8).foldl (fun m i => m.setFld R.HTC_BASE_BASE [p, h, i] 0) m
    let m := { m with part := { m.part with drainAt := Tbl.set 0 m.part.drainAt (p * 4 + h) 0 } }
    m.setFlds [p, h] [(R.HTC_TARGET_ENABLE, 0), (R.HTC_TARGET_PANE, 0), (R.HTC_TARGET_CODE, 0), (R.HTC_CREDIT_NEXT, 0), (R.HTC_CREDIT_CREDIT, 0),
      (R.HTC_CREDIT_OCCUPIED, 0), (R.HTC_STAT_HATCH_OVERRUN, 0), (R.HTC_STAT_BAD_SEAL, 0), (R.HTC_STAT_OVERRUNS, 0), (R.HTC_STAT_BAD_SEALS, 0),
      (R.HTC_STAT_REFUSED, 0), (R.HTC_CRING_ADDR, 0), (R.HTC_CRCFG_PAGES, 0), (R.HTC_CRCFG_COALESCE_US, 0), (R.HTC_CRCFG_COALESCE_COUNT, 0),
      (R.HTC_CHEAD_HEAD, 0), (R.HTC_CTAIL_TAIL, 0)]) m
  let m := m.setFlds [p] [(R.HTC_HOSTERR_LAST_OFFSET, 0), (R.HTC_HOSTERR_UNMAPPED, 0), (R.HTC_HOSTERR_BADACCESS, 0)]
  m.dmaAbort p
/-- The partitions of a port. -/
def Mach.portParts (m : Mach) (port : Nat) : List Nat := m.conf.cfg.parts.filter (fun p => m.conf.cfg.portOf p == port)
/-- What every function reset does beside the partition's own state: MSI-X, and the count of a VF that no partition names (R451, R475). -/
def Mach.fnReset (m : Mach) (port fn : Nat) : Mach :=
  let m := m.msixReset port fn
  { m with host := { m.host with strays := Tbl.set (0, 0) m.host.strays (port * 64 + fn) (0, 0) } }
/-- FLR of the PF of a port. -/
def Mach.pfReset (m : Mach) (port : Nat) : Mach :=
  let m := (m.portParts port).foldl (fun m p => m.vfReset p) m
  (List.range 33).foldl (fun m fn => m.fnReset port fn) m

/-- Hot reset, link down or surprise removal of a port. -/
def Mach.portReset (m : Mach) (port : Nat) : Mach :=
  let m := (m.pfReset port).setFlds [port] [(R.PRT_HP_LINK_UP, 0), (R.PRT_HP_LINK_RATE, 0), (R.PRT_HP_LINK_WIDTH, 0)]
  (m.portParts port).foldl (fun m p => m.place (ErrRec.mk0 sevCorrected p ecHost (isl 6 port) (m.conf.cfg.vfOf p) 0)) m

/-! ### DMA reads (R459) -/

/-- A DMA read of a copy in flight ends badly: the copy fails with HOST_ERROR, or lines of its source count as poisoned. A copy to the host that
waits for its port fails the same way (R476). -/
def Mach.dmaReadError (m : Mach) (pane i : Nat) (how : DmaEnd) : Mach :=
  let x := m.pane pane
  match x.cruns[i]? with
  | none => m
  | some r =>
    let host := (r.cmd.a.map (fun w => adSpace w == 8)).getD false
    let late := r.cmd.onHost && !m.portUp r.cmd.part && how == .fails
    if !(host || late) ∨ !m.running then m
    else match how, m.copyPlan pane r.cmd with
      | .fails, _ => (m.setPane pane { x with cruns := x.cruns.eraseIdx i }).failCmd pane r.cmd cHostError
      | .ep first count, .ok g =>
        let l := (cutSegs g.src (64 * first) (64 * count)).flatMap (fun s => linesOf s.1 s.2)
        m.setPane pane { x with cruns := x.cruns.set i { r with vals := r.vals ++ l } }
      | .ep _ _, .error _ => m

/-- HATCH_DESCRIPTOR_WORDS (R464): window 4 is the admission window (R335). -/
def execHatchDescriptorWords (part : PartId) (win : Fin 5) (slot : Fin 1024) (word : Fin 7) (value : Word) (s : State) : Res :=
  let p := part.val + 1
  s.withM (if !s.m.accepts ∨ (s.m.conf.cfg.part p).isNone then s.m
           else if win.val = 4 then s.m.admWord p slot word value else s.m.hatchWord p win slot word value)
/-- HATCH_SEAL (R463): window 4 is the admission window (R335). -/
def execHatchSeal (part : PartId) (win : Fin 5) (slot : Fin 1024) (value : Word) (s : State) : Res :=
  let p := part.val + 1
  s.withM (if !s.m.accepts ∨ (s.m.conf.cfg.part p).isNone then s.m
           else if win.val = 4 then s.m.admSeal p slot value else s.m.hatchSeal p win slot value)
/-- HATCH_DISPATCH (R465). -/
def execHatchDispatch (part : PartId) (hatch : Fin 4) (s : State) : Res := s.withM (s.m.hatchDispatch (part.val + 1) hatch)
/-- HATCH_ENABLE (R469). -/
def execHatchEnable (part : PartId) (hatch : Fin 4) (pane : Fin 4096) (s : State) : Res :=
  s.withM (if s.m.accepts then s.m.hatchEnable (part.val + 1) hatch pane else s.m)
/-- HATCH_DISABLE (R469). -/
def execHatchDisable (part : PartId) (hatch : Fin 4) (s : State) : Res :=
  s.withM (if s.m.accepts then s.m.hatchDisable (part.val + 1) hatch else s.m)
/-- COMPLETION_TAIL_WRITE (R470). -/
def execCompletionTailWrite (part : PartId) (hatch : Fin 4) (value : Word) (s : State) : Res :=
  s.withM (if s.m.accepts then s.m.ringTail (part.val + 1) hatch value.toNat else s.m)
/-- MSIX_COALESCE_TIMER (R473). -/
def execMsixCoalesceTimer (part : PartId) (hatch : Fin 4) (s : State) : Res :=
  s.withM (if s.m.hostUp then s.m.ringMessage (part.val + 1) hatch else s.m)
/-- VF_FLR (R475). -/
def execVfFlr (port : PortId) (fn : FnId) (s : State) : Res :=
  let p := s.m.conf.cfg.vfPart port fn
  s.withM (if s.m.accepts ∧ fn.val ≠ 0 then (if p = 0 then s.m else s.m.vfReset p).fnReset port fn else s.m)
/-- PF_FLR (R475). -/
def execPfFlr (port : PortId) (s : State) : Res := s.withM (if s.m.accepts then s.m.pfReset port else s.m)
/-- HOST_PORT_RESET (R475). -/
def execHostPortReset (port : PortId) (s : State) : Res := s.withM (s.m.portReset port)
/-- DMA_READ_ERROR (R459). -/
def execDmaReadError (pane : PaneId) (index : Fin 4) (how : DmaEnd) (s : State) : Res := s.withM (s.m.dmaReadError pane index how)

end Sys2Proof.Machine
end

