-- ==== Sys2Proof/Machine/Boot.lean ====
section
/-! DEFINITION. The rows of reset and boot (R212, R480, R629 to R638) and of power failure (R599 to R603, R633). -/

namespace Sys2Proof.Machine

/-- INPUT_POWER_ON (R629): the rails start; the latch of a thermal trip ended with the power (R639). -/
def execInputPowerOn (s : State) : Res :=
  .next (if s.ext.power then s
         else { s with ext := { s.ext with power := true, cold := true }, m := { s.m with pwrGood := true }.emit (.pin 2 true) })
/-- INPUT_POWER_OFF (R629): everything volatile is lost, a flush that has not committed too. -/
def execInputPowerOff (s : State) : Res :=
  .next (if !s.ext.power then s
         else
           let was := s.ext.tripped
           let s : State := { s with ext := { s.ext with power := false, tripped := false } }
           let s := s.enterReset
           { s with m := if was then s.m.emit (.pin 1 true) else s.m.emit (.pin 2 false) })
/-- RESET_N_ASSERT (R636): while a flush is being programmed it takes effect at its commit. -/
def execResetNAssert (s : State) : Res :=
  let s : State := { s with ext := { s.ext with resetN := false } }
  .next (if s.m.errs.flushing.isSome then s else s.enterReset)
/-- RESET_N_RELEASE (R627, R636, R637): SYS_REFCLK is stable by then, the sampled pins are latched and the boot
begins. A release before the flush commit begins it at the commit's end only if RESET_N is asserted again. -/
def execResetNRelease (chartSel : Fin 4) (feedId : Fin 16) (smbAddr : Fin 8) (s : State) : Res :=
  .next (if s.ext.resetN then s
         else
           let t : State := { s with ext := { s.ext with resetN := true } }
           if !s.ext.power ∨ s.ext.tripped ∨ s.m.errs.flushing.isSome then t
           else { t with ext := { t.ext with refclk := true } }.boot (b2n (!s.ext.cold)) chartSel feedId smbAddr)
/-- WAIT_POWER_END (R632): PWRFAIL_N has been high for 1 ms. -/
def execWaitPowerEnd (s : State) : Res :=
  .next (if s.m.fld R.PRT_STATUS_PHASE [] = 0 ∧ s.m.flag R.PRT_STATUS_REFCLK_OK [] then
           { s with ext := { s.ext with pwrfailN := true }, m := s.m.setFld R.PRT_STATUS_PHASE [] 1 }
         else s)
/-- SELFTEST_DONE (R637). -/
def execSelftestDone (found : SelfTest) (s : State) : Res :=
  let ph := s.m.fld R.PRT_STATUS_PHASE []
  s.withM (if (ph = 1 ∨ ph = 3) ∧ s.romPassed then (s.m.selfTested found).setFld R.PRT_STATUS_PHASE [] 4 else s.m)
/-- BOOT_CHART_LOAD_DONE (R212). -/
def execBootChartLoadDone (s : State) : Res := s.withM (if s.m.fld R.PRT_STATUS_PHASE [] = 4 then s.m.bootLoad s.nv else s.m)
/-- Completion records held while a port was down go to their rings (R471, R476). -/
def Mach.ringsDrain (m : Mach) (port : Nat) : Mach :=
  (m.portParts port).foldl (fun m p => (List.range 4).foldl (fun m h => Mach.ringDrain 1024 m p h) m) m
/-- HOST_LINK_UP (R448, R638): ports train once the firmware has started. RATE is 1 to 5; WIDTH 1, 2, 4, 8 or 16. -/
def execHostLinkUp (port : PortId) (rate : Fin 8) (width : Fin 32) (s : State) : Res :=
  let ok := decide (1 ≤ rate.val ∧ rate.val ≤ 5) && [1, 2, 4, 8, 16].contains width.val && decide (1 ≤ s.m.fld R.PRT_STATUS_PHASE []) && s.romPassed
  s.withM (if ok then (s.m.setFlds [port] [(R.PRT_HP_LINK_UP, 1), (R.PRT_HP_LINK_RATE, rate), (R.PRT_HP_LINK_WIDTH, width)]).ringsDrain port else s.m)
/-- CXL_ENUMERATION_DONE (R480, R481): the port is UP with the device's capacity, at most 4 TiB, or stays ABSENT, and the provider's log
holds the failing step; each port is enumerated once from reset to reset. The code of that record is not stated. -/
def execCxlEnumerationDone (x : PortId) (found : Option CxlDevice) (failedStep : Fin 8) (s : State) : Res :=
  let m := s.m
  s.withM (if m.fld R.PRT_STATUS_PHASE [] = 0 ∨ !s.romPassed ∨ m.fld R.FAR_PORT_STATE [x] ≠ 0 ∨ m.tier.enumerated.contains x.val then m
           else
           let m := { m with tier := { m.tier with enumerated := insertNat x m.tier.enumerated } }
           match found with
             | some d => m.setFlds [x] [(R.FAR_PORT_STATE, 1), (R.FAR_PORT_WIDTH, d.lanes), (R.FAR_PORT_CAP_GIB, min 4096 d.gib)]
             | none => m.drew.place (ErrRec.mk0 sevCorrected 0 (m.free.toNat % 65536) (isl 6 (2 + x.val)) failedStep 0))
/-- PWRFAIL_N (R599). -/
def execPwrfailN (s : State) : Res :=
  let s : State := { s with ext := { s.ext with pwrfailN := false } }
  .next (s.powerFail false)
/-- INPUT_UNDERVOLTAGE (R633). -/
def execInputUndervoltage (s : State) : Res := .next (if s.ext.pwrfailN then s.powerFail true else s)
/-- FLUSH_COMMIT (R600). -/
def execFlushCommit (s : State) : Res := .next s.flushCommit

end Sys2Proof.Machine
end

