-- ==== Sys2Proof/Machine/Charts.lean ====
section
/-! DEFINITION. The rows of charts (R216 to R218) and of configuration transactions (R220 to R228). -/

namespace Sys2Proof.Machine

/-- A partition torn down to its end at once, for a forced LOAD (R216, R490). -/
def tearNow (m : Mach) (p : Nat) : Mach := (m.tear p).teardownDone p

/-- CHART_LOAD (R216). -/
def execChartLoad (chart : Fin 4) (force : Bool) (s : State) : Res := s.withM (s.m.chartStart 1 chart force)
/-- CHART_WRITE (R216, R218): the fetch goes out through the PF of the port that wrote the command. -/
def execChartWrite (chart : Fin 4) (port : PortId) (s : State) : Res := s.withM (s.m.chartWriteStart chart port)
/-- CHART_ERASE (R216). -/
def execChartErase (chart : Fin 4) (s : State) : Res := s.withM (s.m.chartStart 3 chart false)
/-- CHART_REVERT (R216). -/
def execChartRevert (chart : Fin 4) (s : State) : Res := s.withM (s.m.chartStart 4 chart false)
/-- CHART_COMMAND_DONE (R216, R218): fetched and flashOk say how the fetch and the read-back of the flash went. -/
def execChartCommandDone (fetched flashOk : Bool) (s : State) : Res := .next (s.chartDone fetched flashOk tearNow)
/-- TXN_BEGIN (R224). -/
def execTxnBegin (o : OwnerId) (s : State) : Res := s.withM (s.m.txBegin o)
/-- TXN_WDATA (R220, R221). -/
def execTxnWdata (o : OwnerId) (value : Word) (s : State) : Res := s.withM (s.m.txWrite o value)
/-- TXN_DELTA_LEN (R223). -/
def execTxnDeltaLen (o : OwnerId) (port : PortId) (len : BitVec 25) (s : State) : Res := s.withM (s.m.txDelta o port len.toNat)
/-- DELTA_VERIFY_DONE (R223). -/
def execDeltaVerifyDone (o : OwnerId) (fetched : Bool) (s : State) : Res := s.withM (s.m.txVerified s.nv o fetched)
/-- TXN_COMMIT (R224). -/
def execTxnCommit (o : OwnerId) (timeout : BitVec 20) (s : State) : Res := s.withM (s.m.txCommit o timeout.toNat)
/-- TXN_ABORT (R224). -/
def execTxnAbort (o : OwnerId) (s : State) : Res := s.withM (s.m.txAbort o)
/-- TXN_VALIDATION_DONE (R225). -/
def execTxnValidationDone (o : OwnerId) (s : State) : Res := s.withM (s.m.txValidated o)
/-- TXN_APPLY (R227, R228). -/
def execTxnApply (o : OwnerId) (s : State) : Res := s.withM (s.m.txApply o)
/-- TXN_HOLD_TIMEOUT (R224). -/
def execTxnHoldTimeout (o : OwnerId) (s : State) : Res := s.withM (s.m.txTimeout o)

end Sys2Proof.Machine
end

