-- ==== Sys2Proof/Machine/Checkpoint.lean ====
section
/-! DEFINITION. The rows of checkpoints, rollback, the training hierarchy and BULK (R418, R579 to R591). -/

namespace Sys2Proof.Machine

/-- CHECKPOINT_NOW (R580). -/
def execCheckpointNow (part : PartId) (s : State) : Res :=
  s.withM (if s.m.accepts then s.m.setCkpt (part.val + 1) { s.m.ckpt (part.val + 1) with nowReq := true } else s.m)
/-- CHECKPOINT_COPY_DONE (R581). -/
def execCheckpointCopyDone (part : PartId) (s : State) : Res := s.withM (s.m.ckCopied (part.val + 1))
/-- CHECKPOINT_DRAIN_DONE (R583, R584). -/
def execCheckpointDrainDone (part : PartId) (good : Bool) (s : State) : Res := s.withM (s.m.ckDrained (part.val + 1) good)
/-- RESTORE (R587). -/
def execCheckpointRestore (part : PartId) (slot : Fin 2) (s : State) : Res :=
  s.withM (if s.m.accepts then s.m.ckRestoreCmd (part.val + 1) slot else s.m)
/-- ROLLBACK (R585). -/
def execRollback (part : PartId) (s : State) : Res := s.withM (if s.m.accepts then s.m.rollbackCmd (part.val + 1) else s.m)
/-- ROLLBACK_RESTORE_DONE (R585). -/
def execRollbackRestoreDone (part : PartId) (s : State) : Res := s.withM (s.m.rollbackDone (part.val + 1))

/-- A hierarchy message of a kind. -/
def Mach.hierRx (m : Mach) (h : HierHead) (kind : Nat) : Mach := m.hierIn h.link h.src.toNat h.job.toNat kind h.step.toNat h.arg.toNat
/-- HIER_HEARTBEAT_TIMER (R588). -/
def execHierHeartbeatTimer (part : PartId) (s : State) : Res := s.withM (s.m.hierTimer (part.val + 1))
/-- HIER_HEARTBEAT (R588). -/
def execHierHeartbeat (h : HierHead) (s : State) : Res := s.withM (s.m.hierRx h 1)
/-- GATE (R589). -/
def execGate (h : HierHead) (s : State) : Res := s.withM (s.m.hierRx h 2)
/-- GATE_ALL (R589). -/
def execGateAll (h : HierHead) (s : State) : Res := s.withM (s.m.hierRx h 3)
/-- READY (R589). -/
def execReady (h : HierHead) (s : State) : Res := s.withM (s.m.hierRx h 4)
/-- RELEASE (R589). -/
def execHierRelease (h : HierHead) (s : State) : Res := s.withM (s.m.hierRx h 5)
/-- CHECKPOINT (R589). -/
def execHierCheckpoint (h : HierHead) (s : State) : Res := s.withM (s.m.hierRx h 6)
/-- ROLLBACK of a hierarchy (R590). -/
def execHierRollback (h : HierHead) (s : State) : Res := s.withM (s.m.hierRx h 7)
/-- REPLACE (R590). -/
def execReplace (h : HierHead) (s : State) : Res := s.withM (s.m.hierRx h 8)
/-- JOINED (R590). -/
def execJoined (h : HierHead) (s : State) : Res := s.withM (s.m.hierRx h 9)
/-- RESUME of a hierarchy (R590). -/
def execHierResume (h : HierHead) (s : State) : Res := s.withM (s.m.hierRx h 10)
/-- FAULTED (R590). -/
def execHierFaulted (h : HierHead) (s : State) : Res := s.withM (s.m.hierRx h 11)
/-- WORKER_HEARTBEAT_MISS (R590). -/
def execWorkerHeartbeatMiss (part : PartId) (worker : ModuleId) (s : State) : Res := s.withM (s.m.workerMiss (part.val + 1) worker.toNat)
/-- MANAGER_HEARTBEAT_MISS (R591). -/
def execManagerHeartbeatMiss (part : PartId) (s : State) : Res := s.withM (s.m.managerMiss (part.val + 1))
/-- MGR_TIMEOUT (R591). -/
def execMgrTimeout (part : PartId) (s : State) : Res := s.withM (s.m.managerGone (part.val + 1))
/-- BULK of checkpoints and spare modules (R418, R582, R590). -/
def execBulk (link : LinkId) (src : ModuleId) (job : BitVec 16) (body : BulkBody) (poisoned : Bool) (s : State) : Res :=
  s.withM (s.m.bulkIn link src.toNat job.toNat body poisoned)

end Sys2Proof.Machine
end

