-- ==== Sys2Proof/Machine/Collect.lean ====
section
/-! DEFINITION. The rows of the collective engine: entries that start (R435 to R443), messages that arrive, deadlines and timeouts. -/

namespace Sys2Proof.Machine

/-- ALL_REDUCE (R438, R439): the entry at the front of the ring starts. -/
def execAllReduce (part : PartId) (s : State) : Res := s.withM (s.m.collStart (part.val + 1) coAllReduce)
/-- REDUCE_SCATTER (R438). -/
def execReduceScatter (part : PartId) (s : State) : Res := s.withM (s.m.collStart (part.val + 1) coReduceScatter)
/-- ALL_GATHER (R443). -/
def execAllGather (part : PartId) (s : State) : Res := s.withM (s.m.collStart (part.val + 1) coAllGather)
/-- BROADCAST (R443). -/
def execBroadcast (part : PartId) (s : State) : Res := s.withM (s.m.collStart (part.val + 1) coBroadcast)
/-- REDUCE (R438). -/
def execReduce (part : PartId) (s : State) : Res := s.withM (s.m.collStart (part.val + 1) coReduce)
/-- ALL_TO_ALL (R443). -/
def execAllToAll (part : PartId) (s : State) : Res := s.withM (s.m.collStart (part.val + 1) coAllToAll)
/-- SEND (R443). -/
def execSend (part : PartId) (s : State) : Res := s.withM (s.m.collStart (part.val + 1) coSend)
/-- RECV (R443). -/
def execRecv (part : PartId) (s : State) : Res := s.withM (s.m.collStart (part.val + 1) coRecv)
/-- BARRIER as an entry (R443). -/
def execCollectiveBarrier (part : PartId) (s : State) : Res := s.withM (s.m.collStart (part.val + 1) coBarrier)

/-- A message as the engine takes it. -/
def collMsgOf (h : CollHead) (kind : Nat) (nums : List Nat) (bytes : List Byte) (ps : Bool) : CMsg :=
  { kind := kind, axis := h.axis, k := h.k.toNat, own := 0, rank := h.rank, nums := nums, bytes := bytes, poisoned := ps }
/-- A message arrives. -/
def Mach.collRx (m : Mach) (h : CollHead) (kind : Nat) (nums : List Nat) (bytes : List Byte) (ps : Bool) : Mach :=
  m.collIn h.link h.src.toNat h.job.toNat (collMsgOf h kind nums bytes ps)

/-- SHARE (R438, R445). -/
def execShareMsg (h : CollHead) (op dtype : Byte) (count : BitVec 32) (bytes : List Byte) (poisoned : Bool) (s : State) : Res :=
  s.withM (s.m.collRx h cmShare [op.toNat, dtype.toNat, count.toNat] bytes poisoned)
/-- GRANT (R438). -/
def execGrantMsg (h : CollHead) (s : State) : Res := s.withM (s.m.collRx h cmGrant [] [] false)
/-- ACK (R438). -/
def execAckMsg (h : CollHead) (s : State) : Res := s.withM (s.m.collRx h cmAck [] [] false)
/-- DONE (R441). -/
def execDoneMsg (h : CollHead) (s : State) : Res := s.withM (s.m.collRx h cmDone [] [] false)
/-- SET (R439, R441). -/
def execSetMsg (h : CollHead) (counted stale : List (Fin 4096)) (n : BitVec 16) (s : State) : Res :=
  let big := s.m.axisSize (s.m.jobPart h.job.toNat) h.axis
  s.withM (s.m.collRx h cmSet [n.toNat] (rankMap big (counted.map (fun r => r.val)) ++ rankMap big (stale.map (fun r => r.val))) false)
/-- RESULT (R439, R440). -/
def execResultMsg (h : CollHead) (figs : List CollFig) (bytes : List Byte) (poisoned : Bool) (s : State) : Res :=
  s.withM (s.m.collRx h cmResult (figs.flatMap (fun f => [f.entry.toNat, f.gsq.toNat, f.nonfinite.toNat])) bytes poisoned)
/-- ABORT (R446). -/
def execAbortMsg (h : CollHead) (s : State) : Res := s.withM (s.m.collRx h cmAbort [] [] false)
/-- BARRIER as a message (R443). -/
def execBarrierMsg (h : CollHead) (answer : Bool) (s : State) : Res := s.withM (s.m.collRx h cmBarrier [b2n answer] [] false)
/-- SEND_RTS (R443). -/
def execSendRts (h : CollHead) (nth count : BitVec 32) (dtype : Byte) (s : State) : Res :=
  s.withM (s.m.collRx h cmRts [nth.toNat, count.toNat, dtype.toNat] [] false)
/-- SEND_CTS (R443). -/
def execSendCts (h : CollHead) (peerK : BitVec 32) (dst : Word) (s : State) : Res :=
  s.withM (s.m.collRx h cmCts [peerK.toNat, dst.toNat] [] false)
/-- SEND_DATA (R443, R444). -/
def execSendData (h : CollHead) (bytes : List Byte) (poisoned : Bool) (s : State) : Res :=
  s.withM (s.m.collRx h cmData [] bytes poisoned)

/-- COLLECTIVE_TIMEOUT (R447). -/
def execCollectiveTimeout (part : PartId) (s : State) : Res := s.withM (s.m.collTimeout (part.val + 1))
/-- STRAGGLER_DEADLINE (R317). -/
def execStragglerDeadline (part : PartId) (s : State) : Res := s.withM (s.m.collDeadline (part.val + 1))

end Sys2Proof.Machine
end

