-- ==== Sys2Proof/Machine/Conduit.lean ====
section
/-! DEFINITION. The commands of the conduits and the Louvres (06). -/

namespace Sys2Proof.Machine

/-! ### Opening and closing (R277, R278) -/

/-- RESET (R277, R281): taken at the partition's next step boundary, at once where it has no command started (R226); while the conduit is frozen
it waits. -/
def Mach.cdResetCmd (m : Mach) (c : Nat) : Mach :=
  let st := m.cdState c
  if st = cdOpen ∨ st = cdDraining ∨ st = cdHalted then
    let m := m.setCond c { m.cond c with resetReq := true }
    if m.anyStarted (m.cdPart c) || m.cdFrozen c then m else m.resetConduits (m.cdPart c)
  else m

/-- CONDUIT_OPEN (R278). -/
def execConduitOpen (c : ConduitId) (s : State) : Res := s.withM (if s.m.accepts then s.m.cdOpenCmd c else s.m)
/-- CONDUIT_CLOSE (R277). -/
def execConduitClose (c : ConduitId) (s : State) : Res := s.withM (if s.m.accepts then s.m.cdCloseCmd c else s.m)
/-- CONDUIT_RESET (R277). -/
def execConduitReset (c : ConduitId) (s : State) : Res := s.withM (if s.m.accepts then s.m.cdResetCmd c else s.m)

/-- PEER_OPEN_REPLY (R275): the exchange of OPEN reaches this side. -/
def execPeerOpenReply (c : ConduitId) (r : PeerReply) (s : State) : Res :=
  let m := s.m
  s.withM (if m.cdState c = cdClosed then m.peerAsks c r else if m.cdFrozen c then m.cdHold c (.reply r)
    else if m.cdState c = cdOpening then m.peerReply c r else m.peerAsks c r)

/-- OPENING_TIMEOUT (R277): no answer within 10 ms. -/
def execOpeningTimeout (c : ConduitId) (s : State) : Res :=
  let m := s.m
  s.withM (if m.cdState c = cdOpening ∧ !m.cdFrozen c ∧ (m.cond c).openedAt + 10000000 ≤ m.now then (m.setCond c Cond.init).setCdState c cdClosed lvPeerTimeout
    else m)

/-! ### Frames at a Louvre (R242 to R246) -/

/-- A frame at the head of a route that ends at a Louvre (R242): die, partition of the route, transfer. -/
def Mach.frameAt (m : Mach) (rt : Nat) : Option (Nat × Nat × Xfer) :=
  match m.conf.cfg.route rt, m.xfersOf rt with
  | some e, x :: _ => if routeDst e / 4096 = 1 then some (routeDst e % 4096, leAt e 3 1, x) else none
  | _, _ => none

/-- What becomes of a frame before its own checks: it waits, is discarded, or reaches a running conduit (R245, R246, R277). One that names
another partition's conduit is discarded and halts nothing: R3 keeps what a partition's software breaks inside it (log entry 55). -/
def Mach.intake (m : Mach) (rt : Nat) (types : Nat → Bool) (act : Mach → Nat → Nat → List Byte → Bool → Mach) : Mach :=
  m.throughRoute rt (fun m =>
  match m.frameAt rt with
  | none => m
  | some (die, p, x) =>
    let c := leAt x.bytes 28 1
    if !types (leAt x.bytes 30 1) then m
    else if 64 ≤ c ∨ m.cdPart c ≠ p then (m.popXfer rt).lvrDiscard die
    else if m.cdFrozen c || m.core.stopped.contains (isl 1 die) then m
    else if m.cdState c ≠ cdOpen ∧ m.cdState c ≠ cdDraining then (m.popXfer rt).lvrDiscard die
    else act m c die x.bytes x.poisoned)

/-- TEACHER_SHARD (R244): the frame at the head of a route reaches the emit half. -/
def Mach.teacherShard (m : Mach) (rt : Nat) : Mach :=
  m.intake rt (fun t => t == 0 || decide (3 < t)) (fun m c die bs ps =>
    let x := m.cond c
    if m.cdEmit c ≠ some die ∨ leAt bs 30 1 ≠ 0 then (m.popXfer rt).cdHalt c lvShard
    else match placeShard x.trows (x.trows.length + x.ready.length) (m.cdSlots true die (m.fld R.LVR_CCTL_VOCAB [c])) (m.fld R.LVR_CCTL_VOCAB [c])
        (m.cdState c == cdDraining) bs ps with
      | .waits => m
      | .discarded => (m.popXfer rt).lvrDiscard die
      | .invalid => (m.popXfer rt).cdHalt c lvShard
      | .joins rows => ((m.popXfer rt).setCond c { x with trows := rows }).cdSync c)

/-- RECORD_READY (R247, R251): the oldest open row, once complete, becomes a record. -/
def Mach.recordReady (m : Mach) (c : Nat) : Mach :=
  let x := m.cond c
  match x.trows with
  | [] => m
  | r :: l =>
    if !m.cdRuns c || !r.complete then m
    else
      let (bs, nf, sh) := emitRecord x.k x.temp (if m.cdRemote c then m.fld R.LVR_CREMOTE_PEER_CONDUIT [c] else c) r.step r.seqId r.pos r.values
      let m := (m.addSat R.LVR_CCOUNT_NONFINITE [c] (b2n nf)).addSat R.LVR_CCOUNT_SHORT [c] (b2n sh)
      ((m.setCond c { x with trows := l, ready := x.ready ++ [{ bytes := bs, poisoned := r.poisoned }] }).cdPump c).cdDrained c

/-- CREDIT_RETURN (R260): a returned credit reaches the emit half. -/
def Mach.creditBack (m : Mach) (c : Nat) : Mach :=
  let x := m.cond c
  if x.crets = 0 ∨ !m.cdRuns c then m
  else (((m.setCond c { x with crets := x.crets - 1 }).addWrap R.LVR_CSTATE_CREDITS [c] 1).cdPump c).cdDrained c

/-- RECORD_ARRIVAL (R261): the oldest record on its way arrives; over a failed direction records are discarded (R42). -/
def Mach.recordArrives (m : Mach) (c : Nat) : Mach :=
  let x := m.cond c
  match x.flight with
  | [] => m
  | r :: l =>
    match m.cdRoute c with
    | none => m
    | some e =>
      if m.routeDead e then m.setCond c { x with flight := [] }
      else if !m.cdRuns c || m.routeTested e then m
      else (m.clearTests (leAt e 0 2)).setCond c { x with flight := l } |>.recordIn c r

/-- QUEUED_RECORD_READBACK (R261): the bytes of the record, which may be shorter than its slot (R253). -/
def Mach.readback (m : Mach) (c : Nat) : Mach :=
  let x := m.cond c
  let queued := m.fld R.LVR_CSTATE_QUEUED [c]
  if queued = 0 ∨ 4 ≤ x.rbuf.length ∨ !m.cdRuns c then m
  else
    let (hd, _) := m.getTransom (m.cdPart c) (m.recOff c x.qhead) 32
    let (bs, ps) := m.getTransom (m.cdPart c) (m.recOff c x.qhead) (slotBytes (min x.k (leAt hd 12 2)))
    ((m.setCond c { x with rbuf := x.rbuf ++ [{ bytes := bs, poisoned := ps }], qhead := (x.qhead + 1) % max 1 x.limit }).setFld
      R.LVR_CSTATE_QUEUED [c] (queued - 1)).cdPair c

/-- Whether a student shard's gradient route is one R245 allows. -/
def Mach.retOk (m : Mach) (c die : Nat) (bs : List Byte) : Bool :=
  match m.conf.cfg.route (leAt bs 32 2) with
  | some e => leAt e 2 1 == 1 && leAt e 3 1 == m.cdPart c && routeSrc e == isl 1 die && decide (routeDst e < 4096) && leAt bs 40 8 % 64 == 0 &&
      decide (leAt bs 40 8 + 4 * leAt bs 20 4 ≤ 2 ^ 22)
  | none => false

/-- STUDENT_SHARD (R264): the frame at the head of a route reaches the loss half. -/
def Mach.studentShard (m : Mach) (rt : Nat) : Mach :=
  m.intake rt (fun t => t == 1) (fun m c die bs ps =>
    let x := m.cond c
    if m.cdLoss c ≠ some die ∨ !m.retOk c die bs then (m.popXfer rt).cdHalt c lvShard
    else match placeShard x.srows (m.lossTaken c die) (m.cdSlots false die (m.fld R.LVR_CCTL_VOCAB [c])) (m.fld R.LVR_CCTL_VOCAB [c])
        (m.cdState c == cdDraining) bs ps with
      | .waits => m
      | .discarded => (m.popXfer rt).lvrDiscard die
      | .invalid => (m.popXfer rt).cdHalt c lvShard
      | .joins rows => (((m.popXfer rt).setCond c { x with srows := rows }).cdSync c).cdPair c)

/-- A transfer of a conduit over a route (R268, R256). -/
def Mach.cdXfer (m : Mach) (c kind rt off : Nat) (bs : List Byte) : Mach :=
  m.setXfers rt (m.xfersOf rt ++ [{ part := 0, pane := cdSender c, queue := kind, src := .core 0 0, sealNo := 0, offset := off, bytes := bs, more := false, poisoned := false, tags := [], retries := [] }])

/-- LOSS_PASS2_START (R264, R265, R272): the oldest record and the oldest student row are both there. -/
def Mach.pass2 (m : Mach) (c : Nat) : Mach :=
  let x := m.cond c
  match x.rbuf, x.srows with
  | r :: _, row :: _ =>
    if !m.cdRuns c || x.pass.isSome then m
    else if !r.pairs row then m.cdHalt c lvMismatch
    else if !row.complete then m
    else
      let cfg : LossCfg := { wkd := f32 (m.fld R.LVR_CWEIGHT_W_KD [c]), alpha := f32 (m.fld R.LVR_CWEIGHT_ALPHA [c]), hard := m.flag R.LVR_CCTL_HARD [c],
                             nf := x.nf, vocab := m.fld R.LVR_CCTL_VOCAB [c] }
      let ps := r.poisoned || row.poisoned
      let label := (row.sorted.head?.map (fun s => s.label)).getD 0xFFFFFFFF
      let o := lossRow cfg r.bytes ps label row.values
      let m := (m.addSat R.LVR_CCOUNT_TAIL_CLAMP [c] (b2n o.clamped)).addSat R.LVR_CCOUNT_POISONED [c] (b2n ps)
      let m := (row.sorted.zip o.grads).foldl (fun m g => m.cdXfer c 0 g.1.route g.1.offset (packElems 32 (g.2.map toF32))) m
      m.setCond c { m.cond c with pass := some (leBytes 4 row.step ++ leBytes 4 row.seqId ++ leBytes 4 row.pos ++ leBytes 2 o.flags ++ leBytes 2 0 ++
        leBytes 4 (toF32 o.kl) ++ leBytes 4 (toF32 o.ce) ++ leBytes 4 (toF32 o.loss) ++ leBytes 4 0) }
  | _, _ => m

/-- LOSS_ROW_COMPLETE (R269): every gradient shard is delivered; the loss entry is written and the credit goes back. -/
def Mach.lossRowDone (m : Mach) (c : Nat) : Mach :=
  let x := m.cond c
  match x.pass with
  | none => m
  | some bs =>
    if m.cdInFlight c 0 || !m.cdRuns c then m
    else
      let n := m.fld R.LVR_CLRING_ENTRIES [c]
      let i := m.fld R.LVR_CROWS_LOSS_ROWS [c]
      let m := if n = 0 then m else m.putTransom (m.cdPart c) (m.fld R.LVR_CLRING_BASE [c] * 64 + i % n * 32) bs false
      let m := m.setCond c { x with pass := none, rbuf := x.rbuf.drop 1, srows := x.srows.drop 1 }
      ((((m.addWrap R.LVR_CROWS_LOSS_ROWS [c] 1).cdReturnCredit c).cdSync c).cdPair c).cdDrained c

/-! ### Taps (R255 to R258) -/

/-- Whether the scaled tensor of a tap frame passes R62 in E4M3 or E5M2 (R255). -/
def tapTensorOk (bs : List Byte) : Bool :=
  let hd := (bs.drop 64).take 64
  let code := bits (leAt hd 4 1) 3 0
  (code == 2 || code == 3) && (match fmtOf code with
                               | some f => headerOk hd code f
                               | none => false)

/-- TAP_FRAME (R255, R256): the frame at the head of a route reaches the emit half and is forwarded while a tap credit is
free. -/
def Mach.tapFrame (m : Mach) (rt : Nat) : Mach :=
  m.intake rt (fun t => t == 2) (fun m c die bs ps =>
    let t := leAt bs 31 1
    let x := m.cond c
    let v := x.tap t
    if m.cdEmit c ≠ some die ∨ !(m.cdTaps c).contains t ∨ !tapTensorOk bs ∨ m.tapSlot c t < 64 + leAt bs 20 4 then (m.popXfer rt).cdHalt c lvShard
    else if m.fld R.LVR_TAP_SLOTS [c, t] ≤ v.used ∨ !m.cdCanSend c then m
    else
      let m := (m.popXfer rt).setCond c (x.setTap t { v with used := v.used + 1 })
      let f := bs.take (64 + leAt bs 20 4)
      if m.cdRemote c then m.cdSend c 0x31 f ps else m.tapIn c t f ps)

/-- TAP_FRAME_DELIVERY (R256, R257, R271): the oldest queued frame of a tap goes to its landing slot. -/
def Mach.tapDeliver (m : Mach) (c t : Nat) : Mach :=
  let x := m.cond c
  let v := x.tap t
  let slots := max 1 (m.fld R.LVR_TAP_SLOTS [c, t])
  if !m.cdRuns c || v.queued ≤ v.delivered || slots ≤ v.occupied || !m.cdCanSend c then m
  else
    let off := m.tapOff c t (v.delivered % slots)
    let (hd, _) := m.getTransom (m.cdPart c) off 64
    let (bs, ps) := m.getTransom (m.cdPart c) off (64 + leAt hd 20 4)
    let bs := if ps then bs.take 64 ++ leBytes 4 (toF32 .nan) ++ bs.drop 68 else bs
    let m := m.addSat R.LVR_CCOUNT_POISONED [c] (b2n ps)
    let m := m.cdXfer c 1 (m.fld R.LVR_TAP_ROUTE [c, t]) (m.fld R.LVR_TAP_OFFSET [c, t] * 64 + v.delivered % slots * m.tapSlot c t) bs
    let m := m.setCond c (x.setTap t { v with delivered := v.delivered + 1, occupied := v.occupied + 1 })
    if m.cdRemote c then m.cdSend c 0x32 (leBytes 1 t ++ leBytes 2 1) false else m.tapCredit c t 1

/-- TAP_RELEASE (R257): the release frame at the head of a route frees landing slots. -/
def Mach.tapRelease (m : Mach) (rt : Nat) : Mach :=
  m.intake rt (fun t => t == 3) (fun m c die bs _ =>
    let t := leAt bs 31 1
    let n := leAt bs 34 2
    let x := m.cond c
    let v := x.tap t
    if m.cdLoss c ≠ some die ∨ !(m.cdTaps c).contains t ∨ n = 0 ∨ v.occupied < n then (m.popXfer rt).cdHalt c lvShard
    else (m.popXfer rt).setCond c (x.setTap t { v with occupied := v.occupied - n }))

/-! ### Link loss and messages (R274, R276) -/

/-- CONDUIT_LINK_LOST (R276): the link of a remote conduit has left UP and DEGRADED, whether or not it is back. -/
def Mach.cdLinkLost (m : Mach) (c : Nat) : Mach := if m.cdLost c then m.cdHalt c lvLink else m

/-- TEACHER_SHARD (R244). -/
def execTeacherShard (route : RouteId) (s : State) : Res := s.withM (s.m.teacherShard route)
/-- RECORD_READY (R251). -/
def execRecordReady (c : ConduitId) (s : State) : Res := s.withM (s.m.recordReady c)
/-- CREDIT_RETURN (R260). -/
def execCreditReturn (c : ConduitId) (s : State) : Res := s.withM (s.m.creditBack c)
/-- RECORD_ARRIVAL (R261). -/
def execRecordArrival (c : ConduitId) (s : State) : Res := s.withM (s.m.recordArrives c)
/-- QUEUED_RECORD_READBACK (R261). -/
def execQueuedRecordReadback (c : ConduitId) (s : State) : Res := s.withM (s.m.readback c)
/-- STUDENT_SHARD (R264). -/
def execStudentShard (route : RouteId) (s : State) : Res := s.withM (s.m.studentShard route)
/-- LOSS_PASS2_START (R272). -/
def execLossPass2Start (c : ConduitId) (s : State) : Res := s.withM (s.m.pass2 c)
/-- LOSS_ROW_COMPLETE (R269). -/
def execLossRowComplete (c : ConduitId) (s : State) : Res := s.withM (s.m.lossRowDone c)
/-- TAP_FRAME (R255). -/
def execTapFrame (route : RouteId) (s : State) : Res := s.withM (s.m.tapFrame route)
/-- TAP_FRAME_DELIVERY (R256). -/
def execTapFrameDelivery (c : ConduitId) (tap : Fin 8) (s : State) : Res := s.withM (s.m.tapDeliver c tap)
/-- TAP_RELEASE (R257). -/
def execTapRelease (route : RouteId) (s : State) : Res := s.withM (s.m.tapRelease route)
/-- CONDUIT_LINK_LOST (R276). -/
def execConduitLinkLost (c : ConduitId) (s : State) : Res := s.withM (s.m.cdLinkLost c)

/-- A conduit message of a job reaches its conduit: its unit takes it, and it counts only for a conduit of the job's partition on the link
of that conduit's ROUTE (R274, R276); where no partition holds its JOB, UNREACHABLE goes back to its source (R431). -/
def Mach.cdMessage (m : Mach) (n src job mtype c : Nat) (act : Mach → Mach) : Mach :=
  if m.jobShut job then m else
  let m := m.consumed n clConduit
  if m.jobPart job = 0 then (m.addSat R.MRD_STAT_UNCLAIMED [] 1).unreachable src job mtype c
  else if m.jobPart job ≠ m.cdPart c ∨ m.cdLink c ≠ some n then m.addSat R.MRD_STAT_UNCLAIMED [] 1
  else if m.cdRemote c && m.cdState c != cdClosed then act m else m

/-- CONDUIT_REC (R274): a remote record arrives at the loss module. -/
def execConduitRec (sent : MsgFrom) (job : BitVec 16) (c : ConduitId) (bytes : List Byte) (poisoned : Bool) (s : State) : Res :=
  s.withM (s.m.cdMessage sent.link sent.src.toNat job.toNat 0x30 c (fun m =>
    if (m.cdLoss c).isSome then m.setCond c { m.cond c with flight := (m.cond c).flight ++ [{ bytes := bytes, poisoned := poisoned }] } else m))
/-- CONDUIT_TAP (R274): a remote tap frame arrives at the loss module. -/
def execConduitTap (sent : MsgFrom) (job : BitVec 16) (c : ConduitId) (bytes : List Byte) (poisoned : Bool) (s : State) : Res :=
  s.withM (s.m.cdMessage sent.link sent.src.toNat job.toNat 0x31 c (fun m =>
    if (m.cdLoss c).isNone then m
    else if m.cdFrozen c then m.cdHold c (.tap (leAt bytes 31 1) bytes poisoned) else m.tapIn c (leAt bytes 31 1) bytes poisoned))
/-- CONDUIT_REL (R274): released tap slots arrive at the emit module. -/
def execConduitRel (sent : MsgFrom) (job : BitVec 16) (c : ConduitId) (tap : Fin 8) (count : BitVec 8) (s : State) : Res :=
  s.withM (s.m.cdMessage sent.link sent.src.toNat job.toNat 0x32 c (fun m =>
    if (m.cdEmit c).isNone then m
    else if m.cdFrozen c then m.cdHold c (.credit tap count.toNat) else m.tapCredit c tap count.toNat))
/-- CONDUIT_CREDIT (R274): a credit arrives at the emit module, or the peer's RESET ends this side (R277). -/
def execConduitCredit (sent : MsgFrom) (job : BitVec 16) (c : ConduitId) (reset : Bool) (s : State) : Res :=
  s.withM (s.m.cdMessage sent.link sent.src.toNat job.toNat 0x33 c (fun m =>
    if reset then (if m.cdFrozen c then m.cdHold c .reset else m.cdClose c lvOk)
    else if (m.cdEmit c).isSome then m.setCond c { m.cond c with crets := (m.cond c).crets + 1 } else m))

end Sys2Proof.Machine
end

