-- ==== Sys2Proof/Machine/Copy.lean ====
section
/-! DEFINITION. The rows of the copy engine: COPY and COPY_COMPLETE (R161, R162, R165). -/

namespace Sys2Proof.Machine

/-- A line of HBM that a copy reads. -/
def Plan.reads (g : Plan) (e : LineErr) : Bool :=
  let k := frameKey e.frame (e.line.val * 64)
  g.src.any (fun s => decide (s.1 < k + 64) && decide (k < s.1 + s.2))
/-- The start of a copy with what the symbol code finds in the lines it reads (R373 to R380). -/
def Mach.copyStart (m : Mach) (pane : Nat) (q : QCmd) (hits : List LineErr) : Except Nat Mach :=
  match m.copyPlan pane q with
  | .error e => .error e
  | .ok g =>
    let m := (hits.filter (fun e => g.reads e)).foldl (fun m e => m.lineErr e) m
    if m.pstate q.part = psActive ∨ m.pstate q.part = psDraining then m.copyGo pane q else .error cAborted
/-- COPY: the head of the copy queue starts. -/
def execCopy (pane : PaneId) (hits : List LineErr) (s : State) : Res :=
  s.withM (if s.m.headTested pane .copy then s.m else s.m.startHead pane .copy (fun m q => m.orCut pane q (m.copyStart pane q hits)))
/-- COPY_COMPLETE: the last write of a copy is visible; over a route once it is delivered, over a host port once that is up (R476). -/
def Mach.copyDone (m : Mach) (pane i : Nat) : Mach :=
  let p := m.pane pane
  match p.cruns[i]? with
  | none => m
  | some r =>
    if m.core.stopped.contains pane || !m.running || m.hasXfers pane r.cmd || m.copyStuck pane r.cmd then m
    else (m.setPane pane { p with cruns := p.cruns.eraseIdx i }).copyEnd pane r
/-- COPY_COMPLETE (R165). -/
def execCopyComplete (pane : PaneId) (index : Fin 4) (s : State) : Res := s.withM (s.m.copyDone pane index)

end Sys2Proof.Machine
end

