-- ==== Sys2Proof/Machine/Counters.lean ====
section
/-! DEFINITION. The rows of counter samples and of trace (R516 to R529). -/

namespace Sys2Proof.Machine

/-- COUNTER_SAMPLE (R517): late says that the previous record is still being written. -/
def execCounterSample (o : OwnerId) (late : Bool) (s : State) : Res := s.withM (s.m.counterSample o late)
/-- TRACE_ARM (R524). -/
def execTraceArm (o : OwnerId) (s : State) : Res := s.withM (if s.m.accepts then s.m.traceArm o else s.m)
/-- TRACE_TRIGGER (R525). -/
def execTraceTrigger (o : OwnerId) (s : State) : Res := s.withM (if s.m.accepts then s.m.traceTrigger o else s.m)
/-- TRACE_DISARM (R524). -/
def execTraceDisarm (o : OwnerId) (s : State) : Res := s.withM (if s.m.accepts then s.m.traceDisarm o else s.m)
/-- TRACE_TIME_TRIGGER (R525). -/
def execTraceTimeTrigger (o : OwnerId) (s : State) : Res := s.withM (if s.m.running then s.m.traceTime o else s.m)
/-- TRACE_RECORD_WRITE (R526, R528). -/
def execTraceRecordWrite (o : OwnerId) (pane : PaneId) (s : State) : Res := s.withM (s.m.traceDrain o pane)

end Sys2Proof.Machine
end

