-- ==== Sys2Proof/Machine/Fabric.lean ====
section
/-! DEFINITION. The rows of the fabric: TRANSFER_DELIVERY, BRIDGE_CRC_MISMATCH, BRIDGE_WIRE_TEST_DONE (R36, R42). -/

namespace Sys2Proof.Machine

/-- TRANSFER_DELIVERY (R36). -/
def execTransferDelivery (route : RouteId) (s : State) : Res := s.withM (s.m.deliver route)
/-- BRIDGE_CRC_MISMATCH (R42). -/
def execBridgeCrcMismatch (route : RouteId) (edge : EdgeId) (reverse : Bool) (s : State) : Res :=
  s.withM (s.m.crcMismatch route (edge.val * 2 + b2n reverse))
/-- BRIDGE_WIRE_TEST_DONE (R42). -/
def execBridgeWireTestDone (edge : EdgeId) (reverse : Bool) (found : WireTest) (s : State) : Res :=
  s.withM (s.m.wireTested (edge.val * 2 + b2n reverse) (found.map (fun w => w.val)))

end Sys2Proof.Machine
end

