-- ==== Sys2Proof/Machine/Faults.lean ====
section
/-! DEFINITION. The rows of fault handling: HANDLER_START, PANE_FAILURE, REPAIR_QUIET_POINT, SHARED_REGION_REPAIR_DONE (R560 to R578). -/

namespace Sys2Proof.Machine

/-- HANDLER_START (R567). -/
def execHandlerStart (e : FaultEvent) (s : State) : Res := s.withM (if s.m.fld R.ERR_MSTATE_STATE [] = 0 then s.m.faultEvent e else s.m)
/-- PANE_FAILURE (R571, R572). -/
def execPaneFailure (pane : PaneId) (s : State) : Res := s.withM (if s.m.running then s.m.paneFail pane else s.m)
/-- REPAIR_QUIET_POINT (R573). -/
def execRepairQuietPoint (part : PartId) (s : State) : Res := s.withM (s.m.repairQuiet (part.val + 1))
/-- SHARED_REGION_REPAIR_DONE (R576). -/
def execSharedRegionRepairDone (good : Bool) (s : State) : Res := s.withM (if s.m.running then s.m.regionRepaired good else s.m)

end Sys2Proof.Machine
end

