-- ==== Sys2Proof/Machine/Hosts.lean ====
section
/-! DEFINITION. Host traffic outside the contract (R13, R50, R460, R474) and MCTP (R477, R478). -/

namespace Sys2Proof.Machine

/-- A counted access of a function of a port (R451, R474): its register, and one record a second. A VF that no partition names keeps its
count until one names it, and has no queue for a record. -/
def Mach.hostCount (m : Mach) (port fn off : Nat) (unmapped : Bool) : Mach :=
  let p := if fn = 0 then 0 else m.conf.cfg.vfPart port fn
  if fn ≠ 0 ∧ p = 0 then m.stray port fn off
  else
    let m := if fn = 0 then
        (m.addSat (if unmapped then R.PRT_HOSTERR_UNMAPPED else R.PRT_HOSTERR_BADACCESS) [port] 1).setFld R.PRT_HOSTERR_LAST_OFFSET [port] off
      else (m.addSat (if unmapped then R.HTC_HOSTERR_UNMAPPED else R.HTC_HOSTERR_BADACCESS) [p] 1).setFld R.HTC_HOSTERR_LAST_OFFSET [p] off
    m.hostMisuse p port fn

/-- Whether the endpoint serves a message (R477): MCTP control, PLDM of types 0, 2 and 5, SPDM 1.2 once READY. Where PLDM and SPDM hold their type
and version is theirs to say (log entry 37). -/
def mctpServed (g : McMsg) (ready : Bool) : Bool :=
  let pldm := leAt g.bytes 1 1 % 64
  let version := leAt g.bytes 0 1
  g.kind == 0 || (g.kind == 1 && [0, 2, 5].contains pldm) ||
    (g.kind == 5 && ready && (version == 0x12 || (version == 0x10 && leAt g.bytes 1 1 == 0x84)))
/-- A message goes out in transmission units of 64 bytes (R477). -/
def Mach.mctpSend (m : Mach) (medium : Nat) (bs : List Byte) : Mach :=
  ((List.range ((bs.length + 63) / 64)).map (fun i => (bs.drop (64 * i)).take 64)).foldl (fun m u => m.emit (.mctp medium u)) m
/-- A message of the MCTP endpoint counted as one it does not serve (R478). -/
def Mach.mctpCount (m : Mach) (g : McMsg) : Mach :=
  let m := m.addSat R.PRT_HOSTERR_BADACCESS [g.medium] 1
  if g.medium.val = 2 then m.setFld R.PRT_HOSTERR_LAST_OFFSET [2] g.smb.toNat else m
/-- An MCTP message (R477, R478, R638): answered, answered with an error or discarded. -/
def Mach.mctp (m : Mach) (g : McMsg) : Mach :=
  let ph := m.fld R.PRT_STATUS_PHASE []
  let times := (Tbl.get [] m.host.mctpTimes g.medium).filter (fun t => decide (m.now < t + second))
  let key := g.medium.val * 256 + g.eid.toNat
  let served := mctpServed g (ph == phaseReady)
  if ph < 3 then m
  else if 1000 ≤ times.length then m.mctpCount g
  else
    let m := { m with host := { m.host with mctpTimes := Tbl.set [] m.host.mctpTimes g.medium (times ++ [m.now]) } }
    if !served ∨ g.malformed ∨ m.now < Tbl.get 0 m.host.mctpBusy key then
      let m := m.mctpCount g
      match Config.mctpError g.kind.toNat g.bytes with
      | some a => m.mctpSend g.medium a
      | none => m
    else
      let a := Config.mctpAnswer m.freeCtr g.kind.toNat g.bytes
      (({ m with host := { m.host with mctpBusy := Tbl.set 0 m.host.mctpBusy key (m.now + g.takes.toNat) } }).drew).mctpSend g.medium a

/-- OUT_OF_CONTRACT_ACCESS (R13): discarded, or all ones returned; counted. A VF that no partition names reads 0 (R451). -/
def execOutOfContractAccess (port : PortId) (fn : FnId) (offset _width : Nat) (isWrite : Bool) (s : State) : Res :=
  let m := s.m
  s.withM (if !m.hostUp then m
           else
             let stranger := decide (fn.val ≠ 0 ∧ m.conf.cfg.vfPart port fn = 0)
             let m := if stranger && !isWrite then m else m.hostCount port fn offset false
             let v := if stranger then 0 else 2 ^ 64 - 1
             if isWrite then m else m.emit (.readData port fn offset (BitVec.ofNat 64 v)))
/-- UNOCCUPIED_OFFSET_ACCESS (R50): a read returns 0, a write is discarded; counted. -/
def execUnoccupiedOffsetAccess (port : PortId) (fn : FnId) (offset : Nat) (isWrite : Bool) (s : State) : Res :=
  let m := s.m
  s.withM (if !m.hostUp then m
           else
             let stranger := decide (fn.val ≠ 0 ∧ m.conf.cfg.vfPart port fn = 0)
             let m := if stranger && !isWrite then m else m.hostCount port fn offset true
             if isWrite then m else m.emit (.readData port fn offset 0))
/-- UNSUPPORTED_REQUEST (R474, R479). -/
def execUnsupportedRequest (port : PortId) (_fn : FnId) (s : State) : Res := s.withM (s.m.emit (.unsupported port))
/-- MALFORMED_TLP (R474). -/
def execMalformedTlp (port : PortId) (s : State) : Res := s.withM (s.m.emit (.aer port))
/-- MCTP_REQUEST (R478). -/
def execMctpRequest (msg : McMsg) (s : State) : Res := s.withM (s.m.mctp msg)
/-- SET_ENDPOINT_ID (R477): 0 and 0xFF are no endpoint IDs (log entry 28). -/
def execSetEndpointId (eid : BitVec 8) (s : State) : Res :=
  let m := s.m
  s.withM (if eid = 0 ∨ eid = 0xFF ∨ m.fld R.PRT_STATUS_PHASE [] < 3 then m else { m with host := { m.host with endpoint := eid.toNat } })

end Sys2Proof.Machine
end

