-- ==== Sys2Proof/Machine/HostOps.lean ====
section
/-! DEFINITION. Host accesses to registers: where an access of a function lands (R12, R451, R453, R454), which blocks respond (R214, R570, R622), reads that clear (R14, R17), and what a write does to the fields it covers (R14 and the owning chapters). -/

namespace Sys2Proof.Machine

/-! ### Where an access lands -/

/-- Where an access lands: a register by its address in the register map, byte o of global Gazetteer entry g, a hatch (0 to 3) or admission (4)
window, nothing (R50), or a place that reads 0 and discards writes without being counted (R454). -/
inductive HostSpot where
  | reg (a : Nat)
  | entry (g o : Nat)
  | window (win o : Nat)
  | none
  | zero
deriving DecidableEq, Repr

/-- The register at an address, if there is one (R50). -/
def regSpot (a : Nat) : HostSpot := if (regAt a).isSome then .reg a else .none
/-- An aligned offset of the provider's BAR0 (R12): the Gazetteer entries start its GZT block. -/
def pfSpot (off : Nat) : HostSpot :=
  if 2 ^ 28 ≤ off then .none
  else if 0x400000 ≤ off ∧ off < 0x500000 then .entry ((off - 0x400000) / 64) (off % 64)
  else regSpot off
/-- An offset of the LVR view of a partition (R453, R454). -/
def Mach.lvrSpot (m : Mach) (p o : Nat) : HostSpot :=
  let mine (c : Nat) : Bool := m.cdPart c == p
  if o < 0x40 then .zero
  else if 0x1000 ≤ o ∧ o < 0x3000 ∧ !mine ((o - 0x1000) / 128) then .zero
  else if 0x4000 ≤ o ∧ o < 0x5000 ∧ !mine ((o - 0x4000) / 64) then .zero
  else regSpot (0x700000 + o)
/-- An offset of the Gazetteer windows of a partition's VF (R453, R454). -/
def Mach.gztSpot (m : Mach) (p off : Nat) : HostSpot :=
  if off < 0xA0100 then regSpot (0x501000 + p * 0x100 + (off - 0xA0000))
  else if off < 0xA1000 then .none
  else if off < 0xA1800 then
    let n := (off - 0xA1000) / 64
    if m.fld R.GZT_PIPECTL_PARTITION [n] = p then regSpot (0x504000 + (off - 0xA1000)) else .zero
  else if off < 0xB0000 then .none
  else if off < 0xB4000 then
    if bitAt (m.fld R.GZT_PATLAS_SLOTS [p]) ((off - 0xB0000) / 256) then regSpot (0x510000 + (off - 0xB0000)) else .zero
  else if 0xB8000 ≤ off ∧ off < 0xB8200 then
    if bitAt (m.fld R.GZT_PATLAS_SLOTS [p]) ((off - 0xB8000) / 8) then regSpot (0x518000 + (off - 0xB8000)) else .zero
  else .none
/-- The tenant's view of its partition window: PTN_PCMD is absent (12, Registers). -/
def ptnSpot (p o : Nat) : HostSpot := if o < 0x100 ∧ o ≠ 8 then regSpot (0x200000 + p * 0x100 + o) else .none
/-- The windows of a partition's VF that repeat n bytes of a provider window per partition. -/
def repeated (base stride n p o : Nat) : HostSpot := if o < n then regSpot (base + p * stride + o) else .none
/-- An aligned offset of the BAR0 of the VF of partition p (R453). -/
def Mach.vfSpot (m : Mach) (p off : Nat) : HostSpot :=
  if off < 0x40000 then .window (off / 0x10000) (off % 0x10000)
  else if off < 0x50000 then .window 4 (off - 0x40000)
  else if off < 0x50400 then regSpot (0x300000 + p * 0x1000 + (off - 0x50000))
  else if off < 0x60000 then regSpot (2 ^ 28 + p * 2 ^ 26 + off)
  else if off < 0x70000 then
    let o := off - 0x60000
    if o < 0x18 ∨ (0x80 ≤ o ∧ o < 0x900) then regSpot o else .none
  else if off < 0x80000 then repeated 0x1120000 0x800 0x800 p (off - 0x70000)
  else if off < 0x90000 then repeated 0x101000 0x100 0x100 p (off - 0x80000)
  else if off < 0x91000 then repeated 0xD10000 0x100 0x100 p (off - 0x90000)
  else if off < 0xA0000 then repeated 0xD20000 0x100 0x100 p (off - 0x91000)
  else if off < 0x100000 then m.gztSpot p off
  else if off < 0x200000 then
    let e := (off - 0x100000) / 64
    if e < m.entCount p then .entry (m.entIdx p e) (off % 64) else .zero
  else if off < 0x300000 then m.lvrSpot p (off - 0x200000)
  else if off < 0x400000 then repeated 0xF00000 0x200 0x200 p (off - 0x300000)
  else if off < 0x401000 then ptnSpot p (off - 0x400000)
  else if off < 0x600000 then regSpot (2 ^ 28 + p * 2 ^ 26 + off)
  else if off < 0x600010 then regSpot (0xE00000 + (off - 0x600000))
  else .none

/-- The partition a function acts for: 0 the provider through a PF; none for a VF that no partition names (R451). -/
def Mach.viewer (m : Mach) (port fn : Nat) : Option Nat :=
  if fn = 0 then some 0 else if m.conf.cfg.vfPart port fn = 0 then none else some (m.conf.cfg.vfPart port fn)
/-- The place an access of a viewer lands, by the offset of its register. -/
def Mach.spotOf (m : Mach) (p off : Nat) : HostSpot := if p = 0 then pfSpot (off - off % 8) else m.vfSpot p (off - off % 8)
/-- An access within the contract (R13): 8 aligned bytes or 4. -/
def inContract (off width : Nat) : Bool := (width == 8 && off % 8 == 0) || (width == 4 && off % 4 == 0)
/-- The lowest bit of a register that an access covers. -/
def loBit (off : Nat) : Nat := 8 * (off % 8)
/-- The highest bit of a register that an access covers. -/
def hiBit (off width : Nat) : Nat := loBit off + 8 * width - 1

/-! ### Which blocks respond -/

/-- A register that answers in SCRAPPED: PRT_ID, PRT_SERIAL, SEC_LC, the module certificate (R622). -/
def scrapReg (a : Nat) : Bool := a == 0 || a == 8 || a == 0x1200000 || (decide (0x1202000 ≤ a) && decide (a < 0x1202100))
/-- The block of an address (R12): its number of MiB. -/
def blockOf (a : Nat) : Nat := a / 2 ^ 20
/-- Whether a place answers reads (R214, R570, R622). -/
def Mach.answers (m : Mach) (sp : HostSpot) : Bool :=
  match sp with
  | .reg a =>
    let b := blockOf a
    if m.lc = 4 then scrapReg a
    else if m.fld R.ERR_MSTATE_STATE [] = 1 then b == 0 || b == 0x11 || b == 0x12
    else if m.flag R.PRT_STATUS_CFG_NONE [] then b == 0 || b == 1 || b == 0x11 || b == 0x12
    else true
  | _ => m.lc != 4 && m.fld R.ERR_MSTATE_STATE [] != 1 && !m.flag R.PRT_STATUS_CFG_NONE []
/-- Whether a place takes writes: none does in FATAL (R570) or once POWER_FAIL holds (R599); in SCRAPPED the two command registers whose
commands R622 refuses. -/
def Mach.takes (m : Mach) (sp : HostSpot) : Bool :=
  m.running &&
    (if m.lc = 4 then sp == .reg (R.CFG_CHART_CMD_OP.addr []) || sp == .reg (R.SEC_CMD_OP.addr []) else m.answers sp)

/-! ### Reads (R14, R17) -/

/-- The bits of a register that reads return: WO and RSV bits read 0. -/
def RegArr.shown (r : RegArr) (w : Word) : Word :=
  r.fields.foldl (fun v f => if f.acc = .wo then v else wordPut v f.hi f.lo (wordField w f.hi f.lo)) 0
/-- SPACE fields of the provider's window, which read 8 (13, Registers). -/
def spaceEight (a : Nat) : Bool :=
  a == R.SRV_CBUF_SPACE.addr [0] || a == R.SRV_TREGION_SPACE.addr [0] || a == R.SRV_WRING_SPACE.addr [0]
/-- Whether an RC field counts events: all do but the highest readings and the highest severity. -/
def RegArr.counts (r : RegArr) (f : FieldSpec) : Bool :=
  !(r.base == R.PRT_POWER_PEAK_W.base || r.base == R.PRT_THERM_MAX_TEMP.base || r.base == R.MEM_STACK_MAX_TEMP.base ||
    ((r.base == R.ERR_LSTAT_MAX_SEV.base || r.base == R.ERR_QSTAT_MAX_SEV.base) && f.lo == R.ERR_LSTAT_MAX_SEV.lo))
/-- An RC counter as a read shows it: increments of the present tick appear in the next read (R16). was is the word as the tick found it. -/
def FieldSpec.shown (f : FieldSpec) (was w : Word) : Nat := min (wordField was f.hi f.lo) (wordField w f.hi f.lo)
/-- A register word as a read shows it (R16). -/
def RegArr.tickShown (r : RegArr) (was w : Word) : Word :=
  r.fields.foldl (fun v f => if f.acc = .rc ∧ r.counts f = true then wordPut v f.hi f.lo (f.shown was w) else v) w
/-- The value of a register: GRT_NOW is the time of the read (R515). -/
def Mach.regRead (m : Mach) (a : Nat) : Word :=
  match regAt a with
  | none => 0
  | some r =>
    if a = R.GRT_NOW_TIME.addr [] then BitVec.ofNat 64 m.now
    else
      let w := r.tickShown (Regs.word m.tickRegs a) (r.shown (Regs.word m.regs a))
      if spaceEight a then wordPut w 63 60 8 else w
/-- Eight bytes of a Gazetteer entry (R332): zeros where no partition's range holds it. -/
def Mach.entryRead (m : Mach) (g o : Nat) : Word :=
  let p := m.entPart g
  if p = 0 then 0 else BitVec.ofNat 64 (leAt (m.entBytes p (g - m.fld R.GZT_PQUOTA_ENTRY_BASE [p])) o 8)
/-- The eight bytes at a place. -/
def Mach.spotRead (m : Mach) (sp : HostSpot) : Word :=
  if !m.answers sp then 0
  else match sp with
    | .reg a => m.regRead a
    | .entry g o => m.entryRead g o
    | _ => 0
/-- What an RC field holds after it is cleared: 0, or TEMP where the highest reading starts again (R382, R639). -/
def rcAfter (r : RegArr) (w : Word) : Nat :=
  if r.base = R.PRT_THERM_MAX_TEMP.base ∨ r.base = R.MEM_STACK_MAX_TEMP.base then wordField w 63 56 else 0
/-- What a counter keeps after a read that clears it: the increments of the present tick, which it lost nothing of where it stands at its
largest value (R16). n is their sum. -/
def FieldSpec.left (f : FieldSpec) (was w : Word) (n : Nat) : Nat :=
  if wordField w f.hi f.lo = 2 ^ (f.hi + 1 - f.lo) - 1 then min n (2 ^ (f.hi + 1 - f.lo) - 1) else wordField w f.hi f.lo - f.shown was w
/-- A register word after a read of bits [hi:lo]: the RC fields that lie wholly in them are cleared (R17), but for the increments of the
present tick (R16), which moved gives by lowest bit. -/
def RegArr.cleared (r : RegArr) (was w : Word) (moved : Nat → Nat) (hi lo : Nat) : Word :=
  r.fields.foldl (fun v f => if f.acc = .rc ∧ lo ≤ f.lo ∧ f.hi ≤ hi then
      wordPut v f.hi f.lo (if r.counts f then f.left was w (moved f.lo) else rcAfter r w) else v) w
/-- The word of the tick's beginning after such a read: what was read is gone from it. -/
def RegArr.readOut (r : RegArr) (was : Word) (hi lo : Nat) : Word :=
  r.fields.foldl (fun v f => if f.acc = .rc ∧ r.counts f = true ∧ lo ≤ f.lo ∧ f.hi ≤ hi then wordPut v f.hi f.lo 0 else v) was
/-- A register that the tenant sees as RO (12, Registers): its partition window. -/
def roForTenant (p a : Nat) : Bool := p != 0 && decide (0x200000 ≤ a ∧ a < 0x210000)
/-- The state after a read of bits [hi:lo] of a place by a viewer. -/
def Mach.readClear (m : Mach) (p : Nat) (sp : HostSpot) (hi lo : Nat) : Mach :=
  match sp with
  | .reg a =>
    match regAt a with
    | none => m
    | some r =>
      if roForTenant p a ∨ !m.answers sp then m
      else { m with regs := Regs.setWord m.regs a (r.cleared (Regs.word m.tickRegs a) (Regs.word m.regs a) (fun b => Tbl.get 0 m.moved (a * 64 + b)) hi lo),
                    tickRegs := Regs.setWord m.tickRegs a (r.readOut (Regs.word m.tickRegs a) hi lo) }
  | _ => m

/-! ### Writes: which fields accept them -/

/-- Ranges of entries a ≤ x < a + n and b ≤ x < b + k meet. -/
def rangesMeet (a n b k : Nat) : Bool := decide (a < b + k ∧ b < a + n ∧ n ≠ 0 ∧ k ≠ 0)
/-- A partition holds no live entry, no handle and no overlay version (R364). -/
def Mach.gztEmpty (m : Mach) (p : Nat) : Bool :=
  (m.entsOf p).all (fun x => !gsLive x.2.st) && (m.handlesOfPart p).isEmpty && (m.ovlsOf p).isEmpty
/-- A word of GZT_PQUOTA that R364 accepts: ranges apart from the others', totals within the module's limits. -/
def Mach.quotaOk (m : Mach) (p : Nat) (w : Word) : Bool :=
  let base := wordField w 63 50
  let n := wordField w 49 35
  let others := ((List.range 32).map (fun i => i + 1)).filter (fun q => q != p)
  decide (base + n ≤ 16384) &&
  others.all (fun q => !rangesMeet base n (m.fld R.GZT_PQUOTA_ENTRY_BASE [q]) (m.entCount q)) &&
  decide (wordField w 34 22 + (others.map (fun q => m.fld R.GZT_PQUOTA_HANDLES [q])).sum ≤ 4096) &&
  decide (wordField w 21 11 + (others.map (fun q => m.fld R.GZT_PQUOTA_OVL_VERS [q])).sum ≤ 1024)
/-- The register array is that of a field. -/
def RegArr.isOf (r : RegArr) (f : Fld) : Bool := r.base == f.base
/-- Any of the register arrays of these fields. -/
def RegArr.isAny (r : RegArr) (l : List Fld) : Bool := l.any (fun f => r.base == f.base)
/-- Partition states in which a register is open. -/
def Mach.definedOnly (m : Mach) (p : Nat) : Bool := m.pstate p == psDefined

/-- PRT and CFG: the ranges of PRT_PWRCAP (R630). -/
def gatePrt (r : RegArr) (lo : Nat) (w : Word) : Bool :=
  if r.isOf R.PRT_PWRCAP_CAP_W then
    if lo = R.PRT_PWRCAP_CAP_W.lo then decide (1000 ≤ wordField w 63 50 ∧ wordField w 63 50 ≤ 3200)
    else decide (800 ≤ wordField w 49 38 ∧ wordField w 49 38 ≤ 3300 ∧ wordField w 49 38 % 25 = 0)
  else true
/-- PTN and the hatches (R463, R469, R501, R502). -/
def Mach.gatePtn (m : Mach) (r : RegArr) (ix : List Nat) : Bool :=
  let p := ix.getD 0 0
  let h := ix.getD 1 0
  if r.isOf R.PTN_PSMAP_VALID then m.pstate p == psDefined || m.pstate p == psTornDown
  else if r.isAny [R.PTN_SREG_PAGES, R.PTN_SREG_ADDR_ADDR] then m.fld R.PTN_SREG_STATE [p] == 0
  else if r.isAny [R.HTC_CRING_ADDR, R.HTC_CRCFG_PAGES] then !m.flag R.HTC_TARGET_ENABLE [p, h]
  else if r.isOf R.HTC_BASE_BASE then m.fld R.HTC_CREDIT_OCCUPIED [p, h] == 0
  else true
/-- GZT (R328, R364, R595 and "Registers" of 08): vf says that a VF writes. -/
def Mach.gateGzt (m : Mach) (vf : Bool) (r : RegArr) (ix : List Nat) (lo : Nat) (w : Word) : Bool :=
  let i := ix.getD 0 0
  if r.isOf R.GZT_PQUOTA_ENTRY_BASE then m.gztEmpty i && m.quotaOk i w
  else if r.isOf R.GZT_PATLAS_SLOTS then m.gztEmpty i
  else if r.isOf R.GZT_PAIRCFG_PEER then !m.flag R.GZT_PAIRCFG_ENABLE [i] && !(vf && lo == R.GZT_PAIRCFG_PAIR_ALLOW_CORRELATED.lo)
  else if r.isAny [R.GZT_PAIRSTBY_BASE, R.GZT_PAIRSTORE_BASE] then !m.flag R.GZT_PAIRCFG_ENABLE [i]
  else if r.isOf R.GZT_PCFG_ENABLE ∧ lo = R.GZT_PCFG_ENABLE.lo then true
  else if r.isAny [R.GZT_PCFG_ENABLE, R.GZT_PSTAGE_STAGE_BASE, R.GZT_PKV_BASE, R.GZT_PPLIST_BASE, R.GZT_POUT_ADDR, R.GZT_POUTCFG_PAGES] then
    !m.flag R.GZT_PCFG_ENABLE [i]
  else if r.isOf R.GZT_PIPECTL_ENABLE then !m.flag R.GZT_PIPECTL_ENABLE [i] && !(vf && lo == R.GZT_PIPECTL_PARTITION.lo)
  else if r.isOf R.GZT_PIPECFG_MAX_ROWS then !m.flag R.GZT_PIPECTL_ENABLE [i]
  else if r.isOf R.GZT_ATLAS_DESC_WORD then m.fld R.GZT_ATLAS_STATE [i] == 0
  else true
/-- LVR (R279). -/
def lvrLocked : List Fld := [R.LVR_CCTL_K, R.LVR_CWEIGHT_ALPHA, R.LVR_CLRING_BASE, R.LVR_CREMOTE_REMOTE, R.LVR_TAP_ENABLE]
/-- LVR, MEM, TRN, FAR, MRD (R279, R392, R400, R401, R407, R409, R424). -/
def Mach.gateMem (m : Mach) (r : RegArr) (ix : List Nat) : Bool :=
  let i := ix.getD 0 0
  if r.isAny lvrLocked then m.fld R.LVR_CSTATE_STATE [i] == 0
  else if r.isAny [R.MEM_PPLACE_BASE, R.TRN_PPLACE_DIE, R.COL_CJOB_JOB] then m.definedOnly i
  else if r.isAny [R.MEM_GOLD_CTL_PAGES, R.MEM_GOLD_ADDR_ADDR, R.MEM_GOLD_DIG_ADDR] then m.fld R.MEM_GOLD_CTL_STATE [i] == 0
  else if r.isOf R.FAR_CTL_INTERLEAVE then m.tier.farOwner.all (fun e => e.2 == 0)
  else if r.isOf R.FAR_PQUOTA_PAGES then i == 0 || m.definedOnly i
  else if r.isOf R.MRD_ID_MODULE then (List.range 10).all (fun n => m.lstate n == lkDown)
  else true
/-- The training window of a partition, checkpoint and hierarchy registers included. -/
def inTrainWindow (a : Nat) : Bool := decide (0xD10000 ≤ a ∧ a < 0xD20000)
/-- The trace registers that R524 locks. -/
def traceLocked : List Fld :=
  [R.SRV_TREGION_BASE, R.SRV_TCFG_LEVEL, R.SRV_TFILT_LAYER, R.SRV_TTRIG_SOURCE, R.SRV_TTIME_TIME, R.SRV_TPANE_PANES]
/-- COL, SRV and SHT (R323, R431, "Registers" of 10, 13 and 14). -/
def Mach.gateCol (m : Mach) (a : Nat) (r : RegArr) (ix : List Nat) (lo : Nat) : Bool :=
  let i := ix.getD 0 0
  if r.isOf R.COL_TEXPORT_ADDR_ADDR then m.fld R.COL_TEXPORT_STATUS_STATE [i] != 1
  else if inTrainWindow a then m.fld R.COL_TSTATE_STATE [i] == 0
  else if r.isOf R.COL_CCFG_MANAGER ∧ lo = R.COL_CCFG_MANAGER.lo then true
  else if r.isAny [R.COL_CRING_BASE, R.COL_CSTAGE_BASE, R.COL_CMEMBERS_BASE, R.COL_CCFG_MANAGER] then m.fld R.COL_CSTAT_INFLIGHT [i] == 0
  else if r.isAny [R.SRV_CBUF_BASE, R.SRV_CCFG_ENABLE] then !m.flag R.SRV_CCFG_ENABLE [i]
  else if r.isAny traceLocked then m.fld R.SRV_TSTAT_STATE [i] == 0
  else if r.isOf R.SRV_WCFG_ENABLE ∧ lo = R.SRV_WCFG_ENABLE.lo then true
  else if r.isAny [R.SRV_WRING_BASE, R.SRV_WCFG_ENABLE] then !m.flag R.SRV_WCFG_ENABLE [i]
  else if r.isAny [R.SHT_DEST_ADDR, R.SHT_DESTLEN_MIB, R.SHT_PDEST_BASE, R.SHT_PHRANGE_BASE] then m.fld R.SHT_STATUS_STATE [] == 0
  else true
/-- Whether an RW field of a register accepts a write; w is the word as it would stand. -/
def Mach.gate (m : Mach) (vf : Bool) (a : Nat) (r : RegArr) (ix : List Nat) (lo : Nat) (w : Word) : Bool :=
  let b := blockOf a
  if b < 2 then gatePrt r lo w
  else if b < 4 then !(vf && roForTenant 1 a) && m.gatePtn r ix
  else if b < 6 then m.gateGzt vf r ix lo w
  else if b < 0xD ∨ a < 0xD10000 then m.gateMem r ix
  else m.gateCol a r ix lo

/-- RW fields whose writes do more than set the field: actions of their own. -/
def ownAction (r : RegArr) (lo : Nat) : Bool :=
  r.isAny [R.HTC_TARGET_ENABLE, R.HTC_CTAIL_TAIL, R.GZT_POUT_TAIL_TAIL, R.SRV_WTAIL_TAIL, R.ERR_LTAIL_TAIL, R.ERR_QTAIL_TAIL] ||
  (r.isAny [R.GZT_PAIRCFG_ENABLE, R.GZT_PIPECTL_ENABLE, R.SRV_CCFG_ENABLE] && lo == 63) || (r.isOf R.MRD_ID_TIME_ROOT && lo == R.MRD_ID_TIME_ROOT.lo)

/-! ### Writes: what they do -/

/-- The field lies at least partly in bits [hi:lo]. -/
def FieldSpec.meets (f : FieldSpec) (hi lo : Nat) : Bool := decide (f.lo ≤ hi ∧ lo ≤ f.hi)
/-- Data of an access put in its place in an 8-byte word, 0 elsewhere. -/
def placed (off width : Nat) (data : Word) : Word := wordPut 0 (hiBit off width) (loBit off) data.toNat
/-- The register word with the bits of an access replaced. -/
def mergedWord (old : Word) (off width : Nat) (data : Word) : Word := wordPut old (hiBit off width) (loBit off) data.toNat

/-- What a refused write of an RW field leaves: CODE = BUSY (R279, R323, R469, R524), or the log entry of R364, whose form is open (log
entry 32). -/
def Mach.refusedWrite (m : Mach) (a : Nat) (r : RegArr) (ix : List Nat) : Mach :=
  let i := ix.getD 0 0
  if inTrainWindow a then m.setFld R.COL_TSTATE_CODE [i] 1
  else if r.isAny lvrLocked then m.setFld R.LVR_CSTATE_CODE [i] lvBusy
  else if r.isAny traceLocked then m.setFld R.SRV_TSTAT_CODE [i] 1
  else if r.isOf R.HTC_BASE_BASE then m.setFld R.HTC_TARGET_CODE [i, ix.getD 1 0] 1
  else if r.isAny [R.GZT_PQUOTA_ENTRY_BASE, R.GZT_PATLAS_SLOTS] then
    m.drew.place (ErrRec.mk0 sevCorrected 0 (m.free.toNat % 2 ^ 16) 0xFFFF gcSlotBusy i)
  else m
/-- What follows a write: the clocks under a new cap (R630), the free space of a Gazetteer window, the
records that a larger ring has room for (R471). -/
def Mach.afterWrite (m : Mach) (r : RegArr) (ix : List Nat) : Mach :=
  if r.isOf R.PRT_PWRCAP_CLK_MHZ then m.clockSyncAll
  else if r.isAny [R.GZT_PQUOTA_ENTRY_BASE, R.GZT_PKV_BASE, R.GZT_PPLIST_BASE] then m.gztSync (ix.getD 0 0)
  else if r.isOf R.HTC_CRCFG_PAGES then Mach.ringDrain 1024 m (ix.getD 0 0) (ix.getD 1 0)
  else m
/-- The word that RW fields take: VERSION of an atlas descriptor stays (R328). -/
def keepVersion (r : RegArr) (ix : List Nat) (old w : Word) : Word :=
  if r.isOf R.GZT_ATLAS_DESC_WORD ∧ ix.getD 1 0 = 0 then wordPut w 31 16 (wordField old 31 16) else w
/-- A field after a write: RW takes the data (R14); a W1C bit is cleared by 1, unless the module set it in the present tick (R15), even where
it stood already; others stay. n is what the module set of it in the tick. -/
def FieldSpec.written (f : FieldSpec) (n : Nat) (v w d : Word) : Word :=
  match f.acc with
  | .rw => wordPut v f.hi f.lo (wordField w f.hi f.lo)
  | .w1c => wordPut v f.hi f.lo (wordField v f.hi f.lo - (wordField v f.hi f.lo &&& wordField d f.hi f.lo) + (wordField v f.hi f.lo &&& wordField d f.hi f.lo &&& n))
  | _ => v
/-- A write of bits [hi:lo] of the register at a by a VF or a PF: every RW field that accepts it, every W1C field. -/
def Mach.fieldsWrite (m : Mach) (vf : Bool) (a : Nat) (r : RegArr) (ix : List Nat) (hi lo : Nat) (w d : Word) : Mach :=
  let old := Regs.word m.regs a
  let w := keepVersion r ix old w
  let mine := r.fields.filter (fun f => f.meets hi lo && !ownAction r f.lo)
  let ok (f : FieldSpec) : Bool := f.acc != .rw || m.gate vf a r ix f.lo w
  let set (f : FieldSpec) : Nat := Tbl.get 0 m.moved (a * 64 + f.lo)
  let m' := { m with regs := Regs.setWord m.regs a ((mine.filter ok).foldl (fun v (f : FieldSpec) => f.written (set f) v w d) old) }
  (if mine.all ok then m' else m'.refusedWrite a r ix).afterWrite r ix
/-- TAIL of an error queue (R564): a value past HEAD or backwards, modulo 2^32, is discarded. -/
def Mach.errTail (m : Mach) (o v : Nat) : Mach :=
  let ix := if o = 0 then [] else [o]
  let fTail := if o = 0 then R.ERR_LTAIL_TAIL else R.ERR_QTAIL_TAIL
  let head := m.fld (if o = 0 then R.ERR_LSTAT_HEAD else R.ERR_QSTAT_HEAD) ix
  let old := m.fld fTail ix
  if (v + 2 ^ 32 - old) % 2 ^ 32 ≤ (head + 2 ^ 32 - old) % 2 ^ 32 then m.setFld fTail ix v else m
/-- SRV_WTAIL (R532): past HEAD it is discarded. -/
def Mach.watchTail (m : Mach) (o v : Nat) : Mach := if v ≤ m.fld R.SRV_WHEAD_HEAD [o] then m.setFld R.SRV_WTAIL_TAIL [o] v else m
/-- HTC_TARGET (R469): ENABLE and PANE together. -/
def Mach.targetWrite (m : Mach) (p h : Nat) (on : Bool) (pane : Nat) : Mach :=
  if on then m.hatchEnable p h pane
  else
    let free := m.fld R.HTC_CREDIT_OCCUPIED [p, h] == 0
    let m := if m.flag R.HTC_TARGET_ENABLE [p, h] then m.hatchDisable p h else m
    if !free then m
    else if !(m.conf.cfg.panes p).contains pane then m.setFld R.HTC_TARGET_CODE [p, h] 2
    else m.setFlds [p, h] [(R.HTC_TARGET_PANE, pane), (R.HTC_TARGET_CODE, 0)]

end Sys2Proof.Machine
end

