-- ==== Sys2Proof/Machine/Links.lean ====
section
/-! DEFINITION. The rows of Meridian links: lane training, negotiation, flits, replay, discovery, time exchanges, delay reports (10, 13). -/

namespace Sys2Proof.Machine

/-- LINK_ENABLE (R424). -/
def execLinkEnable (link : LinkId) (s : State) : Res := s.withM (if s.m.accepts then s.m.linkEnable link else s.m)
/-- LINK_DISABLE (R424). -/
def execLinkDisable (link : LinkId) (s : State) : Res := s.withM (if s.m.accepts then s.m.linkDisable link else s.m)
/-- LINK_RELEASE (R430). -/
def execLinkRelease (link : LinkId) (s : State) : Res := s.withM (if s.m.accepts then s.m.linkRelease link else s.m)
/-- WIDEN (R424). -/
def execWiden (link : LinkId) (s : State) : Res := s.withM (if s.m.accepts then s.m.linkWiden link else s.m)
/-- RETRAIN (R424). -/
def execRetrain (link : LinkId) (s : State) : Res := s.withM (if s.m.accepts then s.m.linkRetrain link else s.m)
/-- LINK_RETRY_TIMER (R424). -/
def execLinkRetryTimer (link : LinkId) (s : State) : Res := s.withM (s.m.linkRetry link)
/-- LANE_TRAINING_DONE (R413). -/
def execLaneTrainingDone (link : LinkId) (locked : BitVec 18) (s : State) : Res := s.withM (s.m.laneTrained link locked.toNat)
/-- LANE_TRAINING_TIMEOUT (R424). -/
def execLaneTrainingTimeout (link : LinkId) (s : State) : Res := s.withM (s.m.laneTimeout link)
/-- NEG (R423). -/
def execNegMsg (link : LinkId) (module fabric : BitVec 16) (serial : Word) (slots : List (BitVec 16)) (lo hi : Fin 16) (s : State) : Res :=
  s.withM (s.m.neg link module.toNat fabric.toNat serial.toNat (slots.map (fun x => x.toNat)) lo hi)
/-- NEG_TIMEOUT (R424). -/
def execNegTimeout (link : LinkId) (s : State) : Res := s.withM (s.m.negTimeout link)
/-- LANE_FAILED (R414). -/
def execLaneFailed (link : LinkId) (lane : Fin 18) (s : State) : Res := s.withM (s.m.laneFailed link lane)
/-- LANE_SWAP (R414). -/
def execLaneSwap (link : LinkId) (logical : Fin 18) (s : State) : Res := s.withM (s.m.laneSwap link logical)
/-- LOCK_LOSS_TIMEOUT (R424): lock lost for over 1 µs. -/
def execLockLossTimeout (link : LinkId) (s : State) : Res := s.withM (s.m.linkRetrain link)

/-! ### Flits (R416, R417, R419, R420, R427, R429) -/

/-- The parts of a received flit's header word. -/
def hdClass (h : Nat) : Nat := bits h 63 61
def hdSeq (h : Nat) : Nat := bits h 56 45
def hdLen (h : Nat) : Nat := bits h 23 16 + 1
def hdDst (h : Nat) : Nat := bits h 15 0

/-- What is wrong with the ACK and the CREDITS of a flit (R429): 0, or the violation's code. -/
def Mach.ackFault (m : Mach) (n h : Nat) : Nat :=
  let c := bits h 44 42
  let x := m.linkCls n c
  let first := match x.unacked.head? with
    | some f => f.seqNo
    | none => x.txSeq
  if 5 < c then 0x01
  else if x.unacked.length < (bits h 41 30 + 4096 - first) % 4096 ∨ clSlots c < x.credits + bits h 29 24 then 0x05 else 0
/-- ACK and CREDITS of a flit applied to their class (R419, R420): acknowledged flits leave the replay buffer and waiting ones leave on
new credits. -/
def Mach.flitAck (m : Mach) (n h : Nat) : Mach :=
  let c := bits h 44 42
  let x := m.linkCls n c
  let first := match x.unacked.head? with
    | some f => f.seqNo
    | none => x.txSeq
  let k := (bits h 41 30 + 4096 - first) % 4096
  (m.setLinkCls n c { x with unacked := x.unacked.drop k, credits := x.credits + bits h 29 24, ackAt := if k = 0 then x.ackAt else m.now }).pump n

/-- A violating flit is discarded, acknowledged, and its credit returned (R429). -/
def Mach.flitBad (m : Mach) (n code c sq : Nat) : Mach :=
  let m := m.fwdStop n c
  let x := m.linkCls n c
  let m := m.setLinkCls n c { x with rx := [], rxOpen := false, fwd := 0 }
  (m.flitTold n c true).violation n code c sq

/-- A NAK naming a class and the expected SEQ, once until that SEQ arrives (R420). -/
def Mach.sendNak (m : Mach) (n c : Nat) : Mach :=
  let x := m.linkCls n c
  if x.nakOut then m else (m.setLinkCls n c { x with nakOut := true }).sendLocal n 2 0 (leBytes 1 c ++ leBytes 2 x.rxSeq)

/-- The end of a message for this module: it waits for its unit, or is a BAD_MESSAGE (R417, R418, R429). -/
def Mach.msgEnd (m : Mach) (n c sq : Nat) (dst : Nat) : Mach :=
  let x := m.linkCls n c
  let b := x.rx
  let t := leAt b 4 1
  let m := m.setLinkCls n c { x with rx := [], rxOpen := false, fwd := 0 }
  if mtClass t ≠ some c ∨ b.length ≠ 16 + leAt b 8 4 ∨ 2 ^ 26 < leAt b 8 4 ∨ (mtLocal t ∧ dst ≠ m.moduleId) then (m.flitTold n c true).violation n 0x03 c sq
  else if 4095 < leAt b 0 2 then (m.flitTold n c true).violation n 0x04 c sq
  else
    let y := m.linkCls n c
    (m.setLinkCls n c { y with waiting := y.waiting + 1, seqs := y.seqs ++ [sq] }).flitTold n c false

/-- The first flit of a message for another module: its way out (R426, R427), or what discards it; a message-level fault of its header is a
violation (R429). -/
def Mach.fwdOpen (m : Mach) (n c sq dst : Nat) (pay : List Byte) : Mach × Nat :=
  let src := leAt pay 0 2
  let job := leAt pay 2 2
  let t := leAt pay 4 1
  let tag := leAt pay 12 4
  let gone (m : Mach) (f : Fld) : Mach × Nat := ((m.addSat f [] 1).unreachable src job t tag, 11)
  if mtClass t ≠ some c ∨ 2 ^ 26 < leAt pay 8 4 then (m.violation n 0x03 c sq, 11)
  else if 4095 < src then (m.violation n 0x04 c sq, 11)
  else if leAt pay 5 1 ≤ 1 then gone m R.MRD_STAT_TTL_EXPIRED
  else match m.routeLink dst src job tag with
    | none => gone m R.MRD_STAT_NO_ROUTE
    | some k => (m, if k = n then 12 else 1 + k)

/-- A flit of a message for another module (R417, R427): it joins the flits of its way out and keeps its slot until it has left (R419), or is
discarded. A LENGTH that its flits contradict ends the message there (R429, log entry 31). -/
def Mach.flitOn (m : Mach) (n h : Nat) (pay : List Byte) : Mach :=
  let c := hdClass h
  let som := bitAt h 59
  let eom := bitAt h 58
  let left := if som then 16 + leAt pay 8 4 else (m.linkCls n c).fwdLeft
  let a := if som then m.fwdOpen n c (hdSeq h) (hdDst h) pay else (m, (m.linkCls n c).fwd)
  let m := if som then { a.1 with mrd := { a.1.mrd with msgs := a.1.mrd.msgs + 1 } } else a.1
  let way := a.2
  let id := if som then m.mrd.msgs else (m.linkCls n c).fwdMsg
  let x := m.linkCls n c
  let m := m.setLinkCls n c { x with rxOpen := true, fwd := way, fwdMsg := id, fwdLeft := left - pay.length }
  if way ≤ 10 ∧ (left < pay.length ∨ (eom ∧ left ≠ pay.length)) then
    let m := m.fwdStop n c
    let x := m.linkCls n c
    ((m.setLinkCls n c { x with rxOpen := !eom, fwd := 11 }).flitTold n c true).violation n 0x03 c (hdSeq h)
  else
    let x := m.linkCls n c
    let m := m.setLinkCls n c { x with rxOpen := !eom, fwd := if eom then 0 else way }
    let z := m.linkCls (way - 1) c
    if way = 12 then (m.addSat R.MRD_STAT_BACKWARD [] 1).flitTold n c true
    else if way = 11 ∨ !(som || z.txOpen == id || z.txq.any (fun f => f.msg == id)) then m.flitTold n c true
    else
      let pay := if som then pay.set 5 (BitVec.ofNat 8 (leAt pay 5 1 - 1)) else pay
      let f : Flit := { cls := c, som := som, eom := eom, poison := bitAt h 57, seqNo := 0, len := pay.length, dst := hdDst h, payload := pay, job := 0, msg := id,
                        inp := n + 1, tries := 0 }
      ((m.setLinkCls (way - 1) c { z with txq := z.txq ++ [f] }).pump (way - 1)).flitTold n c false

/-- An accepted flit of a message (R417, R427). The unit takes the flits of a message for this module as they come, all but the last (R419, log
entry 16); a job's payload is metered (R505). -/
def Mach.flitTake (m : Mach) (n h : Nat) (pay : List Byte) : Mach :=
  let c := hdClass h
  let sq := hdSeq h
  let som := bitAt h 59
  let eom := bitAt h 58
  let dst := hdDst h
  let x := m.linkCls n c
  if (!eom && hdLen h != 240) ∨ som = x.rxOpen ∨ 240 < hdLen h then m.flitBad n 0x01 c sq
  else if 4095 < dst then m.flitBad n 0x04 c sq
  else if if som then dst == m.moduleId || mtLocal (leAt pay 4 1) else x.fwd == 0 then
    let p := m.jobPart (leAt (if som then pay else x.rx) 2 2)
    let m := (m.setLinkCls n c { x with rx := x.rx ++ pay, rxOpen := !eom, fwd := 0 }).meter p mLinkRx (if p = 0 then 0 else pay.length)
    if eom then m.msgEnd n c sq dst else m.flitTold n c true
  else m.flitOn n h pay

/-- The capture area of a partition: its base and its bytes (R548). -/
def Mach.capArea (m : Mach) (p : Nat) : Nat × Nat := (m.fld R.SHT_PDEST_CAP_BASE [p] * 65536, m.fld R.SHT_PDEST_CAP_MIB [p] * 2 ^ 20)
/-- The stopped partition that a flit for this module is for, 0 if none: the JOB of its message names it. -/
def Mach.flitStopPart (m : Mach) (n h : Nat) (pay : List Byte) : Nat :=
  let x := m.linkCls n (hdClass h)
  let som := bitAt h 59
  let here := if som then hdDst h == m.moduleId else x.rxOpen && x.fwd == 0
  let p := m.jobPart (leAt (if som then pay else x.rx) 2 2)
  if here ∧ p ≠ 0 ∧ m.shut p then p else 0
/-- A flit of a stopped partition in its capture area: its slot is free at once (R548). -/
def Mach.flitCaptured (m : Mach) (n h p : Nat) (bs : List Byte) : Mach :=
  let c := hdClass h
  let used := Tbl.get 0 m.sht.capUsed p
  let m := match m.transomKey p ((m.capArea p).1 + used) with
    | some k => m.store k bs
    | none => m
  let m := { m with sht := { m.sht with capUsed := Tbl.set 0 m.sht.capUsed p (used + 256) } }
  let was := m.linkCls n c
  let m := m.flitTake n h ((bs.drop 8).take (min 240 (hdLen h)))
  let x := m.linkCls n c
  if x.waiting ≤ was.waiting then m
  else
    let m := { m with sht := { m.sht with captured := Tbl.set 0 m.sht.captured (n * 8 + c) (Tbl.get 0 m.sht.captured (n * 8 + c) + 1) } }
    (m.setLinkCls n c { x with waiting := was.waiting, seqs := was.seqs }).flitTold n c true
/-- An accepted flit during a stop (R546, R548, R549): a stopped module keeps those of the traffic classes in their slots; a stopped
partition's go to its capture area, and once that is full the class on that link waits for every user. -/
def Mach.flitKeep (m : Mach) (n h : Nat) (bs : List Byte) : Mach :=
  let c := hdClass h
  let pay := (bs.drop 8).take (min 240 (hdLen h))
  let keep (m : Mach) : Mach := { m with sht := { m.sht with flits := m.sht.flits ++ [(n, bs)] } }
  if !m.stopping ∨ 2 < c then m.flitTake n h pay
  else if m.fullStop ∨ m.sht.flits.any (fun e => e.1 == n && hdClass (leAt e.2 0 8) == c) then keep m
  else
    let p := m.flitStopPart n h pay
    if p = 0 then m.flitTake n h pay
    else if Tbl.get 0 m.sht.capUsed p + 256 ≤ (m.capArea p).2 ∧ (m.transomKey p ((m.capArea p).1 + Tbl.get 0 m.sht.capUsed p)).isSome then m.flitCaptured n h p bs
    else keep (m.setFld R.SHT_STATUS_FLAGS [] (putBits (m.fld R.SHT_STATUS_FLAGS []) 5 5 1))
/-- The codewords that a flit enters, each with its corrected symbols or none where it was uncorrectable; cont says that the flit begins in the codeword
in which the last one ended (R415): they are counted, and the flit is lost if it has a byte in one that was uncorrectable. -/
def Mach.codewords (m : Mach) (n : Nat) (cont : Bool) (cws : List (Option Nat)) : Mach × Bool :=
  let l := m.link n
  let bad := (cont && l.cwBad) || cws.any (fun x => x.isNone)
  let fixed := (cws.map (fun x => x.getD 0)).sum
  let m := m.setLink n { l with cwBad := match cws.getLast? with
    | some x => x.isNone
    | none => l.cwBad }
  let m := (m.addSat R.MRD_LERR_UNCORR_CW [n] ((cws.filter (fun x => x.isNone)).length)).addSat R.MRD_LERR_CORR_SYM [n] fixed
  (((m.countFor 0 (isl 5 n) 2 fixed).countFor 0 (isl 5 n) 1 256), bad)
/-- A flit with a good CRC, its ACK and CREDITS applied unless they are at fault (R420, R429): in order it is taken, ahead it draws a NAK, behind it is a
duplicate. A violating one is discarded, acknowledged where it is in order, and its credit returned. -/
def Mach.flitGood (m : Mach) (n h : Nat) (bs : List Byte) : Mach :=
  let c := hdClass h
  let sq := hdSeq h
  let bad := m.ackFault n h
  let m := if bad = 0 then m.flitAck n h else m
  if bitAt h 60 then (if bad = 0 then m else m.violation n bad (bits h 44 42) (bits h 41 30))
  else
    let x := m.linkCls n c
    let ahead := (sq + 4096 - x.rxSeq) % 4096
    let x' := { x with rxSeq := (sq + 1) % 4096, nakOut := false }
    if 5 < c then ((m.setLinkCls n c x').flitTold n c true).violation n 0x01 c sq
    else if ahead = 0 then
      (if x.rxCredit = 0 then ((m.setLinkCls n c x').flitTold n c true).violation n 0x02 c sq
       else
         let m := m.setLinkCls n c { x' with rxCredit := x.rxCredit - 1 }
         if bad = 0 then m.flitKeep n h bs else m.flitBad n bad c sq)
    else if bad ≠ 0 then m.violation n bad c sq
    else if ahead < 2048 then m.sendNak n c
    else m
/-- FLIT_RECEIVE (R420, R429, R430). In NEGOTIATE no class has credits yet: only NEG is taken, and it comes by its own row. -/
def Mach.flitIn (m : Mach) (n : Nat) (bs : List Byte) (cont : Bool) (cws : List (Option Nat)) : Mach :=
  let h := leAt bs 0 8
  let c := hdClass h
  if !m.linkUp n ∧ m.lstate n ≠ lkNegotiate then m
  else
    let a := m.codewords n cont cws
    let m := a.1
    let good := !a.2 && leAt bs 248 8 == (crc64 (bs.take 248)).toNat
    if m.linkUp n then (if good then m.flitGood n h bs else if c ≤ 5 then m.sendNak n c else m)
    else if !good ∨ bitAt h 60 ∨ c = clControl then m
    else m.violation n (if 5 < c then 0x01 else 0x02) c (hdSeq h)

/-- FLIT_RECEIVE (R415, R420): a flit is 256 bytes in one or two codewords: those it enters, and with cont that in which it begins. -/
def execFlitReceive (link : LinkId) (bytes : List Byte) (fec : FlitCode) (s : State) : Res :=
  if bytes.length = 256 ∧ fec.codewords.length + b2n fec.cont ≤ 2 ∧ (fec.cont ∨ fec.codewords ≠ []) then
    s.withM (s.m.flitIn link bytes fec.cont (fec.codewords.map (fun x => x.map (fun k => k.toNat))))
  else .fault .illFormed

/-- NAK (R420): flits before its SEQ are acknowledged, the others leave again, then what waits for a place in the replay. -/
def Mach.nak (m : Mach) (n c sq : Nat) : Mach :=
  let mine := m.waitingSeq n clControl
  let m := m.consumed n clControl
  let x := m.linkCls n c
  let first := match x.unacked.head? with
    | some f => f.seqNo
    | none => x.txSeq
  let k := (sq + 4096 - first) % 4096
  if !m.linkUp n then m
  else if x.unacked.length < k then m.violation n 0x05 clControl mine
  else
    let x := { x with unacked := x.unacked.drop k, ackAt := if k = 0 then x.ackAt else m.now }
    ((m.setLinkCls n c x).resend n c).pump n
/-- NAK (R420). -/
def execNakMsg (link : LinkId) (cls : Fin 6) (seqNo : BitVec 12) (s : State) : Res := s.withM (s.m.nak link cls seqNo.toNat)
/-- REPLAY_TIMEOUT (R420): no ACK progress for 10 µs. -/
def execReplayTimeout (link : LinkId) (cls : Fin 6) (s : State) : Res :=
  s.withM (if s.m.linkUp link ∧ (s.m.linkCls link cls).ackAt + 10000 ≤ s.m.now then s.m.resend link cls else s.m)
/-- VIOLATION (R429): the partner's report is recorded beside the link's own violations, which MRD_LVIOL counts (log entry 90). -/
def execViolationMsg (link : LinkId) (code cls : Byte) (seqNo : BitVec 12) (s : State) : Res :=
  let m := s.m.consumed link clControl
  s.withM ((m.setLink link { m.link link with told := some (code.toNat, cls.toNat, seqNo.toNat) }).placeLimited (0x06000 + link.val) second
    (ErrRec.mk0 sevCorrected 0 ecViolation (isl 5 link) code.toNat 0))

/-- HELLO_TIMER (R428). -/
def execHelloTimer (s : State) : Res := s.withM s.m.hellos
/-- HELLO (R428). -/
def execHelloMsg (link : LinkId) (module fabric : BitVec 16) (serial : Word) (feed peerLink : Fin 16) (distance : Byte) (s : State) : Res :=
  s.withM (s.m.hello link module.toNat fabric.toNat serial.toNat feed peerLink distance.toNat)
/-- HELLO_MISSED (R428). -/
def execHelloMissed (link : LinkId) (s : State) : Res := s.withM (s.m.helloMissed link)

/-- UNREACHABLE (R426, R446): the collective whose message was lost ends with ROUTE_MISSING. -/
def Mach.unreached (m : Mach) (n src job mtype tag : Nat) : Mach :=
  if m.jobShut job then m else
  let m := m.consumed n clControl
  let p := m.jobPart job
  if p = 0 ∨ mtype < 0x20 ∨ 0x2A < mtype then m
  else
    let hit := (m.coll p).runs.filter (fun c =>
      c.k == tag && m.axisLinked p c.axis && (List.range (m.axisSize p c.axis)).any (fun r => m.member p c.axis r == src))
    if hit.isEmpty then m else (hit.foldl (fun m c => m.collFail p c crRouteMissing true) m).collOut p []
/-- UNREACHABLE (R426). -/
def execUnreachableMsg (link : LinkId) (src : ModuleId) (job : BitVec 16) (mtype : Byte) (tag : BitVec 32) (s : State) : Res :=
  s.withM (s.m.unreached link src.toNat job.toNat mtype.toNat tag.toNat)

/-- SYNC_TIMER (R432). -/
def execSyncTimer (s : State) : Res := s.withM s.m.syncTimer
/-- SYNC_REQ (R432). -/
def execSyncReq (link : LinkId) (t1 : Word) (s : State) : Res := s.withM (s.m.syncReq link t1.toNat)
/-- SYNC_RESP (R511). -/
def execSyncResp (link : LinkId) (t1 t2 t3 : Word) (s : State) : Res := s.withM (s.m.syncResp link t1.toNat t2.toNat t3.toNat)
/-- SYNC_HOLDOVER_TIMEOUT (R512). -/
def execSyncHoldoverTimeout (s : State) : Res := s.withM s.m.holdover
/-- TIME_ROOT_WRITE (R512, R513). -/
def execTimeRootWrite (value : Bool) (s : State) : Res := s.withM (if s.m.accepts then s.m.timeRoot value else s.m)
/-- GRT_SET (R510). -/
def execGrtSet (value : Word) (s : State) : Res := s.withM (if s.m.accepts then s.m.grtSet value.toNat else s.m)

/-- DELAY_REPORT (R442): the latest report of the job's partition. -/
def Mach.delayReport (m : Mach) (n src job stack level pred time : Nat) : Mach :=
  if m.jobShut job then m else
  let m := m.consumed n clControl
  let p := m.jobPart job
  if p = 0 then (m.addSat R.MRD_STAT_UNCLAIMED [] 1).unreachable src job 0x11 0
  else (m.setFlds [p] [(R.COL_CDELAY_MODULE, src), (R.COL_CDELAY_STACK, stack), (R.COL_CDELAY_LEVEL, level), (R.COL_CDELAY_PRED_US, pred)]).setFld
    R.COL_CDELAY_T_TIME [p] time
/-- DELAY_REPORT (R442). -/
def execDelayReport (link : LinkId) (src : ModuleId) (job : BitVec 16) (stack : Fin 16) (level : Fin 8) (predUs : BitVec 32) (time : Word)
    (s : State) : Res :=
  s.withM (s.m.delayReport link src.toNat job.toNat stack level predUs.toNat time.toNat)

end Sys2Proof.Machine
end

