-- ==== Sys2Proof/Machine/PairOps.lean ====
section
/-! DEFINITION. Serving pairs (R592 to R597): enabling, heartbeats, mirrored entries, promotion. -/

namespace Sys2Proof.Machine

/-- States and codes of GZT_PAIRSTAT. -/
def prUnpaired : Nat := 0
def prPaired : Nat := 1
def prCorrelated : Nat := 2
def prPromoting : Nat := 3
def prFeedEqual : Nat := 1
def prMismatch : Nat := 2
def prTimeout : Nat := 3
/-- STATE of a pair. -/
def Mach.prState (m : Mach) (p : Nat) : Nat := m.fld R.GZT_PAIRSTAT_STATE [p]
/-- A pair enters a state that no command asked for: a PAIR record (R562). -/
def Mach.setPr (m : Mach) (p st : Nat) : Mach := (m.setFld R.GZT_PAIRSTAT_STATE [p] st).place (ErrRec.mk0 sevDeferred p ecPair 0xFFFF st 0)
/-- CODE of a pair. -/
def Mach.prCode (m : Mach) (p code : Nat) : Mach := m.setFld R.GZT_PAIRSTAT_CODE [p] code
/-- FEED_ID of this module. -/
def Mach.feedId (m : Mach) : Nat := m.fld R.PRT_STATUS_FEED_ID []
/-- The running image, as pairs compare it. -/
def Mach.runId (m : Mach) : Nat := (Regs.word m.regs (R.CFG_RUN_ID_IMAGE_ID.addr [])).toNat
/-- A HEARTBEAT: FEED_ID, image, ENTRY_COUNT. -/
def Mach.pairBeat (m : Mach) (p : Nat) : Mach := m.pairSend p 1 (leBytes 1 m.feedId ++ leBytes 8 m.runId ++ leBytes 2 (m.entCount p))
/-- PAIR_ENABLE (R593): the peer is asked. -/
def Mach.pairEnable (m : Mach) (p : Nat) : Mach :=
  if m.prState p ≠ prUnpaired then m
  else
    let m := (m.setFlds [p] [(R.GZT_PAIRCFG_ENABLE, 1), (R.GZT_PAIRSTAT_CODE, 0)]).setPair p { Pair.init with asked := m.now + 1 }
    m.pairBeat p
/-- PAIR_DISABLE (R593). -/
def Mach.pairDisable (m : Mach) (p : Nat) : Mach :=
  let m := (m.setFld R.GZT_PAIRCFG_ENABLE [p] 0).pairLeave p 0
  if m.prState p = prUnpaired then m.setPair p Pair.init else m
/-- PAIR_ANSWER_TIMEOUT (R593). -/
def Mach.pairTimeout (m : Mach) (p : Nat) : Mach :=
  let x := m.pair p
  if m.prState p = prUnpaired ∧ x.asked ≠ 0 ∧ x.asked - 1 + 10 ^ 7 ≤ m.now then (m.prCode p prTimeout).setPair p { x with asked := 0 } else m
/-- SNAPSHOT of the live entries (R593). -/
def Mach.pairSnapshot (m : Mach) (p : Nat) : Mach :=
  let l := (m.entsOf p).filter (fun e => gsLive e.2.st)
  m.pairSend p 4 (leBytes 2 l.length ++ l.flatMap (fun e => leBytes 2 e.1 ++ m.mirrorEnt p e.1))

/-! ### Promotion (R596) -/

/-- Whether the versions an entry is bound to are resident. -/
def Mach.resident (m : Mach) (p : Nat) (x : GEnt) : Bool :=
  m.modelOk p x.model && m.atlasVer x.model == x.ver &&
  (x.ovl == 0xFFFF || (m.ovlsOf p).any (fun o => o.id == x.ovl && o.version == x.ovlVer && o.model == x.model))
/-- One standby entry: it ends, takes a FREE entry in MIGRATING, or waits for one. -/
def Mach.promoteOne (m : Mach) (p : Nat) (s : Standby) : Option Mach :=
  let x := s.ent
  let all := s.prompt ++ x.tokens
  if x.deadline ≠ 0 ∧ x.deadline < m.now then
    some (m.event p (({ x with endc := gcDeadline }).endRecord 0xFFFF m.now))
  else match (m.entsFree p).head? with
    | none => none
    | some e =>
      let y := { x with st := gsMigrating, pipe := 0xFF, length := 0, promptLen := s.prompt.length, generated := x.tokens.length, hlen := 0, tLast := m.now }
      let y := { y with rebuild := all.length, order := m.gzt.order, lastTok := all.getLast?.getD 0, ttft := if x.tokens.isEmpty then 0xFFFFFFFF else x.ttft }
      if !m.resident p x then
        some (((m.putEnt p e y).addSat R.GZT_PAIRSTAT_PROMOTED [p] 1).endNow p e gcPipeline)
      else
        let need := ceilDiv (s.prompt.length + x.maxNew) 64
        match m.stageRoom p (4 * all.length) with
        | none => none
        | some o =>
          if m.kvFree p < need then none
          else
            let m := m.withGzt { m.gzt with order := m.gzt.order + 1 }
            let m := m.putEnt p e { y with reserved := need, stage := o + 1, stageLen := 4 * all.length, prompt := s.prompt }
            let m := m.putTransom p o (all.flatMap (fun t => leBytes 4 t)) false
            let m := x.tokens.zipIdx.foldl (fun m t => m.logToken p e t.2 t.1) m
            some (((m.addSat R.GZT_PAIRSTAT_PROMOTED [p] 1).gztSync p).event p (eventBytes x.tag e ekPromoted gcOk x.tokens.length 0 0 0))
/-- Standby entries in admission order, while they can be placed; UNPAIRED once none is left. -/
def Mach.promoteAll : Nat → Mach → Nat → Mach
  | 0, m, _ => m
  | k + 1, m, p =>
    match (m.pair p).standby with
    | [] => (m.setPair p Pair.init).setPr p prUnpaired
    | s :: l =>
      match m.promoteOne p s with
      | none => m
      | some m => Mach.promoteAll k (m.setPair p { m.pair p with standby := l }) p
/-- Promotion goes on. -/
def Mach.promote (m : Mach) (p : Nat) : Mach :=
  if m.prState p = prPromoting ∧ m.running ∧ !m.shut p then Mach.promoteAll ((m.pair p).standby.length + 1) m p else m
/-- PROMOTING begins. -/
def Mach.promoting (m : Mach) (p : Nat) : Mach := if m.pairOn p then (m.setPr p prPromoting).promote p else m

/-! ### Messages (R592 to R595) -/

/-- A pair message reaches the partition of its job, from its peer. -/
def Mach.pairIn (m : Mach) (link src job kind : Nat) (act : Mach → Nat → Mach) : Mach :=
  if m.jobShut job then m else
  let m := m.consumed link clMemory
  let p := m.jobPart job
  if p = 0 then (m.addSat R.MRD_STAT_UNCLAIMED [] 1).unreachable src job 0x38 (0xA5000000 + kind)
  else if m.fld R.GZT_PAIRCFG_PEER [p] ≠ src ∨ !m.running then m
  else act m p
/-- HEARTBEAT: heard, or the answer to ENABLE on either side. -/
def Mach.pairHeard (m : Mach) (p feed run n : Nat) : Mach :=
  if m.pairOn p then m.setPair p { m.pair p with heard := m.now, misses := 0 }
  else if m.prState p ≠ prUnpaired ∨ !m.flag R.GZT_PAIRCFG_ENABLE [p] ∨ m.pstate p ≠ psActive then m
  else
    let asked := (m.pair p).asked != 0
    let m := (m.setFld R.GZT_PAIRSTAT_PEER_FEED [p] feed).setPair p Pair.init
    if run ≠ m.runId ∨ n ≠ m.entCount p then
      let m := m.prCode p prMismatch
      if asked then m else m.pairBeat p
    else if feed = m.feedId ∧ !m.flag R.GZT_PAIRCFG_PAIR_ALLOW_CORRELATED [p] then
      let m := m.prCode p prFeedEqual
      if asked then m else m.pairBeat p
    else
      let m := (m.prCode p 0).setPr p (if feed = m.feedId then prCorrelated else prPaired)
      let m := m.setPair p { m.pair p with heard := m.now }
      let m := if asked then m else m.pairBeat p
      m.pairSnapshot p
/-- A standby entry as it arrives. -/
def standbyOf (e : MirrorEnt) : Standby :=
  let x := { GEnt.init with tag := e.tag.toNat, prio := e.prio, pin := e.pin, model := e.model, ver := e.modelVer.toNat, ovl := e.ovl.toNat, ovlVer := e.ovlVer.toNat }
  let x := { x with sprof := e.sprof.toNat, deadline := e.deadline.toNat, profile := e.profile, seed := e.seed.toNat, gmask := e.gmask.toNat, maxNew := e.maxNew.toNat }
  { idx := e.idx, ent := { x with tokens := e.tokens.map (fun t => t.toNat) }, prompt := e.prompt.map (fun t => t.toNat) }
/-- A standby entry in Transom and its tokens in HBM (R595); their layout is the model's (log entry 17). -/
def Mach.standbyWrite (m : Mach) (p : Nat) (s : Standby) : Mach :=
  let x := s.ent
  let m := m.storeAt p (mkAddr 1 (m.fld R.GZT_PAIRSTBY_BASE [p] * 64 + 64 * s.idx))
    (leBytes 8 x.tag ++ leBytes 1 0 ++ leBytes 1 x.prio ++ leBytes 1 0xFF ++ leBytes 1 x.model ++ leBytes 2 x.ver ++ leBytes 2 x.ovl ++ leBytes 2 x.ovlVer ++
      leBytes 1 x.sprof ++ leBytes 5 0 ++ leBytes 4 s.prompt.length ++ leBytes 4 x.tokens.length ++ leBytes 8 0 ++ leBytes 8 x.deadline ++ leBytes 16 0)
  let bs := (s.prompt ++ x.tokens).flatMap (fun t => leBytes 4 t)
  let off := m.fld R.GZT_PAIRSTORE_BASE [p] * 2 ^ 21 + s.idx * m.fld R.GZT_PAIRSTORE_STRIDE [p] * 1024
  (m.storeAt p (mkAddr 2 off) bs).meter p mHbmWr bs.length
/-- A standby entry added, or replaced. -/
def Mach.putStandby (m : Mach) (p : Nat) (s : Standby) : Mach :=
  let x := m.pair p
  (m.setPair p { x with standby := x.standby.filter (fun y => y.idx != s.idx) ++ [s] }).standbyWrite p s
/-- MIRROR: the change is kept, and acknowledged. -/
def Mach.pairMirror (m : Mach) (p : Nat) (g : MirrorMsg) : Mach :=
  if !m.pairOn p then m
  else
    let m := match g with
      | .admitted e => m.putStandby p (standbyOf e)
      | .tokens l => l.foldl (fun (m : Mach) (t : EntryId × BitVec 32 × BitVec 32) =>
          let x := m.pair p
          match x.standby.find? (fun (y : Standby) => y.idx == t.1.val) with
          | none => m
          | some s =>
            let s := { s with ent := { s.ent with tokens := s.ent.tokens ++ [t.2.2.toNat] } }
            (m.setPair p { x with standby := x.standby.map (fun (y : Standby) => if y.idx = s.idx then s else y) }).standbyWrite p s) m
      | .ended i => m.setPair p { m.pair p with standby := (m.pair p).standby.filter (fun y => y.idx != i.val) }
    m.pairSend p 3 []
/-- MIRROR_ACK. -/
def Mach.pairAck (m : Mach) (p : Nat) : Mach :=
  let x := m.pair p
  if m.pairOn p ∧ x.acked < x.sent then m.setPair p { x with acked := x.acked + 1, waits := x.waits.drop 1 } else m
/-- SNAPSHOT of the partner's live entries. -/
def Mach.pairTake (m : Mach) (p : Nat) (l : List MirrorEnt) : Mach :=
  if m.pairOn p then l.foldl (fun m e => m.putStandby p (standbyOf e)) (m.setPair p { m.pair p with standby := [] }) else m
/-- LEAVE. -/
def Mach.pairLeft (m : Mach) (p : Nat) (faulted : Bool) : Mach :=
  if !m.pairOn p then m
  else if faulted then m.promoting p
  else (m.setPair p Pair.init).setPr p prUnpaired
/-- PAIR_HEARTBEAT_TIMER. -/
def Mach.pairTimer (m : Mach) (p : Nat) : Mach := if m.running && m.pairOn p then m.pairBeat p else m
/-- PAIR_HEARTBEAT_MISS: three heartbeats, each of 100 µs and at most 5 % more. -/
def Mach.pairMiss (m : Mach) (p : Nat) : Mach :=
  if m.running && m.pairOn p && decide ((m.pair p).heard + 315000 ≤ m.now) then (m.addSat R.GZT_PAIRSTAT_MISSED [p] 3).promoting p else m
/-- MIRROR_ACK_TIMEOUT. -/
def Mach.pairAckLate (m : Mach) (p : Nat) : Mach :=
  match (m.pair p).waits with
  | [] => m
  | t :: _ => if m.running && m.pairOn p && decide (t + 300000 ≤ m.now) then m.promoting p else m

end Sys2Proof.Machine
end

