-- ==== Sys2Proof/Machine/Pairs.lean ====
section
/-! DEFINITION. The rows of serving pairs (R592 to R596). -/

namespace Sys2Proof.Machine

/-- PAIR_ENABLE (R593). -/
def execPairEnable (part : PartId) (s : State) : Res := s.withM (if s.m.accepts then s.m.pairEnable (part.val + 1) else s.m)
/-- PAIR_DISABLE (R593). -/
def execPairDisable (part : PartId) (s : State) : Res := s.withM (if s.m.accepts then s.m.pairDisable (part.val + 1) else s.m)
/-- PAIR_ANSWER_TIMEOUT (R593). -/
def execPairAnswerTimeout (part : PartId) (s : State) : Res := s.withM (s.m.pairTimeout (part.val + 1))
/-- PAIR_HEARTBEAT_TIMER (R592). -/
def execPairHeartbeatTimer (part : PartId) (s : State) : Res := s.withM (s.m.pairTimer (part.val + 1))
/-- PAIR_HEARTBEAT (R592, R593). -/
def execPairHeartbeat (link : LinkId) (src : ModuleId) (job : BitVec 16) (feed : Fin 16) (runId : Word) (entries : BitVec 15) (s : State) : Res :=
  s.withM (s.m.pairIn link src.toNat job.toNat 1 (fun m p => m.pairHeard p feed runId.toNat entries.toNat))
/-- PAIR_HEARTBEAT_MISS (R593). -/
def execPairHeartbeatMiss (part : PartId) (s : State) : Res := s.withM (s.m.pairMiss (part.val + 1))
/-- MIRROR (R594, R595). -/
def execMirror (link : LinkId) (src : ModuleId) (job : BitVec 16) (msg : MirrorMsg) (s : State) : Res :=
  s.withM (s.m.pairIn link src.toNat job.toNat 2 (fun m p => m.pairMirror p msg))
/-- MIRROR_ACK (R594). -/
def execMirrorAck (link : LinkId) (src : ModuleId) (job : BitVec 16) (s : State) : Res :=
  s.withM (s.m.pairIn link src.toNat job.toNat 3 (fun m p => m.pairAck p))
/-- MIRROR_ACK_TIMEOUT (R593). -/
def execMirrorAckTimeout (part : PartId) (s : State) : Res := s.withM (s.m.pairAckLate (part.val + 1))
/-- SNAPSHOT (R593). -/
def execSnapshot (link : LinkId) (src : ModuleId) (job : BitVec 16) (entries : List MirrorEnt) (s : State) : Res :=
  s.withM (s.m.pairIn link src.toNat job.toNat 4 (fun m p => m.pairTake p entries))
/-- LEAVE (R593). -/
def execLeave (link : LinkId) (src : ModuleId) (job : BitVec 16) (faulted : Bool) (s : State) : Res :=
  s.withM (s.m.pairIn link src.toNat job.toNat 5 (fun m p => m.pairLeft p faulted))

end Sys2Proof.Machine
end

