-- ==== Sys2Proof/Machine/SecOps.lean ====
section
/-! DEFINITION. Life cycle (R617 to R621), rollback floors (R612), attestation (R613 to R616), direct configuration (R622), firmware update (R610, R611). -/

namespace Sys2Proof.Machine

/-! ### SEC_CMD -/

/-- Codes of SEC_CMDSTAT. -/
def scOk : Nat := 0
def scBusy : Nat := 1
def scBadToken : Nat := 2
def scSigFail : Nat := 3
def scNonce : Nat := 4
def scState : Nat := 5
def scLive : Nat := 6
def scSlotsFull : Nat := 7
def scFloorRange : Nat := 8
def scLcDenied : Nat := 9
/-- CODE of the running or last command. -/
def Mach.secCode (m : Mach) (code : Nat) : Mach := m.setFld R.SEC_CMDSTAT_CODE [] code
/-- A command of SEC_CMD: not in FATAL or POWER_FAIL; discarded with CODE = BUSY while another runs. -/
def State.secCmd (s : State) (op : Nat) (f : State → State) : State :=
  if !s.m.running then s
  else if s.m.flag R.SEC_CMDSTAT_BUSY [] then { s with m := s.m.secCode scBusy }
  else f { s with m := s.m.setFlds [] [(R.SEC_CMDSTAT_OP, op), (R.SEC_CMDSTAT_CODE, scOk)] }
/-- A command that ends with a code. -/
def State.secEnd (s : State) (code : Nat) : State := { s with m := s.m.secCode code }
/-- n free words as bytes. -/
def Mach.freeBytes : Nat → Mach → Mach × List Byte
  | 0, m => (m, [])
  | n + 1, m =>
    let r := Mach.freeBytes n m.drew
    (r.1, leBytes 8 m.free.toNat ++ r.2)
/-- NEW_NONCE (R619). -/
def Mach.newNonce (m : Mach) : Mach :=
  let r := Mach.freeBytes 4 m
  let m := r.1.setWindow R.SEC_NONCE_WORD [] 4 r.2
  { m with sec := { m.sec with nonceOk := true } }

/-! ### Tokens (R619) -/

/-- ASCII "SHBLCTOK". -/
def tokMagic : List Byte := [0x53, 0x48, 0x42, 0x4C, 0x43, 0x54, 0x4F, 0x4B]
/-- The layout of a token, its SERIAL, FROM and TO, and the signer its role needs. -/
def tokenForm (t : List Byte) (serial src dst signer : Nat) : Bool :=
  t.take 8 == tokMagic && leAt t 8 8 == serial && leAt t 48 1 == src && leAt t 49 1 == dst && zeroAt t 50 78 && leAt t 224 1 == signer && zeroAt t 225 31
/-- The check of a token in SEC_TOKBUF. -/
def State.tokenCheck (s : State) (owner : Bool) (dst : Nat) : Nat :=
  let t := ((s.m.window R.SEC_TOKBUF_WORD [] 64).drop (if owner then 0 else 256)).take 256
  if !tokenForm t s.nv.serial.toNat s.nv.lc dst (b2n (!owner)) then scBadToken
  else if !s.m.sec.nonceOk ∨ (t.drop 16).take 32 ≠ s.m.window R.SEC_NONCE_WORD [] 4 then scNonce
  else if (if owner then s.nv.ownerCheck t (fun _ => false) else s.nv.makerCheck t) = rcOk then scOk
  else scSigFail
/-- The first token of those an event needs that fails, the owner token first. -/
def State.tokensCheck (s : State) (owner maker : Bool) (dst : Nat) : Nat :=
  let a := if owner then s.tokenCheck true dst else scOk
  if a ≠ scOk then a else if maker then s.tokenCheck false dst else scOk

/-! ### Transitions (R617, R618, R620, R621) -/

/-- The fuses of a transition burned: its pending bit, and its done bit where it is complete. -/
def Nv.burn (n : Nv) (target : Nat) (done : Bool) : Nv := { n with trans := n.trans ++ [(target, done)] }
/-- A bank after the wipe: firmware stays (R620). -/
def Bank.wiped (b : Bank) : Bank := { b with images := [], commits := [], flush := none, ownerKey := [], ownerCrc := 0 }
/-- The owner slot in use revoked. -/
def revokeLast : List (Nat × Bool) → List (Nat × Bool)
  | [] => []
  | [x] => [(x.1, true)]
  | x :: l => x :: revokeLast l
/-- The wipe of the pending transition with the fuses it burns (R618, R620, R621). -/
def Nv.wiped (n : Nv) : Nv :=
  { n with bankA := n.bankA.wiped, bankB := n.bankB.wiped, owners := if n.lc = 2 then revokeLast n.owners else n.owners,
           idKey := if n.pendingLc = 5 then 2 ^ 256 - 1 else n.idKey, trans := n.trans.map (fun t => (t.1, true)) }
/-- The 16 pairs of the fuse row are used up (R617). -/
def Nv.rowFull (n : Nv) : Bool := decide (16 ≤ n.trans.length)
/-- PARTITIONS_LIVE does not hold a transition up (R618). -/
def Mach.lcFree (m : Mach) : Bool := m.allIdle && m.fld R.SHT_STATUS_STATE [] == 0
/-- A TRANSITION with a wipe: legal from the states named; it uses up the nonce whatever its outcome. -/
def State.transition (s : State) (froms : List Nat) (target : Nat) (owner maker : Bool) : State :=
  s.secCmd 3 (fun s =>
    let t := s.tokensCheck owner maker target
    let s : State := { s with m := { s.m with sec := { s.m.sec with nonceOk := false } } }
    if !froms.contains s.nv.lc ∨ s.nv.rowFull then s.secEnd scState
    else if !s.m.lcFree then s.secEnd scLive
    else if t ≠ scOk then s.secEnd t
    else
      let m := s.m.setFlds [] [(R.SEC_CMDSTAT_BUSY, 1), (R.SEC_LC_PENDING, 1)]
      { s with nv := s.nv.burn target false, m := { m with sec := { m.sec with target := target + 1 } } })
/-- PROVISION: no wipe; the module resets itself (R618). -/
def State.provision (s : State) : State :=
  s.secCmd 3 (fun s =>
    let t := s.tokensCheck false true 1
    let s : State := { s with m := { s.m with sec := { s.m.sec with nonceOk := false } } }
    if s.nv.lc ≠ 0 ∨ s.nv.rowFull then s.secEnd scState
    else if t ≠ scOk then s.secEnd t
    else State.selfReset { s with nv := s.nv.burn 1 true })
/-- CLAIM (R618): the owner key, x then y, at SEC_TOKBUF. -/
def State.claim (s : State) : State :=
  s.secCmd 2 (fun s =>
    let key := (s.m.window R.SEC_TOKBUF_WORD [] 64).take 64
    if s.nv.lc ≠ 1 ∨ s.nv.rowFull then s.secEnd scState
    else if 8 ≤ s.nv.owners.length then s.secEnd scSlotsFull
    else
      let n := { s.nv with owners := s.nv.owners ++ [(sm3 key, false)], bankA := s.nv.bankA.withOwnerKey key, bankB := s.nv.bankB.withOwnerKey key }
      State.selfReset { s with nv := n.burn 2 true })
/-- A TRANSITION by its TARGET (SEC_CMD). -/
def State.transitionTo (s : State) (target : Nat) : State :=
  match target, s.nv.lc with
  | 1, 0 => s.provision
  | 1, 2 => s.transition [2] 1 true false
  | 1, _ => s.transition [3] 1 false true
  | 3, _ => s.transition [2] 3 true true
  | 4, 2 => s.transition [2] 4 true false
  | 4, _ => s.transition [0, 1, 3] 4 false true
  | _, _ => s.transition [] 0 false false
/-- The wipe ends: of the transition accepted, or of the one that the boot found pending (R620, R621). -/
def State.wipeDone (s : State) : State :=
  let ph := s.m.fld R.PRT_STATUS_PHASE []
  if s.nv.pendingLc = 0 ∨ !((ph = 1 ∨ ph = 2) ∨ (s.m.running ∧ s.m.sec.target ≠ 0)) then s
  else State.selfReset { s with nv := s.nv.wiped }

/-! ### Floors (R612) -/

/-- IMG_FLOOR. -/
def State.setImgFloor (s : State) (v : Nat) : State :=
  s.secCmd 4 (fun s =>
    if s.m.lc = 4 then s.secEnd scState
    else if v < s.nv.imgFloor ∨ 128 < v ∨ s.m.sec.imgSvn < v then s.secEnd scFloorRange
    else { s with nv := { s.nv with imgFloor := v }, m := s.m.setFld R.SEC_FLOOR_IMG_FLOOR [] v })
/-- FW_FLOOR. -/
def State.setFwFloor (s : State) (v : Nat) : State :=
  s.secCmd 5 (fun s =>
    if s.m.lc = 4 then s.secEnd scState
    else if v < s.nv.fwFloor ∨ 64 < v ∨ s.m.fld R.SEC_FLOOR_FW_SVN [] < v then s.secEnd scFloorRange
    else { s with nv := { s.nv with fwFloor := v }, m := s.m.setFld R.SEC_FLOOR_FW_FLOOR [] v })

/-! ### Attestation (R613 to R616) -/

/-- FLAGS of a report. What a partition declares is 0 in the module report. -/
def Mach.reportFlags (m : Mach) (p : Nat) : Nat :=
  b2n (m.flag R.SEC_LC_DEBUG []) + 2 * b2n (m.flag R.PRT_STATUS_CFG_FALLBACK []) + 4 * b2n (p != 0 && m.fld R.GZT_PAIRSTAT_STATE [p] == prCorrelated) +
    8 * b2n (m.flag R.CFG_RUN_MODIFIED []) + 16 * b2n (p != 0 && !(m.maps p).isEmpty)
/-- Bytes 0 to 383 of a report (R615). -/
def Mach.attestation (m : Mach) (n : Nv) (p : Nat) (nonce : List Byte) : List Byte :=
  [0x53, 0x48, 0x42, 0x41, 0x54, 0x54, 0x53, 0x54] ++ leBytes 2 1 ++ leBytes 1 p ++ leBytes 1 m.lc ++ leBytes 1 (if p = 0 then 0 else m.pstate p) ++
    leBytes 1 (m.reportFlags p) ++ leBytes 2 0 ++ leBytes 8 n.serial.toNat ++ leBytes 8 m.now ++ nonce ++ leBytes 8 (m.fld R.CFG_RUN_ID_IMAGE_ID []) ++
    leBytes 8 (m.fld R.CFG_RUN_EPOCH []) ++ leBytes 4 (m.fld R.CFG_PEPOCH_EPOCH [p]) ++ leBytes 4 m.sec.imgSvn ++ leBytes 4 (m.fld R.SEC_FLOOR_FW_SVN []) ++
    leBytes 4 (Tbl.get 0 m.sec.keyGens p) ++ digestBytes (n.ownerDigest.getD 0) ++ (List.range 5).flatMap (fun i => m.window R.SEC_MR_WORD [i] 4) ++
    digestBytes (if p = 0 then 0 else Tbl.get 0 m.sec.pmr p) ++ digestBytes (if p = 0 then 0 else Tbl.get 0 m.sec.umr p) ++ List.replicate 32 0
/-- A report taken at this tick, in the queue of the Porter (R614). -/
def Mach.takeReport (m : Mach) (n : Nv) (p : Nat) (nonce : List Byte) : Mach :=
  { m with sec := { m.sec with reports := m.sec.reports ++ [(p, m.attestation n p nonce)] } }
/-- The trailer that the identity key makes of a message (R204, R608). -/
def Nv.idTrailer (n : Nv) (msg : List Byte) : List Byte :=
  digestBytes n.idDigest ++ leBytes 64 (Config.sm2Sign n.idKey msg).toNat ++ leBytes 1 1 ++ List.replicate 31 0
/-- REPORT through SEC_CMD. -/
def State.moduleReport (s : State) : State :=
  s.secCmd 6 (fun s =>
    if s.m.lc = 4 ∨ s.nv.pendingLc ≠ 0 then s.secEnd scState
    else { s with m := (s.m.setFld R.SEC_CMDSTAT_BUSY [] 1).takeReport s.nv 0 (s.m.window R.SEC_RNONCE_WORD [] 4) })
/-- REPORT through ATT_CMD. -/
def State.attReport (s : State) (p : Nat) : State :=
  let m := s.m
  if !m.running ∨ (m.conf.cfg.part p).isNone then s
  else if m.flag R.ATT_STAT_BUSY [p] then { s with m := m.setFld R.ATT_STAT_CODE [p] 1 }
  else if m.lc = 4 ∨ s.nv.pendingLc ≠ 0 then { s with m := m.setFld R.ATT_STAT_CODE [p] 2 }
  else { s with m := (m.setFlds [p] [(R.ATT_STAT_BUSY, 1), (R.ATT_STAT_CODE, 0)]).takeReport s.nv p (m.window R.ATT_NONCE_WORD [p] 4) }
/-- The oldest pending report is signed and readable (R608, R614). -/
def State.reportReady (s : State) : State :=
  match s.m.sec.reports with
  | [] => s
  | x :: l =>
    if !s.m.running ∨ s.nv.pendingLc ≠ 0 then s
    else
      let m := { s.m with sec := { s.m.sec with reports := l } }
      let b := x.2 ++ s.nv.idTrailer x.2
      { s with m := if x.1 = 0 then (m.setWindow R.SEC_REPORT_WORD [] 64 b).setFld R.SEC_CMDSTAT_BUSY [] 0
                    else (m.setWindow R.ATT_REPORT_WORD [x.1] 64 b).setFld R.ATT_STAT_BUSY [x.1] 0 }
/-- EXTEND (R613, R616). -/
def Mach.umrExtend (m : Mach) (p : Nat) : Mach :=
  if !m.running ∨ (m.conf.cfg.part p).isNone then m
  else if m.flag R.ATT_STAT_BUSY [p] then m.setFld R.ATT_STAT_CODE [p] 1
  else if m.pstate p ≠ psActive then m.setFld R.ATT_STAT_CODE [p] 2
  else
    let v := extended (Tbl.get 0 m.sec.umr p) (digestOf (m.window R.ATT_DATA_WORD [p] 4))
    ({ m with sec := { m.sec with umr := Tbl.set 0 m.sec.umr p v } }).setFld R.ATT_STAT_CODE [p] 0

/-! ### Direct configuration (R622) -/

/-- The bytes that CFG_CHART_ADDR and CFG_CHART_LEN name, through the PF of a port. -/
def Mach.chartSource (m : Mach) (port : Nat) : List Byte :=
  m.load (hostKey port 0 (m.fld R.CFG_CHART_ADDR_ADDR [] * 4096)) (m.fld R.CFG_CHART_LEN_LEN [])
/-- DIRECT_LOAD: the checks of R206 and R207, no signature. The check digest of an unsigned image and the code of a failed check are not
stated. -/
def Mach.directLoad (m : Mach) (n : Nv) (port : Nat) : Mach :=
  if m.lc ≠ 0 ∧ m.lc ≠ 3 then m.secCode scLcDenied
  else if !m.lcFree then m.secCode scLive
  else
    let b := m.chartSource port
    match m.imageCheck n.imgFloor false b with
    | some f => (m.drew.loadStatus f.1 0 f).secCode (m.free.toNat % 256)
    | none =>
      let r := Mach.freeBytes 4 m
      let m := (r.1.install b (r.1.fld R.CFG_RUN_CHART []) (r.1.fld R.CFG_RUN_BANK []) false (digestOf r.2)).loadStatus rcOk 0 (imgFail rcOk)
      m.setFlds [] [(R.PRT_STATUS_CFG_NONE, 0), (R.PRT_STATUS_CFG_FALLBACK, 0)]
/-- FACTORY_WRITE: a new factory image, which acts from the next reset. -/
def State.factoryWrite (s : State) (port : Nat) : State :=
  s.secCmd 8 (fun s =>
    if s.m.lc ≠ 0 then s.secEnd scLcDenied else { s with nv := { s.nv with factory := s.m.chartSource port } })

/-! ### Firmware update (R610, R611) -/

/-- ASCII "PRTFWIMG". -/
def fwMagic : List Byte := [0x50, 0x52, 0x54, 0x46, 0x57, 0x49, 0x4D, 0x47]
/-- A firmware image may be programmed: its layout, its maker signature, its SVN. -/
def Nv.fwOk (n : Nv) (b : List Byte) : Bool :=
  b.take 8 == fwMagic && leAt b 16 8 == b.length && decide (b.length ≤ 917504) && n.makerCheck b == rcOk && decide (n.fwFloor ≤ leAt b 8 4)
/-- PLDM firmware update (R477, R609, R611): over any medium once the module is READY, over SMBus alone while the ROM has no valid copy. -/
def State.fwUpdate (s : State) (medium : Nat) (b : List Byte) : State :=
  let ph := s.m.fld R.PRT_STATUS_PHASE []
  let here := (ph == phaseReady && s.m.fld R.ERR_MSTATE_STATE [] != 2) || (ph == 1 && s.m.sec.fwRun == 0 && medium == 2)
  if !here ∨ s.nv.lc = 4 ∨ s.nv.pendingLc ≠ 0 ∨ !s.nv.fwOk b then s
  else
    let k := if s.m.sec.fwRun = 1 then 1 else 0
    { s with nv := s.nv.setBank k { s.nv.bank k with fwSvn := leAt b 8 4, fwValid := true, fwImage := b } }

end Sys2Proof.Machine
end

