-- ==== Sys2Proof/Machine/PowerOps.lean ====
section
/-! DEFINITION. Power limits (R630, R631), die temperatures (R639), the reference clock (R635), margining (R641, R642). -/

namespace Sys2Proof.Machine

/-- The firmware runs or the boot has begun: faults of the module can be raised. -/
def State.awake (s : State) : Bool := s.ext.power && s.ext.resetN && s.m.fld R.PRT_STATUS_PHASE [] != 0
/-- The panes that are present. -/
def Mach.presentPanes (m : Mach) : List Nat := (List.range 384).filter (fun q => m.flag R.PNE_ID_PRESENT [q])

/-! ### The power limit (R630) -/

/-- Every pane's clock 100 MHz below what it runs at; nothing lies below 0. -/
def Mach.powerDown (m : Mach) : Mach :=
  let l := m.presentPanes.foldl (fun (t : Tbl Nat) q => Tbl.set 0 t q (m.fld R.PNE_CLOCK_ACTUAL_MHZ [q] - 100 + 1)) m.pwr.level
  ({ m with pwr := { m.pwr with level := l, downAt := m.now + 1, stepAt := m.now + 1 } }).clockSyncAll
/-- Every pane that power holds 25 MHz higher, up to its target. -/
def Mach.powerUp (m : Mach) : Mach :=
  let l := m.presentPanes.foldl (fun (t : Tbl Nat) q => match Tbl.get 0 t q with
    | 0 => t
    | k + 1 => Tbl.set 0 t q (if m.fld R.PNE_CLOCK_TARGET_MHZ [q] ≤ k + 25 then 0 else k + 26)) m.pwr.level
  ({ m with pwr := { m.pwr with level := l, stepAt := m.now + 1 } }).clockSyncAll
/-- A reading of the input, one every 1 µs: the means of the last 1 ms and 10 ms, PEAK_W, and one step of the clocks. -/
def Mach.powerReading (m : Mach) (w mv : Nat) : Mach :=
  let l : List (Nat × Nat) := (w, mv) :: m.pwr.samples.take 9999
  let ms := l.take 1000
  let sum (l : List (Nat × Nat)) : Nat := (l.map (fun (x : Nat × Nat) => x.1)).sum
  let mean := sum ms / ms.length
  let m : Mach := { m with pwr := { m.pwr with samples := l } }
  let m := m.setFlds [] [(R.PRT_POWER_INPUT_W, mean), (R.PRT_POWER_INPUT_MV, (ms.map (fun (x : Nat × Nat) => x.2)).sum / ms.length), (R.PRT_POWER_PEAK_W, max (m.fld R.PRT_POWER_PEAK_W []) mean)]
  let limit := min 3200 (m.fld R.PRT_PWRCAP_CAP_W [])
  let due := decide (m.pwr.downAt = 0 ∨ m.pwr.downAt + 10000 ≤ m.now + 1)
  if limit * l.length < sum l ∨ 3500 * ms.length < sum ms then (if due then m.powerDown else m)
  else if !m.pwr.level.isEmpty ∧ 100 * sum l ≤ 97 * limit * l.length ∧ m.pwr.stepAt + 100000 ≤ m.now + 1 then m.powerUp
  else m

/-! ### Die temperatures (R639) -/

/-- One pane at its sensor's reading. -/
def Mach.heatPane (m : Mach) (q : Nat) (t : Int) : Mach :=
  let cool (m : Mach) (v : Nat) : Mach := { m with pwr := { m.pwr with coolAt := Tbl.set 0 m.pwr.coolAt q v } }
  let put (m : Mach) (v : Nat) : Mach :=
    ({ m with pwr := { m.pwr with heat := Tbl.set 0 m.pwr.heat q v, heatAt := Tbl.set 0 m.pwr.heatAt q (m.now + 1) } }).clockSync q
  let last := Tbl.get 0 m.pwr.heatAt q
  if 100 ≤ t then
    let m := cool m 0
    if last = 0 ∨ last + 10000 ≤ m.now + 1 then put m (m.fld R.PNE_CLOCK_ACTUAL_MHZ [q] - 25 + 1) else m
  else if t ≤ 97 then
    let since := Tbl.get 0 m.pwr.coolAt q
    if since = 0 then cool m (m.now + 1)
    else match Tbl.get 0 m.pwr.heat q with
      | 0 => m
      | k + 1 =>
        if since + 1000000 ≤ m.now + 1 ∧ last + 100000 ≤ m.now + 1 then put m (if m.fld R.PNE_CLOCK_TARGET_MHZ [q] ≤ k + 25 then 0 else k + 26) else m
  else cool m 0
/-- The sensors of PRT_THERMd: 16 on each die, one at the coolant inlet and one at its outlet. -/
def sensorsOf (d : Nat) : Nat := if d < 10 then 16 else 1
/-- A reading of a sensor below the trip temperature: TEMP, MAX_TEMP, the panes it governs and THROTTLE. -/
def Mach.dieReading (m : Mach) (d sensor : Nat) (t : Int) : Mach :=
  let fresh := (List.range (sensorsOf d)).all (fun k => Tbl.get (-256) m.pwr.sensors (d * 16 + k) == (-256 : Int))
  let m := { m with pwr := { m.pwr with sensors := Tbl.set (-256) m.pwr.sensors (d * 16 + sensor) t } }
  let hot := (List.range (sensorsOf d)).foldl (fun (a : Int) k => max a (Tbl.get (-256) m.pwr.sensors (d * 16 + k))) t
  let peak := if fresh then hot else max hot (signed 8 (m.fld R.PRT_THERM_MAX_TEMP [d]))
  let m := m.setFlds [d] [(R.PRT_THERM_TEMP, wrapInt 8 hot), (R.PRT_THERM_MAX_TEMP, wrapInt 8 peak)]
  if 8 ≤ d then m
  else
    let qs := m.presentPanes.filter (fun q => dieOf q == d)
    let m := (qs.filter (fun q => Config.nearestSensor q % 16 == sensor)).foldl (fun m q => m.heatPane q t) m
    let m := m.setFld R.PRT_THERM_THROTTLE [d] (b2n (qs.any (fun q => m.fld R.PNE_CLOCK_LIMIT [q] == 2)))
    m.setFld R.PRT_POWER_LIMITING [] (b2n (m.presentPanes.any (fun q => m.fld R.PNE_CLOCK_LIMIT [q] == 1)))
/-- A thermal trip: the rails go off and everything volatile with them, without a flush. -/
def State.thermTrip (s : State) : State :=
  let s : State := { s with ext := { s.ext with tripped := true } }
  let s := s.enterReset
  { s with m := (s.m.emit (.pin 1 false)).emit (.pin 2 false) }
/-- A reading of a sensor; the trip acts on the sensors of the dies. -/
def State.tempReading (s : State) (d sensor : Nat) (t : Int) : State :=
  if !s.ext.power ∨ s.ext.tripped ∨ sensorsOf d ≤ sensor then s
  else if 115 ≤ t ∧ d < 10 then s.thermTrip
  else if s.awake then { s with m := s.m.dieReading d sensor t } else s

/-! ### Margining (R641, R642) -/

/-- A run fails to start with a code. -/
def Mach.marginCode (m : Mach) (c : Nat) : Mach := m.setFld R.PRT_MARGIN_STAT_CODE [] c
/-- A run starts: kind 1 HBM, 2 link. -/
def Mach.marginBegin (m : Mach) (kind target : Nat) : Mach :=
  let m := { m with pwr := { m.pwr with margin := kind, target := target } }
  m.setFlds [] [(R.PRT_MARGIN_STAT_BUSY, 1), (R.PRT_MARGIN_STAT_CODE, 0), (R.PRT_MARGIN_STAT_TARGET, target), (R.PRT_MARGIN_STAT_WINDOW_MV, 0), (R.PRT_MARGIN_STAT_WINDOW_MUI, 0)]
/-- The conditions of both runs, then those of the target. -/
def Mach.marginStart (m : Mach) (kind target : Nat) : Mach :=
  if m.margining then m.marginCode 1
  else if !m.flag R.SEC_LC_MARGIN [] then m.marginCode 2
  else if kind = 1 then
    (if m.tier.frameOwner.any (fun e => e.1 % 512 == target) then m.marginCode 3
     else if m.fld R.MEM_CHAN_STATE [target] = 0 then m.marginCode 4
     else m.marginBegin 1 target)
  else if 180 ≤ target then m.marginCode 4
  else if m.lstate (target / 18) ≠ lkDown then m.marginCode 3
  else m.marginBegin 2 target
/-- A run is over: an HBM channel trains again, or fails; then what waited for it goes on, and the provider hears of it (log entry 95). -/
def Mach.marginEnd (m : Mach) (code : Nat) (trained : Bool) : Mach :=
  let x := m.pwr
  let m := { m with pwr := { m.pwr with margin := 0, acts := [], enables := [], fills := [] } }
  let m := m.setFlds [] [(R.PRT_MARGIN_STAT_BUSY, 0), (R.PRT_MARGIN_STAT_CODE, code)]
  let m := if x.margin = 1 ∧ !trained then m.chanFail x.target else m
  let m := x.acts.foldl (fun m p => if m.pstate p = psDefined ∨ m.pstate p = psTornDown then m.loadPart p else m) m
  let m := x.enables.foldl (fun m n => m.linkEnable n) m
  (x.fills.foldl (fun m r => m.fill r) m).pfVector 3

end Sys2Proof.Machine
end

