-- ==== Sys2Proof/Machine/Power.lean ====
section
/-! DEFINITION. The rows of power, temperature, clock and margining (R630 to R642). -/

namespace Sys2Proof.Machine

/-- POWER_MEASUREMENT (R630): power in W, voltage in mV. -/
def execPowerMeasurement (watts : BitVec 14) (millivolts : BitVec 16) (s : State) : Res :=
  s.withM (if s.awake then s.m.powerReading watts.toNat millivolts.toNat else s.m)
/-- DIE_TEMP_READING (R639): die as in PRT_THERMd, in °C. -/
def execDieTempReading (die : Fin 12) (sensor : Fin 16) (celsius : BitVec 8) (s : State) : Res := .next (s.tempReading die sensor celsius.toInt)
/-- THERMAL_FATAL (R639). -/
def execThermalFatal (die : Fin 10) (s : State) : Res := s.withM (if s.awake then s.m.fatal 0x33 (isl 7 0) die else s.m)
/-- SYS_REFCLK_LOSS (R635). -/
def execSysRefclkLoss (s : State) : Res :=
  .next (if s.awake ∧ s.ext.refclk then
           { s with ext := { s.ext with refclk := false }, m := (s.m.setFld R.PRT_STATUS_REFCLK_OK [] 0).fatal 0x34 (isl 7 0) 0 }
         else s)
/-- MARGIN_HBM (R641): HBM_RATE 0 to 2. -/
def execMarginHbm (chan : ChanId) (_rate : Fin 3) (s : State) : Res := s.withM (if s.m.accepts then s.m.marginStart 1 chan else s.m)
/-- MARGIN_LINK (R641): link × 18 + lane. -/
def execMarginLink (target : Fin 512) (s : State) : Res := s.withM (if s.m.accepts then s.m.marginStart 2 target else s.m)
/-- MARGIN_ABORT (R642): a retraining that fails comes as a CHANNEL_TRAINING_TIMEOUT. -/
def execMarginAbort (s : State) : Res := s.withM (if s.m.accepts ∧ s.m.margining then s.m.marginEnd 5 true else s.m)
/-- MARGIN_RUN_DONE (R642): the windows found, in mV and 1/1,000 UI, and whether the channel trains again. -/
def execMarginRunDone (mv mui : BitVec 12) (trained : Bool) (s : State) : Res :=
  s.withM (if s.m.running ∧ s.m.margining then
             (s.m.setFlds [] [(R.PRT_MARGIN_STAT_WINDOW_MV, mv.toNat), (R.PRT_MARGIN_STAT_WINDOW_MUI, mui.toNat)]).marginEnd 0 trained
           else s.m)

end Sys2Proof.Machine
end

