-- ==== Sys2Proof/Machine/Security.lean ====
section
/-! DEFINITION. The rows of identity, attestation and life cycle (R604 to R623). -/

namespace Sys2Proof.Machine

/-- NEW_NONCE (R619). -/
def execNewNonce (s : State) : Res := .next (s.secCmd 1 (fun s => { s with m := s.m.newNonce }))
/-- CLAIM (R618). -/
def execClaim (s : State) : Res := .next s.claim
/-- PROVISION (R618). -/
def execProvision (s : State) : Res := .next s.provision
/-- RELEASE (R618). -/
def execLcRelease (s : State) : Res := .next (s.transition [2] 1 true false)
/-- RETURN (R618). -/
def execLcReturn (s : State) : Res := .next (s.transition [2] 3 true true)
/-- REISSUE (R618). -/
def execReissue (s : State) : Res := .next (s.transition [3] 1 false true)
/-- SCRAP (R618): by the owner in DEPLOYED, by the maker elsewhere. -/
def execScrap (s : State) : Res := .next (s.transitionTo 4)
/-- WIPE_DONE (R618, R620, R621). -/
def execWipeDone (s : State) : Res := .next s.wipeDone
/-- IMG_FLOOR (R612). -/
def execImgFloor (value : BitVec 8) (s : State) : Res := .next (s.setImgFloor value.toNat)
/-- FW_FLOOR (R612). -/
def execFwFloor (value : BitVec 8) (s : State) : Res := .next (s.setFwFloor value.toNat)
/-- REPORT through SEC_CMD (R614). -/
def execModuleReport (s : State) : Res := .next s.moduleReport
/-- DIRECT_LOAD (R622): port is the one whose PF wrote the command. -/
def execDirectLoad (port : PortId) (s : State) : Res := .next (s.secCmd 7 (fun s => { s with m := s.m.directLoad s.nv port }))
/-- FACTORY_WRITE (R622). -/
def execFactoryWrite (port : PortId) (s : State) : Res := .next (s.factoryWrite port)
/-- REPORT through ATT_CMD (R614, R616). -/
def execAttReport (part : PartId) (s : State) : Res := .next (s.attReport (part.val + 1))
/-- REPORT_READY (R614). -/
def execReportReady (s : State) : Res := .next s.reportReady
/-- EXTEND (R613, R616). -/
def execExtend (part : PartId) (s : State) : Res := s.withM (s.m.umrExtend (part.val + 1))
/-- PLDM_FIRMWARE_UPDATE (R611): the whole image as transferred. -/
def execPldmFirmwareUpdate (medium : Fin 3) (image : List Byte) (s : State) : Res := .next (s.fwUpdate medium image)

end Sys2Proof.Machine
end

