-- ==== Sys2Proof/Machine/Serve.lean ====
section
/-! DEFINITION. The commands of serving (08). -/

namespace Sys2Proof.Machine

/-- ADMIT (R337). -/
def execAdmitReq (part : PartId) (s : State) : Res := s.withM (if s.m.accepts then s.m.admitReq (part.val + 1) else s.m)
/-- PROMPT_FETCH_DONE (R337). -/
def execPromptFetchDone (part : PartId) (how : FetchEnd) (s : State) : Res := s.withM (s.m.promptDone (part.val + 1) how)
/-- CANCEL (R333, R339). -/
def execCancel (part : PartId) (s : State) : Res := s.withM (if s.m.accepts then s.m.cancelReq (part.val + 1) else s.m)
/-- RETIRE (R333, R339). -/
def execRetire (part : PartId) (s : State) : Res := s.withM (if s.m.accepts then (s.m.retireReq (part.val + 1)).promote (part.val + 1) else s.m)
/-- HANDLE_RELEASE (R358). -/
def execHandleRelease (part : PartId) (s : State) : Res := s.withM (if s.m.accepts then s.m.releaseReq (part.val + 1) else s.m)
/-- MIGRATE (R333, R339). -/
def execMigrate (part : PartId) (s : State) : Res := s.withM (if s.m.accepts then s.m.migrateReq (part.val + 1) else s.m)
/-- OVL_LOAD (R359). -/
def execOvlLoad (part : PartId) (s : State) : Res := s.withM (if s.m.accepts then s.m.ovlLoad (part.val + 1) else s.m)
/-- OVERLAY_FETCH_DONE (R359). -/
def execOverlayFetchDone (part : PartId) (how : FetchEnd) (s : State) : Res := s.withM (s.m.overlayDone (part.val + 1) how)
/-- OVL_DROP (R360). -/
def execOvlDrop (part : PartId) (s : State) : Res := s.withM (if s.m.accepts then s.m.ovlDrop (part.val + 1) else s.m)
/-- ATLAS_REGISTER (R328). -/
def execAtlasRegister (owner : OwnerId) (slot : Fin 64) (s : State) : Res := s.withM (if s.m.accepts then s.m.atlasRegister owner slot else s.m)
/-- ATLAS_DROP (R328). -/
def execAtlasDrop (owner : OwnerId) (slot : Fin 64) (s : State) : Res := s.withM (if s.m.accepts then s.m.atlasDrop owner slot else s.m)
/-- PIPELINE_ENABLE (R326). -/
def execPipelineEnable (pipe : PipeId) (s : State) : Res := s.withM (if s.m.accepts then s.m.pipeEnable pipe else s.m)
/-- PIPELINE_DISABLE (R366). -/
def execPipelineDisable (pipe : PipeId) (s : State) : Res := s.withM (if s.m.accepts then s.m.pipeDisable pipe else s.m)
/-- STEP_OPEN (R340 to R342). -/
def execStepOpen (pipe : PipeId) (s : State) : Res := s.withM ((s.m.promote (s.m.pipePart pipe)).stepOpenPipe pipe)
/-- SAMPLER_SHARD (R343). -/
def execSamplerShard (route : RouteId) (s : State) : Res := s.withM (s.m.throughRoute route (fun m => m.samplerShard route))
/-- SAMPLE_ROW (R350). -/
def execSampleRow (die : DieId) (s : State) : Res := s.withM (s.m.sampleOne die)
/-- SEAL (R344). -/
def execSealStep (pipe : PipeId) (s : State) : Res := s.withM (s.m.sealPipe pipe)
/-- OUTPUT_BATCH_WRITE (R345). -/
def execOutputBatchWrite (part : PartId) (s : State) : Res := s.withM (s.m.outputWrite (part.val + 1))
/-- EVENT_BATCH_WRITE (R347). -/
def execEventBatchWrite (part : PartId) (s : State) : Res := s.withM (s.m.eventWrite (part.val + 1))

/-- A byte count TAIL of a ring written: past HEAD or backwards it is discarded (R345, R470). -/
def Mach.tailWrite (m : Mach) (fHead fTail : Fld) (ix : List Nat) (v : Nat) : Mach :=
  let old := m.fld fTail ix
  if (v + 2 ^ 64 - old) % 2 ^ 64 ≤ (m.fld fHead ix + 2 ^ 64 - old) % 2 ^ 64 then m.setFld fTail ix v else m

/-- OUTPUT_RING_TAIL_WRITE (R345). -/
def execOutputRingTailWrite (part : PartId) (tail : Word) (s : State) : Res :=
  s.withM (if s.m.accepts then s.m.tailWrite R.GZT_POUT_HEAD_HEAD R.GZT_POUT_TAIL_TAIL [part.val + 1] tail.toNat else s.m)
/-- LINGER_EXPIRY (R334). -/
def execLingerExpiry (entry : EntryId) (s : State) : Res := s.withM ((s.m.lingerExpiry entry).promote (s.m.entPart entry))

end Sys2Proof.Machine
end

