-- ==== Sys2Proof/Machine/ShutOps.lean ====
section
/-! DEFINITION. The Shutter (14): requests (R538 to R543), the cut (R544 to R550), scan-out (R551 to R555), reopening (R556 to R559). -/

namespace Sys2Proof.Machine

/-- Scopes (R538). -/
def scModule : Nat := 0
def scPartition : Nat := 1
def scFabric : Nat := 2
def scJob : Nat := 3
/-- STATE of the Shutter (R556). -/
def Mach.shtState (m : Mach) : Nat := m.fld R.SHT_STATUS_STATE []
/-- STATE set. -/
def Mach.setSht (m : Mach) (st : Nat) : Mach := m.setFld R.SHT_STATUS_STATE [] st
/-- CODE set. -/
def Mach.shtCode (m : Mach) (c : Nat) : Mach := m.setFld R.SHT_STATUS_CODE [] c
/-- A bit of FLAGS set: 0 LATE, 1 UNALIGNED, 2 TRUNCATED, 3 POISONED, 4 NO_PDEST, 5 CAP_FULL. -/
def Mach.shtFlag (m : Mach) (i : Nat) (b : Bool) : Mach :=
  if b then m.setFld R.SHT_STATUS_FLAGS [] (putBits (m.fld R.SHT_STATUS_FLAGS []) i i 1) else m

/-- A request for a stop or a reopening: the fields of SHUTTER_REQ (R542), with those of SHT_CMD that do not travel. -/
structure ShutReq where
  origin : Nat
  job : Nat
  id : Nat
  time : Nat
  reopen : Bool
  scope : Nat
  part : Nat
  noscan : Bool
deriving DecidableEq, Repr

/-! ### Messages (R433, R542) -/

/-- The body of SHUTTER_REQ. -/
def ShutReq.body (r : ShutReq) : List Byte :=
  leBytes 2 r.origin ++ leBytes 2 r.job ++ leBytes 4 r.id ++ leBytes 8 r.time ++ leBytes 1 (if r.reopen then 2 else 1) ++ leBytes 1 r.scope ++ List.replicate 6 0
/-- A body, none where it breaks the layout. -/
def ShutReq.ofBody (b : List Byte) : Option ShutReq :=
  let act := leAt b 16 1
  let sc := leAt b 17 1
  if b.length = 24 ∧ (act = 1 ∨ act = 2) ∧ (sc = 2 ∨ sc = 3) ∧ zeroAt b 18 6 ∧ leAt b 0 2 ≤ 4095 then
    some { origin := leAt b 0 2, job := leAt b 2 2, id := leAt b 4 4, time := leAt b 8 8, reopen := act == 2, scope := sc, part := 0, noscan := false }
  else none
/-- The key under which a request counts as seen: its pair and its action, since a reopening carries the pair of its stop (R541, R557). -/
def ShutReq.key (r : ShutReq) : Nat × Nat := (r.origin, 2 * r.id + b2n r.reopen)
/-- A request sent on every UP or DEGRADED link but one, and noted as seen. -/
def Mach.shutSend (m : Mach) (r : ShutReq) (but : Option Nat) : Mach :=
  let m := { m with mrd := { m.mrd with seenReq := m.mrd.seenReq ++ [r.key] } }
  ((List.range 10).filter (fun n => m.linkUp n && but != some n)).foldl (fun m n =>
    m.sendOn n (m.fld R.MRD_LPEER_MODULE [n]) 0 0x18 16 0 m.moduleId r.body false) m

/-! ### T_stop (R544 to R547) -/

/-- The partitions of a scope (R538). -/
def Mach.shutParts (m : Mach) (scope part job : Nat) : List Nat :=
  let p := if scope = scPartition then part else m.jobPart job
  if scope = scModule ∨ scope = scFabric then (List.range 32).map (fun i => i + 1) else if 1 ≤ p ∧ p ≤ 32 then [p] else []
/-- T_stop on the module: nothing of the scope begins from here on; copies stop at their next 64 KiB boundary (R184, R544). -/
def Mach.shutStop (m : Mach) : Mach :=
  let ps := m.shutParts (m.fld R.SHT_STATUS_SCOPE []) (m.fld R.SHT_STATUS_PARTITION []) m.sht.job
  let m := { m with sht := { m.sht with parts := ps } }
  let m := (ps.foldl (fun m p => m.hold p hdShut) m).setSht 2
  let m := ps.foldl (fun m p => ((m.conf.cfg.panes p).filter (fun q => m.paneOwner q == p)).foldl (fun m q => m.copyPause q) m) m
  m.shtFlag 1 (m.fld R.GRT_STATUS_STATE [] != gtSynced)

/-! ### Requests (R539 to R541, R543, R551) -/

/-- One scope stops everything that another stops, on every module (R541). -/
def Mach.scopeCovers (m : Mach) (a : Nat × Nat × Nat) (b : Nat × Nat × Nat) : Bool :=
  let p (x : Nat × Nat × Nat) : Nat := if x.1 = scPartition then x.2.1 else m.jobPart x.2.2
  a == b || a.1 == scFabric || (a.1 == scModule && (b.1 == scModule || b.1 == scPartition)) || (a.1 == scJob && b.1 == scPartition && p a == p b) ||
  (a.1 == scJob && b.1 == scJob && a.2.2 == b.2.2) || (a.1 == scPartition && b.1 == scPartition && a.2.1 == b.2.1) || (a.1 == scModule && b.1 == scModule)
/-- A new request replaces the pending stop (R541); between equal scopes and times, origin and request ID decide. -/
def Mach.shutWins (m : Mach) (r : ShutReq) : Bool :=
  let t := m.fld R.SHT_TSTOP_TIME []
  let old := (m.fld R.SHT_STATUS_SCOPE [], m.fld R.SHT_STATUS_PARTITION [], m.sht.job)
  let new := (r.scope, r.part, r.job)
  let o := m.fld R.SHT_REQ_ORIGIN []
  let i := m.fld R.SHT_REQ_REQ_ID []
  let big := m.scopeCovers new old
  let small := m.scopeCovers old new
  decide (r.time < t) || (r.time == t && ((big && !small) || (big == small && (decide (r.origin < o) || (r.origin == o && decide (r.id < i))))))
/-- Why a request for a stop is refused: DENIED in SCRAPPED, NO_DEST outside DEPLOYED; 0 where it is not. A PARTITION that names none is
rejected (R10); R538 to R556 name no code for it, and DENIED is the model's choice (log entry 52). -/
def Mach.shutRefusal (m : Mach) (r : ShutReq) : Nat :=
  let sp := m.fld R.SHT_DEST_SPACE []
  let set := (sp == 3 || sp == 8 || sp == 9) && m.fld R.SHT_DESTLEN_MIB [] != 0
  if m.lc = 4 then 3
  else if r.scope = scPartition ∧ (r.part = 0 ∨ 32 < r.part) then 3
  else if m.lc ≠ 2 ∧ !r.noscan ∧ !set then 5 else 0
/-- A stop is taken: PENDING, or stopped at once where its time has passed (R543). -/
def Mach.shutTake (m : Mach) (r : ShutReq) : Mach :=
  let late := decide (r.time < m.now)
  let m := m.setFlds [] [(R.SHT_STATUS_STATE, 1), (R.SHT_STATUS_CODE, 0), (R.SHT_STATUS_FLAGS, b2n late), (R.SHT_STATUS_SCOPE, r.scope),
    (R.SHT_STATUS_PARTITION, r.part), (R.SHT_TSTOP_TIME, r.time), (R.SHT_REQ_ORIGIN, r.origin), (R.SHT_REQ_REQ_ID, r.id)]
  let m := { m with sht := { m.sht with noscan := r.noscan, job := r.job, arrive := if late then m.now else 0, parts := [] } }
  if late then m.shutStop else m
/-- A request for a stop against the state (R541, R556): whether it was taken. -/
def Mach.shutRequest (m : Mach) (r : ShutReq) : Mach × Bool :=
  let c := m.shutRefusal r
  if c ≠ 0 then (m.shtCode c, false)
  else if m.shtState = 0 then (m.shutTake r, true)
  else if m.shtState = 1 then (if m.shutWins r then (m.shutTake r, true) else (m, false))
  else (m.addSat R.SHT_STATUS_IGNORED [] 1, false)
/-- Whether a reopening names the stop in force (R557). -/
def Mach.reopenFits (m : Mach) (r : ShutReq) : Bool :=
  r.scope == m.fld R.SHT_STATUS_SCOPE [] && (r.scope != scPartition || r.part == m.fld R.SHT_STATUS_PARTITION []) && (r.scope != scJob || r.job == m.sht.job) &&
  r.id == m.fld R.SHT_REQ_REQ_ID []
/-- A reopening against the state (R556, R557): whether it was taken. In STOPPING and REOPENING, absent from R556, nothing is done (R19). -/
def Mach.reopenRequest (m : Mach) (r : ShutReq) : Mach × Bool :=
  let st := m.shtState
  if st = 0 ∨ st = 1 then (m.shtCode 4, false)
  else if st = 4 then (m.shtCode 1, false)
  else if st = 2 ∨ st = 6 then (m, false)
  else if !m.reopenFits r then (m.shtCode 4, false)
  else (m.setFlds [] [(R.SHT_STATUS_STATE, 6), (R.SHT_STATUS_CODE, 0), (R.SHT_TOPEN_TIME, r.time)], true)
/-- The time that LEAD gives (R539): none where it is below the minimum of the scope. -/
def Mach.leadTime (m : Mach) (scope lead : Nat) : Option Nat :=
  let least := if scope = scFabric ∨ scope = scJob then 2000 else 64
  if lead = 0 then some (m.now + least) else if lead < least then none else some (m.now + lead)
/-- STOP of SHT_CMD (R539), in SCRAPPED refused whatever it asks (R540). The request ID is the module's to choose. -/
def Mach.shutCmd (m : Mach) (scope : Nat) (noscan : Bool) (lead part job : Nat) : Mach :=
  if m.lc = 4 then m.shtCode 3 else
  match m.leadTime scope lead with
  | none => m.shtCode 2
  | some t =>
    let r : ShutReq := { origin := m.moduleId, job := if scope = scJob then job else 0, id := m.free.toNat % 2 ^ 32, time := t, reopen := false, scope := scope,
                         part := if scope = scPartition then part else 0, noscan := noscan }
    let a := m.drew.shutRequest r
    if a.2 ∧ 2 ≤ scope then a.1.shutSend r none else a.1
/-- REOPEN of SHT_CMD (R557): the request it opens is the one in force. -/
def Mach.reopenCmd (m : Mach) (scope lead part job : Nat) : Mach :=
  match m.leadTime scope lead with
  | none => m.shtCode 2
  | some t =>
    let r : ShutReq := { origin := m.fld R.SHT_REQ_ORIGIN [], job := if scope = scJob then job else 0, id := m.fld R.SHT_REQ_REQ_ID [], time := t, reopen := true,
                         scope := scope, part := if scope = scPartition then part else 0, noscan := false }
    let a := m.reopenRequest r
    if a.2 ∧ 2 ≤ scope then a.1.shutSend r none else a.1
/-- SHUTTER_REQ (R433, R541, R542). -/
def Mach.shutIn (m : Mach) (n : Nat) (body : List Byte) : Mach :=
  if !m.linkUp n then m
  else
    let m := m.consumed n clShutter
    match ShutReq.ofBody body with
    | none => m.violation n 0x03 clShutter 0
    | some r =>
      if m.mrd.seenReq.contains r.key then m
      else
        let m := m.shutSend r (some n)
        if r.scope = scJob ∧ m.jobPart r.job = 0 then m
        else if r.reopen then (m.reopenRequest r).1 else (m.shutRequest r).1

/-! ### T_CUT (R544, R550) -/

/-- What a command sends cannot arrive while the module stands still: a conduit's back-pressure holds it, or the slice of its receiver belongs
to another partition (R36, R184). -/
def Mach.outHeld (m : Mach) (pane : Nat) (q : QCmd) : Bool :=
  m.pressed pane q || m.core.xfers.any (fun e => e.2.any (fun x => x.sentBy pane q) &&
    (m.conf.cfg.route e.1).any (fun r => decide (routeDst r < 384) && m.paneOwner (routeDst r) != leAt r 3 1))
/-- A pane has stopped: no command of its engines runs but one that waits for what is itself stopped. -/
def Mach.paneStill (m : Mach) (q : Nat) : Bool :=
  let x := m.pane q
  x.mruns.all (fun r => r.drained && m.groupWaits r) && x.vrun.all (fun r => (r.needsMax && m.groupWaits r) || m.outHeld q r.cmd)
/-- A member that the stop takes out of a group that goes on: its own commands on the panes it still holds have ended (R141). -/
def Mach.memberStill (m : Mach) (p : Nat) : Bool :=
  !m.conf.cfg.shared p || (m.conf.cfg.panes p).all (fun q => m.paneOwner q != p || m.paneStill q)
/-- The islands of the scope: the panes of its partitions, of a group once all its members are stopped, and for a stopped module every
Louvre and sampler. -/
def Mach.shutIslands (m : Mach) : List Nat :=
  let c := m.conf.cfg
  let ps := m.sht.parts.filter (fun p => !c.shared p || m.groupShut (c.groupOf p))
  let qs := ps.foldl (fun l p => (c.panes p).foldl (fun l q => insertNat q l) l) []
  if m.fullStop then qs ++ (List.range 8).map (fun d => isl 1 d) ++ (List.range 8).map (fun d => isl 2 d) else qs

/-! ### Scan-out (R551 to R555) -/

/-- A section of an image: type, source, count, its bytes, whether a line of it was poisoned. -/
structure ScanSect where
  type : Nat
  source : Nat
  count : Nat
  bytes : List Byte
  poisoned : Bool
deriving DecidableEq, Repr

/-- The bits of a list packed into bytes, the first in bit 0. -/
def packBits (l : List Bool) : List Byte :=
  (List.range ((l.length + 7) / 8)).map (fun i => BitVec.ofNat 8 (((List.range 8).map (fun j => b2n (l.getD (8 * i + j) false) * 2 ^ j)).sum))
/-- Memory as an image holds it: poisoned lines as zeros, then one poison bit per line. -/
def Mach.scanMem (m : Mach) (segs : List (Nat × Nat)) : List Byte × Bool :=
  let lines := segs.flatMap (fun s => (List.range ((s.2 + 63) / 64)).map (fun i => (s.1 + 64 * i, min 64 (s.2 - 64 * i))))
  let bad := lines.map (fun l => m.poisonedAt l.1 l.2)
  ((lines.zip bad).flatMap (fun x => if x.2 then List.replicate x.1.2 0 else m.load x.1.1 x.1.2) ++ packBits bad, bad.any id)
/-- A section of memory. -/
def Mach.scanMemSect (m : Mach) (t owner : Nat) (source : Option Nat) (segs : List (Nat × Nat)) : ScanSect :=
  let b := m.scanMem segs
  { type := t, source := source.getD (Config.scanSource t owner % 65536), count := Config.scanCount t segs % 2 ^ 32, bytes := b.1, poisoned := b.2 }
/-- A section of a content whose layout the spec does not give: the model fixes what it shows, not how (log entry 38). -/
def scanOther {α : Type} (t owner : Nat) (source : Option Nat) (content : α) : ScanSect :=
  { type := t, source := source.getD (Config.scanSource t owner % 65536), count := Config.scanCount t content % 2 ^ 32, bytes := Config.scanLayout t content,
    poisoned := false }
/-- A context as a stop captures it: its instruction store is none of it, nor is anything that still lies in accumulators (R122, R141); a command
that back-pressure holds stands in its queue with its progress (R184). -/
def Pane.captured (x : Pane) : Pane :=
  { x with code := [], mrun := x.mrun.filter (fun r => r.drained), mdrain := x.mdrain.filter (fun r => r.drained),
           vq := x.vrun.toList.map (fun r => r.cmd) ++ x.vq, vrun := none, cq := x.cruns.map (fun r => r.cmd) ++ x.cq, cruns := [] }
/-- The stopped state of a pane for a partition (PANE_STATE): its streams' registers, tokens, queues with the progress of each copy, stream
registers and PNE_EXC. -/
def Mach.scanPane (m : Mach) (p q : Nat) : Pane × List Word :=
  let saved := (List.range 3).map (fun n => if m.paneOwner q = p then Regs.word m.regs (R.PNE_STREAM_STATE.addr [q, n]) else Tbl.get 0 m.part.savedRegs ((p * 512 + q) * 4 + n))
  ((m.context p q).captured, saved ++ [Regs.word m.regs (R.PNE_EXC_CODE.addr [q])])
/-- The transfers in flight of a partition, which the bridges capture (BRIDGE). -/
def Mach.scanXfers (m : Mach) (p : Nat) : Tbl (List Xfer) := m.core.xfers.filter (fun e => (m.conf.cfg.route e.1).any (fun r => leAt r 3 1 == p))
/-- The flits of a job on the links: those that wait, those not acknowledged, and those kept in receive slots, with SEQ, ACK and credits of each
class (LINK). Job 0 is the module's own traffic. -/
def Mach.scanLinks (m : Mach) (job : Nat) : List (Nat × Nat × LinkCls) × List (Nat × List Byte) :=
  ((List.range 10).flatMap (fun n => (List.range 8).map (fun c =>
     let l := (m.link n).cls
     let x := Tbl.get LinkCls.init l c
     (n, c, { x with unacked := x.unacked.filter (fun f => f.job == job), txq := x.txq.filter (fun f => f.job == job), rx := if job = 0 then x.rx else [] }))),
   m.sht.flits)
/-- The transaction window of a partition: its registers and what it holds beside them (CONFIG, R232). -/
def Mach.scanTxn (m : Mach) (p : Nat) : Regs × Txn := (m.regs.filter (fun e => decide (0x101000 + 0x100 * p ≤ e.1 ∧ e.1 < 0x101100 + 0x100 * p)), m.txn p)
/-- The CFG registers and the transaction windows in the provider's image (CONFIG, R232): in DEPLOYED those of no partition (R540, R554). -/
def Mach.scanConfig (m : Mach) : Regs × Tbl Txn :=
  let mine (a : Nat) : Bool := m.lc != 2 || decide (a < 0x101100 ∨ 0x103100 ≤ a)
  (m.regs.filter (fun e => decide (0x100000 ≤ e.1 ∧ e.1 < 0x110000) && mine e.1), m.conf.txns.filter (fun e => m.lc != 2 || e.1 == 0))
/-- The windows of a pipeline (GZT_PIPECTL, GZT_PIPECFG, GZT_PIPESTAT, GZT_PIPETIME) and its two manifests (R342). -/
def Mach.scanPipe (m : Mach) (n : Nat) : List Word × List Byte :=
  ([R.GZT_PIPECTL_ENABLE, R.GZT_PIPECFG_MAX_ROWS, R.GZT_PIPESTAT_STATE, R.GZT_PIPETIME_STEP_US].map (fun f => Regs.word m.regs (f.addr [n])),
   (m.getTransom (m.pipePart n) (m.fld R.GZT_PIPECFG_MANIFEST [n] * 64) (2 * (64 + 64 * m.fld R.GZT_PIPECFG_MAX_ROWS [n]))).1)
/-- What the Gazetteer holds of a partition (GAZETTEER): entries, pipelines, their windows and manifests, batches. -/
def Mach.scanGzt (m : Mach) (p : Nat) : List (Nat × GEnt) × List (Nat × Pipe × List Word × List Byte) × List Batch :=
  (m.gzt.ents.filter (fun e => m.entPart e.1 == p),
   ((List.range 32).filter (fun n => m.pipePart n == p)).map (fun n => (n, m.pipe n, m.scanPipe n)), Tbl.get [] m.gzt.batches p)
/-- The conduits of a partition (LOUVRE): what they hold, and their states with the credit counts (R283). -/
def Mach.scanConds (m : Mach) (p : Nat) : List (Nat × Cond × Word) :=
  ((List.range 64).filter (fun c => m.cdPart c == p)).map (fun c => (c, m.cond c, Regs.word m.regs (R.LVR_CSTATE_STATE.addr [c])))
/-- What the samplers hold of a partition's rows (SAMPLER). -/
def Mach.scanSamplers (m : Mach) (p : Nat) : List (Nat × List SmpRow) :=
  m.gzt.samplers.map (fun e => (e.1, e.2.filter (fun r => m.pipePart r.pipe == p)))
/-- The sections of a partition of one type (R553). -/
def Mach.scanPart (m : Mach) (p t : Nat) : List ScanSect :=
  let c := m.conf.cfg
  if t = 1 then (c.panes p).map (fun q => scanOther 1 p (some q) (m.scanPane p q))
  else if t = 2 then (c.panes p).map (fun q => m.scanMemSect 2 p (some q) [(paneKey q 0, 2 ^ 22)])
  else if t = 3 then
    let n := c.slices p
    (match segsOf (2 ^ 22) (m.transomKey p) (n + 1) 0 (n * 2 ^ 22) with
     | some l => [m.scanMemSect 3 p none l]
     | none => [])
  else if t = 12 then
    (List.range 4).flatMap (fun k =>
      let n := m.fld R.SHT_PHRANGE_PAGES [p, k]
      match segsOf (2 ^ 21) (m.hbmKey p) (n + 1) (m.fld R.SHT_PHRANGE_BASE [p, k] * 2 ^ 21) (n * 2 ^ 21) with
      | some l => if n = 0 then [] else [m.scanMemSect 12 p none l]
      | none => [])
  else if t = 4 then [scanOther 4 p none (m.scanConds p)]
  else if t = 5 then [scanOther 5 p none (m.scanSamplers p)]
  else if t = 6 then [scanOther 6 p none (m.scanGzt p)]
  else if t = 7 then [scanOther 7 p none (m.scanLinks (m.jobOf p))]
  else if t = 8 then [scanOther 8 p none (m.scanXfers p)]
  else if t = 9 then [scanOther 9 p none p]
  else if t = 10 then [scanOther 10 p none (m.coll p)]
  else if t = 11 ∧ m.lc = 2 then [scanOther 11 p none (m.scanTxn p)] else []
/-- The sections of an owner's image (R540, R553): in DEPLOYED a partition's own, and for the provider those of the module; else all in the
provider's. -/
def Mach.scanSections (m : Mach) (owner : Nat) : List ScanSect :=
  let deployed := m.lc == 2
  let ps := if owner ≠ 0 then [owner] else if deployed then [] else m.sht.parts.filter (fun p => !m.partIdle p)
  (List.range 14).flatMap (fun t =>
    ps.flatMap (fun p => m.scanPart p t) ++
    (if owner ≠ 0 then []
     else if t = 7 then [scanOther 7 0 none (m.scanLinks 0)]
     else if t = 11 then [scanOther 11 0 none m.scanConfig]
     else if t = 13 ∧ (m.lc = 0 ∨ m.lc = 3) then [scanOther 13 0 none (m.part.saved, m.part.savedRegs)]
     else []))
/-- Bytes of an image with its first k sections. -/
def scanLength (l : List ScanSect) : Nat := 128 + roundUp (32 * l.length) 64 + (l.map (fun s => roundUp s.bytes.length 64)).sum + 128
/-- The sections that fit a destination: those at the end of the table are left out. -/
def scanFit (cap : Nat) : Nat → List ScanSect → List ScanSect
  | 0, l => l
  | k + 1, l => if scanLength l ≤ cap then l else scanFit cap k l.dropLast
/-- The destination of an owner's image: the pieces of it and its bytes; none where it is not set. -/
def Mach.scanDest (m : Mach) (owner : Nat) : Option (List (Nat × Nat) × Nat) :=
  if owner = 0 then
    let sp := m.fld R.SHT_DEST_SPACE []
    let a := m.fld R.SHT_DEST_ADDR [] * 4096
    let n := m.fld R.SHT_DESTLEN_MIB [] * 2 ^ 20
    if n = 0 then none
    else if sp = 3 then (segsOf (2 ^ 21) (m.farKeyOf 0) (n / 2 ^ 21 + 2) a n).map (fun l => (l, n))
    else if sp = 8 ∨ sp = 9 then some ([(hostKey (sp - 8) 0 a, n)], n)
    else none
  else
    let n := m.fld R.SHT_PDEST_PAGES [owner] * 2 ^ 21
    if n = 0 then none
    else (segsOf (2 ^ 21) (m.hbmWriteKey owner) (n / 2 ^ 21 + 2) (m.fld R.SHT_PDEST_BASE [owner] * 2 ^ 21) n).map (fun l => (l, n))
/-- The partitions of the scope that have no image of their own in DEPLOYED (R551). -/
def Mach.scanNoDest (m : Mach) : Bool := m.lc == 2 && m.sht.parts.any (fun p => !m.partIdle p && m.fld R.SHT_PDEST_PAGES [p] == 0)
/-- The header of an image (R552). -/
def Mach.scanHeader (m : Mach) (n : Nv) (owner : Nat) (l : List ScanSect) (cutShort done : Bool) : List Byte :=
  let cut := m.fld R.SHT_TCUT_TIME []
  let st := m.fld R.SHT_STATUS_FLAGS []
  let flags := bits st 1 0 + 4 * b2n cutShort + 8 * b2n (l.any (fun s => s.poisoned)) + 16 * b2n (owner == 0 && m.scanNoDest) + 32 * bits st 5 5
  [0x53, 0x48, 0x54, 0x53, 0x43, 0x41, 0x4E, 0x4F] ++ leBytes 8 (m.fld R.SHT_TSTOP_TIME []) ++ leBytes 8 cut ++ leBytes 8 m.sht.arrive ++
    leBytes 2 (m.fld R.SHT_REQ_ORIGIN []) ++ leBytes 2 m.moduleId ++ leBytes 4 (m.fld R.SHT_REQ_REQ_ID []) ++ leBytes 1 (m.fld R.SHT_STATUS_SCOPE []) ++
    leBytes 1 owner ++ leBytes 1 m.lc ++ leBytes 1 flags ++ leBytes 4 l.length ++ leBytes 8 (scanLength l) ++ leBytes 8 n.serial.toNat ++
    leBytes 8 (m.fld R.CFG_RUN_ID_IMAGE_ID []) ++ leBytes 8 (m.fld R.CFG_RUN_EPOCH []) ++ leBytes 8 (if done then cut else 0) ++ List.replicate 40 0
/-- The section table and the sections, from an offset. -/
def scanBody : Nat → List ScanSect → List Byte × List Byte
  | _, [] => ([], [])
  | o, s :: l =>
    let r := scanBody (o + roundUp s.bytes.length 64) l
    (leBytes 2 s.type ++ leBytes 2 s.source ++ leBytes 4 s.count ++ leBytes 8 o ++ leBytes 8 s.bytes.length ++ List.replicate 8 0 ++ r.1,
     s.bytes ++ List.replicate (roundUp s.bytes.length 64 - s.bytes.length) 0 ++ r.2)
/-- A whole image, DONE written and signed (R552, R608). -/
def Mach.scanImage (m : Mach) (n : Nv) (owner : Nat) (l : List ScanSect) (cutShort : Bool) : List Byte :=
  let table := roundUp (32 * l.length) 64
  let b := scanBody (128 + table) l
  let msg := m.scanHeader n owner l cutShort true ++ b.1 ++ List.replicate (table - b.1.length) 0 ++ b.2
  msg ++ n.idTrailer (digestBytes (sm3 msg))
/-- Bytes written along pieces of memory. -/
def Mach.putAlong (m : Mach) (segs : List (Nat × Nat)) (bs : List Byte) : Mach :=
  (chunksOf segs bs false).foldl (fun m c => if c.bytes.isEmpty then m else m.putChunk c) m
/-- The image of an owner written to its destination: its header alone while it is not complete. -/
def Mach.scanWrite (m : Mach) (n : Nv) (owner : Nat) (whole : Bool) : Mach :=
  match m.scanDest owner with
  | none => m
  | some (segs, cap) =>
    let all := m.scanSections owner
    let l := scanFit cap all.length all
    let cutShort := decide (l.length < all.length)
    let m' := m.putAlong segs (if whole then m.scanImage n owner l cutShort else m.scanHeader n owner l cutShort false)
    (m'.shtFlag 2 cutShort).shtFlag 3 (l.any (fun s => s.poisoned))
/-- The owners of images: the provider, and in DEPLOYED every live partition of the scope. -/
def Mach.scanOwners (m : Mach) : List Nat := 0 :: (if m.lc = 2 then m.sht.parts.filter (fun p => !m.partIdle p) else [])
/-- Teardowns that waited for SCANNED (R559). -/
def Mach.shutTears (m : Mach) : Mach :=
  let l := m.sht.tears
  l.foldl (fun m p => m.teardown p) { m with sht := { m.sht with tears := [] } }
/-- The last island of the scope has stopped (R550): T_CUT; scan-out starts with headers whose DONE reads 0. -/
def Mach.shutCut (m : Mach) (n : Nv) : Mach :=
  if m.shtState ≠ 2 ∨ !(m.shutIslands.all (fun q => decide (384 ≤ q) || m.paneStill q)) ∨ !(m.sht.parts.all (fun p => m.memberStill p)) then m
  else
    let m := { m with core := { m.core with stopped := m.shutIslands } }
    let m := (m.setFld R.SHT_TCUT_TIME [] m.now).setSht 3
    if m.sht.noscan then m.shutTears
    else (m.scanOwners.foldl (fun m o => m.scanWrite n o false) (m.shtFlag 4 m.scanNoDest)).setSht 4
/-- Scan-out ends: every image complete, or aborted (R555, R556). The Porter's event vector fires. -/
def Mach.scanEnd (m : Mach) (n : Nv) (whole : Bool) : Mach :=
  if m.shtState ≠ 4 then m
  else
    let m := if whole then m.scanOwners.foldl (fun m o => m.scanWrite n o true) m else m
    ((m.setSht 5).pfVector 3).shutTears

/-! ### T_open (R557 to R559) -/

/-- The times of a partition that bound pending work, later by D (R558). -/
def Mach.shutShift (m : Mach) (d p : Nat) : Mach :=
  let later (t : Nat) : Nat := if t = 0 then 0 else t + d
  let c := m.coll p
  let m := if c.runs.isEmpty then m else m.setColl p { c with runs := c.runs.map (fun r => { r with start := r.start + d, deadline := later r.deadline }) }
  let ents := (m.entsOf p).foldl (fun (t : Tbl GEnt) x => Tbl.set GEnt.init t x.1 { x.2 with deadline := later x.2.deadline, endAt := later x.2.endAt }) m.gzt.ents
  let m := m.withGzt { m.gzt with ents := ents }
  let m := m.shiftOpens p d
  if (m.txn p).holdAt = 0 then m else m.setTxn p { m.txn p with holdAt := (m.txn p).holdAt + d }
/-- The slice of a group that stood still, later by D. -/
def Mach.shutShiftGroup (m : Mach) (d g : Nat) : Mach :=
  let later (t : Tbl Nat) : Tbl Nat := if Tbl.get 0 t g = 0 then t else Tbl.set 0 t g (Tbl.get 0 t g + d)
  { m with part := { m.part with sliceEnd := later m.part.sliceEnd, switching := later m.part.switching, overrun := later m.part.overrun } }
/-- Flits that waited in receive slots are taken in their order, and waiting flits leave. -/
def Mach.shutFlits (m : Mach) : Mach :=
  let l := m.sht.flits
  let m := { m with sht := { m.sht with flits := [], capUsed := [] } }
  let m := l.foldl (fun m e => if m.linkUp e.1 then m.flitTake e.1 (leAt e.2 0 8) ((e.2.drop 8).take (min 240 (hdLen (leAt e.2 0 8)))) else m) m
  (List.range 10).foldl (fun m n => m.pump n) m
/-- T_open on the module (R558): every island of the scope resumes; a partition that has become FAULTED does not (R547). -/
def Mach.shutOpen (m : Mach) : Mach :=
  if m.shtState ≠ 6 ∨ m.now < m.fld R.SHT_TOPEN_TIME [] then m
  else
    let d := m.fld R.SHT_TOPEN_TIME [] - m.fld R.SHT_TSTOP_TIME []
    let c := m.conf.cfg
    let full := m.fullStop
    let ps := m.sht.parts
    let gs := (List.range c.groups.length).filter (fun g => m.groupShut g)
    let m := (gs.foldl (fun m g => m.shutShiftGroup d g) m)
    let m := ps.foldl (fun m p => m.shutShift d p) m
    let m := if full ∧ (m.txn 0).holdAt ≠ 0 then m.setTxn 0 { m.txn 0 with holdAt := (m.txn 0).holdAt + d } else m
    let m := (ps.filter (fun p => m.pstate p != psFaulted)).foldl (fun m p => m.unhold p hdShut) m
    let m := { m with core := { m.core with stopped := [] }, sht := { m.sht with parts := [] } }
    let m := (m.setSht 0).shutFlits
    ps.foldl (fun m p => m.wakeGroup p) m

end Sys2Proof.Machine
end

