-- ==== Sys2Proof/Machine/Shutter.lean ====
section
/-! DEFINITION. The rows of the Shutter (R538 to R559). -/

namespace Sys2Proof.Machine

/-- STOP (R539). -/
def execShutterStop (scope : Fin 4) (noscan : Bool) (lead : BitVec 24) (part : Byte) (job : BitVec 16) (s : State) : Res :=
  s.withM (if s.m.accepts then s.m.shutCmd scope noscan lead.toNat part.toNat job.toNat else s.m)
/-- REOPEN (R557). -/
def execShutterReopen (scope : Fin 4) (lead : BitVec 24) (part : Byte) (job : BitVec 16) (s : State) : Res :=
  s.withM (if s.m.accepts then s.m.reopenCmd scope lead.toNat part.toNat job.toNat else s.m)
/-- ABORT_SCAN (R555). -/
def execAbortScan (s : State) : Res := s.withM (if s.m.accepts then s.m.scanEnd s.nv false else s.m)
/-- SHUTTER_REQ (R433, R541, R542): the body of the message. -/
def execShutterReq (link : LinkId) (body : List Byte) (s : State) : Res := s.withM (if s.m.running then s.m.shutIn link body else s.m)
/-- T_STOP_REACHED (R544). -/
def execTStopReached (s : State) : Res :=
  s.withM (if s.m.running ∧ s.m.shtState = 1 ∧ s.m.fld R.SHT_TSTOP_TIME [] ≤ s.m.now then s.m.shutStop else s.m)
/-- LAST_ISLAND_STOPPED (R550). -/
def execLastIslandStopped (s : State) : Res := s.withM (if s.m.running then s.m.shutCut s.nv else s.m)
/-- SCAN_IMAGE_DONE (R551). -/
def execScanImageDone (s : State) : Res := s.withM (if s.m.running then s.m.scanEnd s.nv true else s.m)
/-- T_OPEN_REACHED (R558). -/
def execTOpenReached (s : State) : Res := s.withM (if s.m.running then s.m.shutOpen else s.m)

end Sys2Proof.Machine
end

