-- ==== Sys2Proof/Machine/Tiers.lean ====
section
/-! DEFINITION. The rows of the memory tiers (09): scrub, row map-out, channels, stacks, far ports, golden copies. -/

namespace Sys2Proof.Machine

/-- PATROL_SCRUB (R374): what a pass over the healthy channels meets, line by line. -/
def execPatrolScrub (hits : List LineErr) (s : State) : Res :=
  s.withM (if s.m.running ∧ !s.m.stopping then hits.foldl (fun m e => m.lineErr e) s.m else s.m)
/-- ROW_MAP_OUT_DONE (R379): a row mapped onto a spare one is recorded by the Porter. -/
def execRowMapOutDone (frame : Fin 524288) (line : Fin 32768) (spare : Bool) (s : State) : Res :=
  let k := lineNo frame line
  let noted := if spare && s.m.tier.rowMoves.contains k then { s.nv with rows := insertNat k s.nv.rows } else s.nv
  { s with nv := noted }.withM (s.m.rowMapped frame line spare)
/-- CHANNEL_TRAINING_TIMEOUT (R380). -/
def execChannelTrainingTimeout (chan : ChanId) (s : State) : Res := s.withM (if s.m.running then s.m.chanFail chan else s.m)
/-- STACK_TEMP_READING (R382). -/
def execStackTempReading (stack : StackId) (tenths : BitVec 12) (s : State) : Res := s.withM (s.m.stackTemp stack tenths.toInt)
/-- STACK_LEVEL_FALL (R383). -/
def execStackLevelFall (stack : StackId) (s : State) : Res := s.withM (s.m.levelFall stack)
/-- PREDICTED_DELAY_REPORT (R385). -/
def execPredictedDelayReport (stack : StackId) (part : PartId) (queued : Nat) (s : State) : Res :=
  s.withM (if s.m.running then s.m.predicted stack (part.val + 1) queued else s.m)
/-- RESUME (R388). -/
def execStackResume (stack : StackId) (s : State) : Res := s.withM (if s.m.accepts then s.m.stackResume stack else s.m)
/-- FAR_DEVICE_POISON (R408). -/
def execFarDevicePoison (x : PortId) (line : BitVec 36) (s : State) : Res := s.withM (s.m.farPoison x line.toNat)
/-- FAR_TIMEOUT (R408). -/
def execFarTimeout (x : PortId) (line : BitVec 36) (pane : PaneId) (index : Fin 4) (s : State) : Res :=
  s.withM (s.m.farTimeout x line.toNat pane index)
/-- FAR_VIOLATION (R408). -/
def execFarViolation (x : PortId) (s : State) : Res := s.withM (s.m.farViolation x)
/-- FAR_SURPRISE_REMOVAL (R408). -/
def execFarSurpriseRemoval (x : PortId) (s : State) : Res := s.withM (s.m.farDown x)
/-- REGISTER (R409). -/
def execGoldenRegister (region : RegionId) (s : State) : Res := s.withM (if s.m.accepts then s.m.goldenRegister region else s.m)
/-- DEREGISTER (R409). -/
def execGoldenDeregister (region : RegionId) (s : State) : Res := s.withM (if s.m.accepts then s.m.goldenDeregister region else s.m)

end Sys2Proof.Machine
end

