-- ==== Sys2Proof/Machine/Training.lean ====
section
/-! DEFINITION. The rows of the training window (07): its commands, slots, buckets, the gate, update passes, the boundary, export. -/

namespace Sys2Proof.Machine

/-- TRAINING_START (R288, R289). -/
def execTrainingStart (part : PartId) (step : BitVec 32) (s : State) : Res := s.withM (if s.m.accepts then s.m.trainStartCmd (part.val + 1) step.toNat else s.m)
/-- TRAINING_STOP (R288). -/
def execTrainingStop (part : PartId) (s : State) : Res := s.withM (if s.m.accepts then s.m.trainStopCmd (part.val + 1) else s.m)
/-- TRAINING_CLOSE (R286, R325). -/
def execTrainingClose (part : PartId) (step : BitVec 32) (s : State) : Res := s.withM (if s.m.accepts then s.m.trainClose (part.val + 1) step.toNat else s.m)
/-- EXPORT (R320). -/
def execExportStart (part : PartId) (mode : Fin 4) (s : State) : Res := s.withM (if s.m.accepts then s.m.exportStart (part.val + 1) mode else s.m)
/-- EXPORT_ABORT (R322). -/
def execExportAbort (part : PartId) (s : State) : Res := s.withM (if s.m.accepts then s.m.exportAbort (part.val + 1) else s.m)
/-- EXPORT_DONE (R320 to R322). -/
def execExportDone (part : PartId) (good : Bool) (s : State) : Res := s.withM (s.m.exportDone (part.val + 1) good)
/-- SLOT_LAUNCH (R290, R291). -/
def execSlotLaunch (stage : BitVec 16) (s : State) : Res := s.withM (s.m.slotLaunch stage.toNat)
/-- BUCKET_HANDOFF (R295). -/
def execBucketHandoff (part : PartId) (step : BitVec 32) (bucket : BitVec 16) (s : State) : Res :=
  s.withM (s.m.handoff (part.val + 1) step.toNat bucket.toNat)
/-- NORM_PASS_DONE (R295). -/
def execNormPassDone (part : PartId) (step : BitVec 32) (bucket : BitVec 16) (s : State) : Res :=
  s.withM (s.m.normDone (part.val + 1) step.toNat bucket.toNat)
/-- UPDATE_GATE_OPEN (R301, R307). -/
def execUpdateGateOpen (part : PartId) (s : State) : Res := s.withM (s.m.updateGate (part.val + 1))
/-- UPDATE_PASS1 (R302, R303). -/
def execUpdatePass1 (part : PartId) (entry : BitVec 16) (chunk : BitVec 32) (hits : List LineErr) (s : State) : Res :=
  s.withM (s.m.pass1Cmd (part.val + 1) entry.toNat chunk.toNat hits)
/-- UPDATE_PASS2 (R303, R324). -/
def execUpdatePass2 (part : PartId) (entry : BitVec 16) (chunk : BitVec 32) (s : State) : Res := s.withM (s.m.pass2Cmd (part.val + 1) entry.toNat chunk.toNat)
/-- UPDATE_CHUNK_WRITE (R302, R306). -/
def execUpdateChunkWrite (part : PartId) (entry : BitVec 16) (chunk : BitVec 32) (s : State) : Res :=
  s.withM (s.m.chunkWrite (part.val + 1) entry.toNat chunk.toNat)
/-- STEP_BOUNDARY (R287). -/
def execStepBoundary (part : PartId) (s : State) : Res := s.withM (s.m.stepBoundary (part.val + 1))

end Sys2Proof.Machine
end

