-- ==== Sys2Proof/Machine/HostRegs.lean ====
section
/-! DEFINITION. REGISTER_WRITE and RC_READ: the command that a write of a command register gives (R14), field writes and reads that clear (R17). -/

namespace Sys2Proof.Machine

/-- Partition p, 1 to 32, as an operand. -/
def partId (p : Nat) : PartId := Fin.ofNat 32 (p - 1)

/-- A write as a command register sees it: the port and the viewer (0 the provider), the indices of the register, the bits written as they
stand in the register with 0 elsewhere, and the register word with them replaced. -/
structure RegCmd where
  port : PortId
  viewer : Nat
  ix : List Nat
  d : Word
  w : Word
deriving DecidableEq, Repr

/-- The first index. -/
def RegCmd.i (c : RegCmd) : Nat := c.ix.getD 0 0
/-- The second index. -/
def RegCmd.j (c : RegCmd) : Nat := c.ix.getD 1 0
/-- OP, in bits [63:60] of most command registers. -/
def RegCmd.op (c : RegCmd) : Nat := wordField c.d 63 60
/-- Bits of what is written. -/
def RegCmd.f (c : RegCmd) (hi lo : Nat) : Nat := wordField c.d hi lo

/-- PRT and CFG: PRT_MARGIN_CMD (R641), CFG_CHART_CMD (R216), the transaction windows (R224). -/
def RegCmd.porter (c : RegCmd) (r : RegArr) (s : State) : Option Res :=
  let o : OwnerId := Fin.ofNat 33 c.i
  if r.isOf R.PRT_MARGIN_CMD_OP then
    match c.op with
    | 1 =>
      if c.f 50 49 = 3 then some (s.withM (if s.m.accepts then (if s.m.margining then s.m.marginCode 1 else s.m.marginCode 4) else s.m))
      else some (execMarginHbm (Fin.ofNat 512 (c.f 59 51)) (Fin.ofNat 3 (c.f 50 49)) s)
    | 2 => some (execMarginLink (Fin.ofNat 512 (c.f 59 51)) s)
    | 3 => some (execMarginAbort s)
    | _ => none
  else if r.isOf R.CFG_CHART_CMD_OP then
    let n : Fin 4 := Fin.ofNat 4 (c.f 59 58)
    match c.op with
    | 1 => some (execChartLoad n (c.f 57 57 == 1) s)
    | 2 => some (execChartWrite n c.port s)
    | 3 => some (execChartErase n s)
    | 4 => some (execChartRevert n s)
    | _ => none
  else if r.isOf R.CFG_TXN_BEGIN_GO then some (execTxnBegin o s)
  else if r.isOf R.CFG_TXN_COMMIT_TIMEOUT then some (execTxnCommit o (BitVec.ofNat 20 (c.f 19 0)) s)
  else if r.isOf R.CFG_TXN_ABORT_GO then some (execTxnAbort o s)
  else if r.isOf R.CFG_TXN_WDATA_VALUE then some (execTxnWdata o c.d s)
  else if r.isOf R.CFG_TXN_DELTA_LEN_LEN then some (execTxnDeltaLen o c.port (BitVec.ofNat 25 (c.f 24 0)) s)
  else none
/-- PTN_MSNAP as a tenant's VF holds it (R506). -/
def tenantMsnap : Fld := ⟨0x10401078, [0x4000000], 63, 0⟩
/-- PTN and the hatches: PTN_PCMD (R485), PTN_MSNAP (R506), PTN_SREG (R501), HTC_TARGET (R469), HTC_CTAIL (R470). -/
def RegCmd.partition (c : RegCmd) (r : RegArr) (s : State) : Option Res :=
  let p := partId c.i
  let h : Fin 4 := Fin.ofNat 4 c.j
  if r.isOf R.PTN_PCMD_OP then
    match c.op with
    | 1 => some (execActivate p s)
    | 2 => some (execPause p s)
    | 3 => some (execPartitionResume p s)
    | 4 => some (execDrain p s)
    | 5 => some (execTeardown p s)
    | _ => none
  else if r.isOf R.PTN_MSNAP_GO then some (execMsnap p false s)
  else if r.isOf tenantMsnap then some (execMsnap p true s)
  else if r.isOf R.PTN_SREG_OP then
    match c.f 60 58 with
    | 1 => some (execFill (Fin.ofNat 64 c.i) s)
    | 2 => some (execDeleteRegion (Fin.ofNat 64 c.i) s)
    | _ => none
  else if r.isOf R.HTC_TARGET_ENABLE then
    some (s.withM (if s.m.accepts then s.m.targetWrite c.i c.j (c.f 63 63 == 1) (c.f 62 51) else s.m))
  else if r.isOf R.HTC_CTAIL_TAIL then some (execCompletionTailWrite p h c.w s)
  else none
/-- GZT (R326, R328, R345, R593), LVR (R277), MEM (R388, R409). -/
def RegCmd.serving (c : RegCmd) (r : RegArr) (s : State) : Option Res :=
  let p := partId c.i
  if r.isOf R.GZT_POUT_TAIL_TAIL then some (execOutputRingTailWrite p c.w s)
  else if r.isOf R.GZT_PAIRCFG_ENABLE then
    if c.f 63 63 = 1 then some (execPairEnable p s) else if s.m.flag R.GZT_PAIRCFG_ENABLE [c.i] then some (execPairDisable p s) else none
  else if r.isOf R.GZT_PIPECTL_ENABLE then
    let n : PipeId := Fin.ofNat 32 c.i
    if c.f 63 63 = 1 then some (execPipelineEnable n s)
    else if s.m.flag R.GZT_PIPECTL_ENABLE [c.i] then some (execPipelineDisable n s) else none
  else if r.isOf R.GZT_ATLAS_OP then
    match c.f 61 60 with
    | 1 => some (execAtlasRegister (Fin.ofNat 33 c.viewer) (Fin.ofNat 64 c.i) s)
    | 2 => some (execAtlasDrop (Fin.ofNat 33 c.viewer) (Fin.ofNat 64 c.i) s)
    | _ => none
  else if r.isOf R.LVR_CCMD_OP then
    let n : ConduitId := Fin.ofNat 64 c.i
    match c.op with
    | 1 => some (execConduitOpen n s)
    | 2 => some (execConduitClose n s)
    | 3 => some (execConduitReset n s)
    | _ => none
  else if r.isOf R.MEM_STACKCMD_OP then (if c.op = 1 then some (execStackResume (Fin.ofNat 16 (c.f 59 56)) s) else none)
  else if r.isOf R.MEM_GOLD_CTL_OP then
    match c.f 57 56 with
    | 1 => some (execGoldenRegister (Fin.ofNat 64 c.i) s)
    | 2 => some (execGoldenDeregister (Fin.ofNat 64 c.i) s)
    | _ => none
  else none
/-- MRD (R424, R513), COL (R288, R320, R580), GRT (R510). -/
def RegCmd.fabric (c : RegCmd) (r : RegArr) (s : State) : Option Res :=
  let p := partId c.i
  if r.isOf R.MRD_ID_TIME_ROOT then some (execTimeRootWrite (c.f 7 7 == 1) s)
  else if r.isOf R.MRD_LCMD_OP then
    let n : LinkId := Fin.ofNat 10 c.i
    match c.op with
    | 1 => some (execLinkEnable n s)
    | 2 => some (execLinkDisable n s)
    | 3 => some (execLinkRelease n s)
    | 4 => some (execWiden n s)
    | 5 => some (execRetrain n s)
    | _ => none
  else if r.isOf R.COL_TCMD_OP then
    match c.op with
    | 1 => some (execTrainingStart p (BitVec.ofNat 32 (c.f 31 0)) s)
    | 2 => some (execTrainingStop p s)
    | 3 => some (execTrainingClose p (BitVec.ofNat 32 (c.f 31 0)) s)
    | 4 => some (execExportStart p (Fin.ofNat 4 (c.f 59 58)) s)
    | 5 => some (execExportAbort p s)
    | _ => none
  else if r.isOf R.CKP_CMD_OP then
    match c.op with
    | 1 => some (execCheckpointNow p s)
    | 2 => some (execCheckpointRestore p (Fin.ofNat 2 (c.f 59 59)) s)
    | _ => none
  else if r.isOf R.GRT_SET_TIME then some (execGrtSet c.d s)
  else none
/-- SRV (R516, R524, R532), SHT (R538), ERR (R564). -/
def RegCmd.service (c : RegCmd) (r : RegArr) (s : State) : Option Res :=
  let o : OwnerId := Fin.ofNat 33 c.i
  if r.isOf R.SRV_CCFG_ENABLE then
    some (s.withM (if s.m.accepts then s.m.counterEnable c.i (c.f 63 63 == 1) else s.m))
  else if r.isOf R.SRV_WTAIL_TAIL then some (s.withM (if s.m.accepts then s.m.watchTail c.i c.w.toNat else s.m))
  else if r.isOf R.SRV_TCMD_OP then
    match c.op with
    | 1 => some (execTraceArm o s)
    | 2 => some (execTraceTrigger o s)
    | 3 => some (execTraceDisarm o s)
    | _ => none
  else if r.isOf R.SHT_CMD_OP then
    let scope : Fin 4 := Fin.ofNat 4 (c.f 59 58)
    match c.op with
    | 1 => some (execShutterStop scope (c.f 57 57 == 1) (BitVec.ofNat 24 (c.f 55 32)) (BitVec.ofNat 8 (c.f 31 24)) (BitVec.ofNat 16 (c.f 23 8)) s)
    | 2 => some (execShutterReopen scope (BitVec.ofNat 24 (c.f 55 32)) (BitVec.ofNat 8 (c.f 31 24)) (BitVec.ofNat 16 (c.f 23 8)) s)
    | 3 => some (execAbortScan s)
    | _ => none
  else if r.isAny [R.ERR_LTAIL_TAIL, R.ERR_QTAIL_TAIL] then some (s.withM (s.m.errTail c.i (c.f 63 32)))
  else none
/-- SEC_CMD (R618) and ATT_CMD (R614, R616). -/
def RegCmd.secure (c : RegCmd) (r : RegArr) (s : State) : Option Res :=
  if r.isOf R.SEC_CMD_OP then
    match c.op with
    | 1 => some (execNewNonce s)
    | 2 => some (execClaim s)
    | 3 => some (.next (s.transitionTo (c.f 59 57)))
    | 4 => some (execImgFloor (BitVec.ofNat 8 (c.f 55 48)) s)
    | 5 => some (execFwFloor (BitVec.ofNat 8 (c.f 55 48)) s)
    | 6 => some (execModuleReport s)
    | 7 => some (execDirectLoad c.port s)
    | 8 => some (execFactoryWrite c.port s)
    | _ => none
  else if r.isOf R.ATT_CMD_OP then
    match c.op with
    | 1 => some (execAttReport (partId c.i) s)
    | 2 => some (execExtend (partId c.i) s)
    | _ => none
  else none
/-- The command of a write, if the register and the value give one. -/
def RegCmd.run (c : RegCmd) (r : RegArr) (s : State) : Res :=
  (((((((c.porter r s).orElse (fun _ => c.partition r s)).orElse (fun _ => c.serving r s)).orElse (fun _ => c.fabric r s)).orElse
    (fun _ => c.service r s)).orElse (fun _ => c.secure r s))).getD (.next s)

/-- A write of part of a hatch or admission window (R462 to R464): word 7 seals when its upper half, which holds SEAL, arrives. -/
def Mach.windowWrite (m : Mach) (p win off width : Nat) (data : Word) : Mach :=
  let slot := off / 64
  let word := off % 64 / 8
  let old := if win = 4 then Tbl.get 0 (m.adm p).slots (slot * 8 + word) else Tbl.get 0 (m.hatch p win).slots (slot * 8 + word)
  let v := mergedWord old off width data
  if !m.accepts then m
  else if word = 7 ∧ hiBit off width = 63 then (if win = 4 then m.admSeal p slot v else m.hatchSeal p win slot v)
  else if win = 4 then m.admWord p slot word v else m.hatchWord p win slot word v

/-- A write within the contract to the register at a: its fields, then its command. -/
def State.regWrite (s : State) (port : PortId) (p a off width : Nat) (data : Word) : Res :=
  match regAt a with
  | none => .next s
  | some r =>
    let ix := (r.at a).getD []
    let hi := hiBit off width
    let lo := loBit off
    let w := mergedWord (Regs.word s.m.regs a) off width data
    let d := placed off width data
    let s' : State := { s with m := s.m.fieldsWrite (p != 0) a r ix hi lo w d }
    if r.fields.any (fun f => f.meets hi lo && (f.acc == .wo || ownAction r f.lo)) then
      RegCmd.run { port := port, viewer := p, ix := ix, d := d, w := w } r s'
    else .next s'

/-! ### BAR4 (R450, R473) -/

/-- BAR4 stands in the commands' offsets from here on; its layout is PRESUMED (log entry 93). -/
def bar4 : Nat := 2 ^ 32
/-- The vectors of a function, and where its PBA starts in BAR4. -/
def msixCount (fn : Nat) : Nat := if fn = 0 then 32 else 8
def pbaAt (fn : Nat) : Nat := if fn = 0 then 0x8000 else 0x2000
/-- Whether BAR4 of a function holds something at an offset. -/
def bar4Has (fn o : Nat) : Bool := decide (o < 16 * msixCount fn ∨ (pbaAt fn ≤ o ∧ o < pbaAt fn + 8))
/-- Eight bytes of BAR4: half a table entry, or the pending bits. -/
def Mach.bar4Word (m : Mach) (port fn o : Nat) : Word :=
  if o < 16 * msixCount fn then
    let x := m.msixVec port fn (o / 16)
    BitVec.ofNat 64 (if o % 16 < 8 then x.addr else x.data + b2n x.masked * 2 ^ 32)
  else if pbaAt fn ≤ o ∧ o < pbaAt fn + 8 then
    BitVec.ofNat 64 (((List.range (msixCount fn)).map (fun v => b2n (m.msixVec port fn v).pending * 2 ^ v)).sum)
  else 0
/-- A write of eight bytes of BAR4: the PBA takes none; a vector unmasked with its pending bit set sends its message. -/
def Mach.bar4Put (m : Mach) (port fn o : Nat) (w : Word) : Mach :=
  if 16 * msixCount fn ≤ o then m
  else
    let v := o / 16
    let x := m.msixVec port fn v
    if o % 16 < 8 then m.setMsix port fn v { x with addr := w.toNat / 4 * 4 }
    else
      let y := { x with data := wordField w 31 0, masked := wordField w 32 32 == 1 }
      if y.pending && !y.masked then (m.setMsix port fn v { y with pending := false }).fireVector port fn v else m.setMsix port fn v y
/-- A write of BAR4 within the contract. -/
def Mach.bar4Write (m : Mach) (port fn o width : Nat) (data : Word) : Mach :=
  if bar4Has fn o then m.bar4Put port fn (o - o % 8) (mergedWord (m.bar4Word port fn (o - o % 8)) o width data) else m.hostCount port fn (bar4 + o) true

/-- REGISTER_WRITE (R13, R14, R50, R451): a register write by a function of a port. -/
def execRegisterWrite (port : PortId) (fn : FnId) (offset width data : Nat) (s : State) : Res :=
  let m := s.m
  if !m.hostUp then .next s
  else match m.viewer port fn with
    | none => s.withM (m.hostCount port fn offset true)
    | some p =>
      if !inContract offset width then s.withM (m.hostCount port fn offset false)
      else if bar4 ≤ offset then (if m.accepts then s.withM (m.bar4Write port fn (offset - bar4) width (BitVec.ofNat 64 data)) else .next s)
      else
        let sp := m.spotOf p offset
        if sp = .none then s.withM (m.hostCount port fn offset true)
        else if !m.takes sp then .next s
        else match sp with
          | .reg a => s.regWrite port p a offset width (BitVec.ofNat 64 data)
          | .window win _ => s.withM (m.windowWrite p win (offset % 0x10000) width (BitVec.ofNat 64 data))
          | _ => .next s

/-- RC_READ (R13, R14, R17, R50, R451): a register read by a function of a port, which clears the RC fields it wholly covers. -/
def execRcRead (port : PortId) (fn : FnId) (offset width : Nat) (s : State) : Res :=
  let m := s.m
  if !m.hostUp then .next s
  else match m.viewer port fn with
    | none => s.withM (m.emit (.readData port fn offset 0))
    | some p =>
      if !inContract offset width then
        s.withM ((m.hostCount port fn offset false).emit (.readData port fn offset (BitVec.ofNat 64 (2 ^ 64 - 1))))
      else if bar4 ≤ offset then
        let o := offset - bar4
        let v := BitVec.ofNat 64 (wordField (m.bar4Word port fn (o - o % 8)) (hiBit offset width) (loBit offset))
        let m := if bar4Has fn o then m else m.hostCount port fn offset true
        s.withM (m.emit (.readData port fn offset v))
      else
        let sp := m.spotOf p offset
        let v := BitVec.ofNat 64 (wordField (m.spotRead sp) (hiBit offset width) (loBit offset))
        let m := if sp = .none then m.hostCount port fn offset true else m.readClear p sp (hiBit offset width) (loBit offset)
        s.withM (m.emit (.readData port fn offset v))

/-- EP_WRITE (R460): what targets a register or a hatch is discarded and counted; a line of the admission window takes the poison, unless it
holds a sealed request, whose words no write replaces (R335, R464). -/
def execEpWrite (port : PortId) (fn : FnId) (offset : BitVec 28) (s : State) : Res :=
  let m := s.m
  if !m.hostUp then .next s
  else match m.viewer port fn with
    | none => s.withM (m.hostCount port fn offset.toNat true)
    | some p => match m.spotOf p offset.toNat with
      | .none => s.withM (m.hostCount port fn offset.toNat true)
      | .zero => .next s
      | .window 4 o =>
        let x := m.adm p
        let slot := o / 64
        s.withM (if !m.accepts then m
                 else if x.isSealed.any (fun e => e.1 == slot) then m.setAdm p { x with badSeals := min 65535 (x.badSeals + 1) }
                 else m.setAdm p { x with poison := insertNat slot x.poison })
      | _ => s.withM (m.hostCount port fn offset.toNat false)

end Sys2Proof.Machine
end

