-- ==== Sys2Proof/Machine/Dispatch.lean ====
section
/-! DEFINITION. The effect of every command on everything but the queue: one arm per constructor of Instr, each one direct call of its meaning. -/

namespace Sys2Proof.Machine

/-- The effect of a command (the queue apart). -/
def exec (i : Instr) (s : State) : Host.Outcome State Fault Refusal :=
  match i with
  | .registerWrite port fn offset width data => Sys2Proof.Machine.execRegisterWrite port fn offset width data s
  | .rcRead port fn offset width => Sys2Proof.Machine.execRcRead port fn offset width s
  | .outOfContractAccess port fn offset width isWrite => Sys2Proof.Machine.execOutOfContractAccess port fn offset width isWrite s
  | .unoccupiedOffsetAccess port fn offset isWrite => Sys2Proof.Machine.execUnoccupiedOffsetAccess port fn offset isWrite s
  | .inputPowerOn => Sys2Proof.Machine.execInputPowerOn s
  | .resetNAssert => Sys2Proof.Machine.execResetNAssert s
  | .resetNRelease chartSel feedId smbAddr => Sys2Proof.Machine.execResetNRelease chartSel feedId smbAddr s
  | .waitPowerEnd => Sys2Proof.Machine.execWaitPowerEnd s
  | .wipeDone => Sys2Proof.Machine.execWipeDone s
  | .selftestDone found => Sys2Proof.Machine.execSelftestDone found s
  | .bootChartLoadDone => Sys2Proof.Machine.execBootChartLoadDone s
  | .hostLinkUp port rate width => Sys2Proof.Machine.execHostLinkUp port rate width s
  | .cxlEnumerationDone x found failedStep => Sys2Proof.Machine.execCxlEnumerationDone x found failedStep s
  | .transferDelivery route => Sys2Proof.Machine.execTransferDelivery route s
  | .bridgeCrcMismatch route edge reverse => Sys2Proof.Machine.execBridgeCrcMismatch route edge reverse s
  | .bridgeWireTestDone edge reverse found => Sys2Proof.Machine.execBridgeWireTestDone edge reverse found s
  | .scalarInteger pane st op imm => Sys2Proof.Machine.execScalarInteger pane st op imm s
  | .scalarFp32 pane st op => Sys2Proof.Machine.execScalarFp32 pane st op s
  | .address pane st op imm => Sys2Proof.Machine.execAddress pane st op imm s
  | .predicate pane st op imm => Sys2Proof.Machine.execPredicate pane st op imm s
  | .load pane st => Sys2Proof.Machine.execLoad pane st s
  | .store pane st => Sys2Proof.Machine.execStore pane st s
  | .branch pane st => Sys2Proof.Machine.execBranch pane st s
  | .call pane st => Sys2Proof.Machine.execCall pane st s
  | .ret pane st => Sys2Proof.Machine.execRet pane st s
  | .cmd pane st => Sys2Proof.Machine.execCmd pane st s
  | .waitt pane st => Sys2Proof.Machine.execWaitt pane st s
  | .sigt pane st => Sys2Proof.Machine.execSigt pane st s
  | .clrt pane st => Sys2Proof.Machine.execClrt pane st s
  | .fence pane st => Sys2Proof.Machine.execFence pane st s
  | .halt pane st => Sys2Proof.Machine.execHalt pane st s
  | .yield pane st => Sys2Proof.Machine.execYield pane st s
  | .trap pane st => Sys2Proof.Machine.execTrap pane st s
  | .readGrt pane st => Sys2Proof.Machine.execReadGrt pane st s
  | .illegalInsn pane st => Sys2Proof.Machine.execIllegalInsn pane st s
  | .streamWaitCleared pane st => Sys2Proof.Machine.execStreamWaitCleared pane st s
  | .launch pane st => Sys2Proof.Machine.execLaunch pane st s
  | .matrix pane => Sys2Proof.Machine.execMatrix pane s
  | .matrixDrain pane => Sys2Proof.Machine.execMatrixDrain pane s
  | .splitkReduction pane => Sys2Proof.Machine.execSplitkReduction pane s
  | .currentReductionDone cmds => Sys2Proof.Machine.execCurrentReductionDone cmds s
  | .delayedConversionStart pane e => Sys2Proof.Machine.execDelayedConversionStart pane e s
  | .add pane => Sys2Proof.Machine.execAdd pane s
  | .mul pane => Sys2Proof.Machine.execMul pane s
  | .fma pane => Sys2Proof.Machine.execFma pane s
  | .max pane => Sys2Proof.Machine.execMax pane s
  | .min pane => Sys2Proof.Machine.execMin pane s
  | .scale pane => Sys2Proof.Machine.execScale pane s
  | .exp pane => Sys2Proof.Machine.execExp pane s
  | .exp2 pane => Sys2Proof.Machine.execExp2 pane s
  | .log pane => Sys2Proof.Machine.execLog pane s
  | .log2 pane => Sys2Proof.Machine.execLog2 pane s
  | .recip pane => Sys2Proof.Machine.execRecip pane s
  | .rsqrt pane => Sys2Proof.Machine.execRsqrt pane s
  | .sqrt pane => Sys2Proof.Machine.execSqrt pane s
  | .div pane => Sys2Proof.Machine.execDiv pane s
  | .tanh pane => Sys2Proof.Machine.execTanh pane s
  | .sigmoid pane => Sys2Proof.Machine.execSigmoid pane s
  | .silu pane => Sys2Proof.Machine.execSilu pane s
  | .gelu pane => Sys2Proof.Machine.execGelu pane s
  | .rsum pane => Sys2Proof.Machine.execRsum pane s
  | .rmax pane => Sys2Proof.Machine.execRmax pane s
  | .rsumsq pane => Sys2Proof.Machine.execRsumsq pane s
  | .softmax pane => Sys2Proof.Machine.execSoftmax pane s
  | .logsumexp pane => Sys2Proof.Machine.execLogsumexp pane s
  | .rmsnorm pane => Sys2Proof.Machine.execRmsnorm pane s
  | .layernorm pane => Sys2Proof.Machine.execLayernorm pane s
  | .xent pane => Sys2Proof.Machine.execXent pane s
  | .inv pane => Sys2Proof.Machine.execInv pane s
  | .invroot pane => Sys2Proof.Machine.execInvroot pane s
  | .vectorComplete pane => Sys2Proof.Machine.execVectorComplete pane s
  | .copy pane hits => Sys2Proof.Machine.execCopy pane hits s
  | .copyComplete pane index => Sys2Proof.Machine.execCopyComplete pane index s
  | .chartLoad chart force => Sys2Proof.Machine.execChartLoad chart force s
  | .chartWrite chart port => Sys2Proof.Machine.execChartWrite chart port s
  | .chartErase chart => Sys2Proof.Machine.execChartErase chart s
  | .chartRevert chart => Sys2Proof.Machine.execChartRevert chart s
  | .chartCommandDone fetched flashOk => Sys2Proof.Machine.execChartCommandDone fetched flashOk s
  | .txnBegin o => Sys2Proof.Machine.execTxnBegin o s
  | .txnWdata o value => Sys2Proof.Machine.execTxnWdata o value s
  | .txnDeltaLen o port len => Sys2Proof.Machine.execTxnDeltaLen o port len s
  | .deltaVerifyDone o fetched => Sys2Proof.Machine.execDeltaVerifyDone o fetched s
  | .txnCommit o timeout => Sys2Proof.Machine.execTxnCommit o timeout s
  | .txnAbort o => Sys2Proof.Machine.execTxnAbort o s
  | .txnValidationDone o => Sys2Proof.Machine.execTxnValidationDone o s
  | .txnApply o => Sys2Proof.Machine.execTxnApply o s
  | .txnHoldTimeout o => Sys2Proof.Machine.execTxnHoldTimeout o s
  | .conduitOpen c => Sys2Proof.Machine.execConduitOpen c s
  | .conduitClose c => Sys2Proof.Machine.execConduitClose c s
  | .conduitReset c => Sys2Proof.Machine.execConduitReset c s
  | .peerOpenReply c reply => Sys2Proof.Machine.execPeerOpenReply c reply s
  | .openingTimeout c => Sys2Proof.Machine.execOpeningTimeout c s
  | .teacherShard route => Sys2Proof.Machine.execTeacherShard route s
  | .recordReady c => Sys2Proof.Machine.execRecordReady c s
  | .creditReturn c => Sys2Proof.Machine.execCreditReturn c s
  | .recordArrival c => Sys2Proof.Machine.execRecordArrival c s
  | .queuedRecordReadback c => Sys2Proof.Machine.execQueuedRecordReadback c s
  | .studentShard route => Sys2Proof.Machine.execStudentShard route s
  | .lossPass2Start c => Sys2Proof.Machine.execLossPass2Start c s
  | .lossRowComplete c => Sys2Proof.Machine.execLossRowComplete c s
  | .tapFrame route => Sys2Proof.Machine.execTapFrame route s
  | .tapFrameDelivery c tap => Sys2Proof.Machine.execTapFrameDelivery c tap s
  | .tapRelease route => Sys2Proof.Machine.execTapRelease route s
  | .conduitLinkLost c => Sys2Proof.Machine.execConduitLinkLost c s
  | .trainingStart part step => Sys2Proof.Machine.execTrainingStart part step s
  | .trainingStop part => Sys2Proof.Machine.execTrainingStop part s
  | .trainingClose part step => Sys2Proof.Machine.execTrainingClose part step s
  | .exportStart part mode => Sys2Proof.Machine.execExportStart part mode s
  | .exportAbort part => Sys2Proof.Machine.execExportAbort part s
  | .exportDone part good => Sys2Proof.Machine.execExportDone part good s
  | .slotLaunch stage => Sys2Proof.Machine.execSlotLaunch stage s
  | .bucketHandoff part step bucket => Sys2Proof.Machine.execBucketHandoff part step bucket s
  | .normPassDone part step bucket => Sys2Proof.Machine.execNormPassDone part step bucket s
  | .updateGateOpen part => Sys2Proof.Machine.execUpdateGateOpen part s
  | .updatePass1 part entry chunk hits => Sys2Proof.Machine.execUpdatePass1 part entry chunk hits s
  | .updatePass2 part entry chunk => Sys2Proof.Machine.execUpdatePass2 part entry chunk s
  | .updateChunkWrite part entry chunk => Sys2Proof.Machine.execUpdateChunkWrite part entry chunk s
  | .stepBoundary part => Sys2Proof.Machine.execStepBoundary part s
  | .stragglerDeadline part => Sys2Proof.Machine.execStragglerDeadline part s
  | .admitReq part => Sys2Proof.Machine.execAdmitReq part s
  | .promptFetchDone part how => Sys2Proof.Machine.execPromptFetchDone part how s
  | .cancel part => Sys2Proof.Machine.execCancel part s
  | .retire part => Sys2Proof.Machine.execRetire part s
  | .handleRelease part => Sys2Proof.Machine.execHandleRelease part s
  | .migrate part => Sys2Proof.Machine.execMigrate part s
  | .ovlLoad part => Sys2Proof.Machine.execOvlLoad part s
  | .overlayFetchDone part how => Sys2Proof.Machine.execOverlayFetchDone part how s
  | .ovlDrop part => Sys2Proof.Machine.execOvlDrop part s
  | .atlasRegister owner slot => Sys2Proof.Machine.execAtlasRegister owner slot s
  | .atlasDrop owner slot => Sys2Proof.Machine.execAtlasDrop owner slot s
  | .pipelineEnable pipe => Sys2Proof.Machine.execPipelineEnable pipe s
  | .pipelineDisable pipe => Sys2Proof.Machine.execPipelineDisable pipe s
  | .stepOpen pipe => Sys2Proof.Machine.execStepOpen pipe s
  | .samplerShard route => Sys2Proof.Machine.execSamplerShard route s
  | .sampleRow die => Sys2Proof.Machine.execSampleRow die s
  | .sealStep pipe => Sys2Proof.Machine.execSealStep pipe s
  | .outputBatchWrite part => Sys2Proof.Machine.execOutputBatchWrite part s
  | .eventBatchWrite part => Sys2Proof.Machine.execEventBatchWrite part s
  | .outputRingTailWrite part tail => Sys2Proof.Machine.execOutputRingTailWrite part tail s
  | .lingerExpiry entry => Sys2Proof.Machine.execLingerExpiry entry s
  | .patrolScrub hits => Sys2Proof.Machine.execPatrolScrub hits s
  | .rowMapOutDone frame line spare => Sys2Proof.Machine.execRowMapOutDone frame line spare s
  | .channelTrainingTimeout chan => Sys2Proof.Machine.execChannelTrainingTimeout chan s
  | .stackTempReading stack tenths => Sys2Proof.Machine.execStackTempReading stack tenths s
  | .stackLevelFall stack => Sys2Proof.Machine.execStackLevelFall stack s
  | .predictedDelayReport stack part queued => Sys2Proof.Machine.execPredictedDelayReport stack part queued s
  | .stackResume stack => Sys2Proof.Machine.execStackResume stack s
  | .farDevicePoison x line => Sys2Proof.Machine.execFarDevicePoison x line s
  | .farTimeout x line pane index => Sys2Proof.Machine.execFarTimeout x line pane index s
  | .farViolation x => Sys2Proof.Machine.execFarViolation x s
  | .farSurpriseRemoval x => Sys2Proof.Machine.execFarSurpriseRemoval x s
  | .goldenRegister region => Sys2Proof.Machine.execGoldenRegister region s
  | .goldenDeregister region => Sys2Proof.Machine.execGoldenDeregister region s
  | .linkEnable link => Sys2Proof.Machine.execLinkEnable link s
  | .linkDisable link => Sys2Proof.Machine.execLinkDisable link s
  | .linkRelease link => Sys2Proof.Machine.execLinkRelease link s
  | .widen link => Sys2Proof.Machine.execWiden link s
  | .retrain link => Sys2Proof.Machine.execRetrain link s
  | .linkRetryTimer link => Sys2Proof.Machine.execLinkRetryTimer link s
  | .laneTrainingDone link locked => Sys2Proof.Machine.execLaneTrainingDone link locked s
  | .laneTrainingTimeout link => Sys2Proof.Machine.execLaneTrainingTimeout link s
  | .negMsg link module fabric serial slots lo hi => Sys2Proof.Machine.execNegMsg link module fabric serial slots lo hi s
  | .negTimeout link => Sys2Proof.Machine.execNegTimeout link s
  | .laneFailed link lane => Sys2Proof.Machine.execLaneFailed link lane s
  | .laneSwap link logical => Sys2Proof.Machine.execLaneSwap link logical s
  | .lockLossTimeout link => Sys2Proof.Machine.execLockLossTimeout link s
  | .flitReceive link bytes fec => Sys2Proof.Machine.execFlitReceive link bytes fec s
  | .nakMsg link cls seqNo => Sys2Proof.Machine.execNakMsg link cls seqNo s
  | .replayTimeout link cls => Sys2Proof.Machine.execReplayTimeout link cls s
  | .violationMsg link code cls seqNo => Sys2Proof.Machine.execViolationMsg link code cls seqNo s
  | .helloTimer => Sys2Proof.Machine.execHelloTimer s
  | .helloMsg link module fabric serial feed peerLink distance => Sys2Proof.Machine.execHelloMsg link module fabric serial feed peerLink distance s
  | .helloMissed link => Sys2Proof.Machine.execHelloMissed link s
  | .unreachableMsg link src job mtype tag => Sys2Proof.Machine.execUnreachableMsg link src job mtype tag s
  | .syncTimer => Sys2Proof.Machine.execSyncTimer s
  | .syncReq link t1 => Sys2Proof.Machine.execSyncReq link t1 s
  | .syncResp link t1 t2 t3 => Sys2Proof.Machine.execSyncResp link t1 t2 t3 s
  | .syncHoldoverTimeout => Sys2Proof.Machine.execSyncHoldoverTimeout s
  | .timeRootWrite value => Sys2Proof.Machine.execTimeRootWrite value s
  | .grtSet value => Sys2Proof.Machine.execGrtSet value s
  | .shutterReq link body => Sys2Proof.Machine.execShutterReq link body s
  | .delayReport link src job stack level predUs time => Sys2Proof.Machine.execDelayReport link src job stack level predUs time s
  | .allReduce part => Sys2Proof.Machine.execAllReduce part s
  | .reduceScatter part => Sys2Proof.Machine.execReduceScatter part s
  | .allGather part => Sys2Proof.Machine.execAllGather part s
  | .broadcast part => Sys2Proof.Machine.execBroadcast part s
  | .reduce part => Sys2Proof.Machine.execReduce part s
  | .allToAll part => Sys2Proof.Machine.execAllToAll part s
  | .send part => Sys2Proof.Machine.execSend part s
  | .recv part => Sys2Proof.Machine.execRecv part s
  | .collectiveBarrier part => Sys2Proof.Machine.execCollectiveBarrier part s
  | .shareMsg h op dtype count bytes poisoned => Sys2Proof.Machine.execShareMsg h op dtype count bytes poisoned s
  | .grantMsg h => Sys2Proof.Machine.execGrantMsg h s
  | .ackMsg h => Sys2Proof.Machine.execAckMsg h s
  | .doneMsg h => Sys2Proof.Machine.execDoneMsg h s
  | .setMsg h counted stale n => Sys2Proof.Machine.execSetMsg h counted stale n s
  | .resultMsg h figs bytes poisoned => Sys2Proof.Machine.execResultMsg h figs bytes poisoned s
  | .abortMsg h => Sys2Proof.Machine.execAbortMsg h s
  | .barrierMsg h answer => Sys2Proof.Machine.execBarrierMsg h answer s
  | .sendRts h nth count dtype => Sys2Proof.Machine.execSendRts h nth count dtype s
  | .sendCts h peerK dst => Sys2Proof.Machine.execSendCts h peerK dst s
  | .sendData h bytes poisoned => Sys2Proof.Machine.execSendData h bytes poisoned s
  | .bulk link src job body poisoned => Sys2Proof.Machine.execBulk link src job body poisoned s
  | .conduitRec sent job c bytes poisoned => Sys2Proof.Machine.execConduitRec sent job c bytes poisoned s
  | .conduitTap sent job c bytes poisoned => Sys2Proof.Machine.execConduitTap sent job c bytes poisoned s
  | .conduitRel sent job c tap count => Sys2Proof.Machine.execConduitRel sent job c tap count s
  | .conduitCredit sent job c reset => Sys2Proof.Machine.execConduitCredit sent job c reset s
  | .collectiveTimeout part => Sys2Proof.Machine.execCollectiveTimeout part s
  | .hatchDescriptorWords part win slot word value => Sys2Proof.Machine.execHatchDescriptorWords part win slot word value s
  | .hatchSeal part win slot value => Sys2Proof.Machine.execHatchSeal part win slot value s
  | .hatchDispatch part hatch => Sys2Proof.Machine.execHatchDispatch part hatch s
  | .hatchEnable part hatch pane => Sys2Proof.Machine.execHatchEnable part hatch pane s
  | .hatchDisable part hatch => Sys2Proof.Machine.execHatchDisable part hatch s
  | .completionTailWrite part hatch value => Sys2Proof.Machine.execCompletionTailWrite part hatch value s
  | .msixCoalesceTimer part hatch => Sys2Proof.Machine.execMsixCoalesceTimer part hatch s
  | .vfFlr port fn => Sys2Proof.Machine.execVfFlr port fn s
  | .pfFlr port => Sys2Proof.Machine.execPfFlr port s
  | .hostPortReset port => Sys2Proof.Machine.execHostPortReset port s
  | .dmaReadError pane index how => Sys2Proof.Machine.execDmaReadError pane index how s
  | .epWrite port fn offset => Sys2Proof.Machine.execEpWrite port fn offset s
  | .unsupportedRequest port fn => Sys2Proof.Machine.execUnsupportedRequest port fn s
  | .malformedTlp port => Sys2Proof.Machine.execMalformedTlp port s
  | .mctpRequest msg => Sys2Proof.Machine.execMctpRequest msg s
  | .setEndpointId eid => Sys2Proof.Machine.execSetEndpointId eid s
  | .pldmFirmwareUpdate medium image => Sys2Proof.Machine.execPldmFirmwareUpdate medium image s
  | .activate part => Sys2Proof.Machine.execActivate part s
  | .loadingDone part => Sys2Proof.Machine.execLoadingDone part s
  | .pause part => Sys2Proof.Machine.execPause part s
  | .partitionResume part => Sys2Proof.Machine.execPartitionResume part s
  | .drain part => Sys2Proof.Machine.execDrain part s
  | .drainQuiet part => Sys2Proof.Machine.execDrainQuiet part s
  | .teardown part => Sys2Proof.Machine.execTeardown part s
  | .teardownDone part => Sys2Proof.Machine.execTeardownDone part s
  | .sliceEnd group => Sys2Proof.Machine.execSliceEnd group s
  | .sliceSwitch group => Sys2Proof.Machine.execSliceSwitch group s
  | .sliceWatchdog pane e => Sys2Proof.Machine.execSliceWatchdog pane e s
  | .fill region => Sys2Proof.Machine.execFill region s
  | .fillDone region how => Sys2Proof.Machine.execFillDone region how s
  | .deleteRegion region => Sys2Proof.Machine.execDeleteRegion region s
  | .msnap part tenant => Sys2Proof.Machine.execMsnap part tenant s
  | .counterSample o late => Sys2Proof.Machine.execCounterSample o late s
  | .traceArm o => Sys2Proof.Machine.execTraceArm o s
  | .traceTrigger o => Sys2Proof.Machine.execTraceTrigger o s
  | .traceDisarm o => Sys2Proof.Machine.execTraceDisarm o s
  | .traceTimeTrigger o => Sys2Proof.Machine.execTraceTimeTrigger o s
  | .traceRecordWrite o pane => Sys2Proof.Machine.execTraceRecordWrite o pane s
  | .shutterStop scope noscan lead part job => Sys2Proof.Machine.execShutterStop scope noscan lead part job s
  | .shutterReopen scope lead part job => Sys2Proof.Machine.execShutterReopen scope lead part job s
  | .abortScan => Sys2Proof.Machine.execAbortScan s
  | .tStopReached => Sys2Proof.Machine.execTStopReached s
  | .lastIslandStopped => Sys2Proof.Machine.execLastIslandStopped s
  | .scanImageDone => Sys2Proof.Machine.execScanImageDone s
  | .tOpenReached => Sys2Proof.Machine.execTOpenReached s
  | .handlerStart e => Sys2Proof.Machine.execHandlerStart e s
  | .paneFailure pane => Sys2Proof.Machine.execPaneFailure pane s
  | .repairQuietPoint part => Sys2Proof.Machine.execRepairQuietPoint part s
  | .sharedRegionRepairDone good => Sys2Proof.Machine.execSharedRegionRepairDone good s
  | .checkpointNow part => Sys2Proof.Machine.execCheckpointNow part s
  | .checkpointCopyDone part => Sys2Proof.Machine.execCheckpointCopyDone part s
  | .checkpointDrainDone part good => Sys2Proof.Machine.execCheckpointDrainDone part good s
  | .checkpointRestore part slot => Sys2Proof.Machine.execCheckpointRestore part slot s
  | .rollback part => Sys2Proof.Machine.execRollback part s
  | .rollbackRestoreDone part => Sys2Proof.Machine.execRollbackRestoreDone part s
  | .hierHeartbeatTimer part => Sys2Proof.Machine.execHierHeartbeatTimer part s
  | .hierHeartbeat h => Sys2Proof.Machine.execHierHeartbeat h s
  | .gate h => Sys2Proof.Machine.execGate h s
  | .gateAll h => Sys2Proof.Machine.execGateAll h s
  | .ready h => Sys2Proof.Machine.execReady h s
  | .hierRelease h => Sys2Proof.Machine.execHierRelease h s
  | .hierCheckpoint h => Sys2Proof.Machine.execHierCheckpoint h s
  | .hierRollback h => Sys2Proof.Machine.execHierRollback h s
  | .replace h => Sys2Proof.Machine.execReplace h s
  | .joined h => Sys2Proof.Machine.execJoined h s
  | .hierResume h => Sys2Proof.Machine.execHierResume h s
  | .hierFaulted h => Sys2Proof.Machine.execHierFaulted h s
  | .workerHeartbeatMiss part worker => Sys2Proof.Machine.execWorkerHeartbeatMiss part worker s
  | .managerHeartbeatMiss part => Sys2Proof.Machine.execManagerHeartbeatMiss part s
  | .mgrTimeout part => Sys2Proof.Machine.execMgrTimeout part s
  | .pairEnable part => Sys2Proof.Machine.execPairEnable part s
  | .pairDisable part => Sys2Proof.Machine.execPairDisable part s
  | .pairAnswerTimeout part => Sys2Proof.Machine.execPairAnswerTimeout part s
  | .pairHeartbeatTimer part => Sys2Proof.Machine.execPairHeartbeatTimer part s
  | .pairHeartbeat link src job feed runId entries => Sys2Proof.Machine.execPairHeartbeat link src job feed runId entries s
  | .pairHeartbeatMiss part => Sys2Proof.Machine.execPairHeartbeatMiss part s
  | .mirror link src job msg => Sys2Proof.Machine.execMirror link src job msg s
  | .mirrorAck link src job => Sys2Proof.Machine.execMirrorAck link src job s
  | .mirrorAckTimeout part => Sys2Proof.Machine.execMirrorAckTimeout part s
  | .snapshot link src job entries => Sys2Proof.Machine.execSnapshot link src job entries s
  | .leave link src job faulted => Sys2Proof.Machine.execLeave link src job faulted s
  | .pwrfailN => Sys2Proof.Machine.execPwrfailN s
  | .inputUndervoltage => Sys2Proof.Machine.execInputUndervoltage s
  | .flushCommit => Sys2Proof.Machine.execFlushCommit s
  | .newNonce => Sys2Proof.Machine.execNewNonce s
  | .claim => Sys2Proof.Machine.execClaim s
  | .provision => Sys2Proof.Machine.execProvision s
  | .lcRelease => Sys2Proof.Machine.execLcRelease s
  | .lcReturn => Sys2Proof.Machine.execLcReturn s
  | .reissue => Sys2Proof.Machine.execReissue s
  | .scrap => Sys2Proof.Machine.execScrap s
  | .imgFloor value => Sys2Proof.Machine.execImgFloor value s
  | .fwFloor value => Sys2Proof.Machine.execFwFloor value s
  | .moduleReport => Sys2Proof.Machine.execModuleReport s
  | .directLoad port => Sys2Proof.Machine.execDirectLoad port s
  | .factoryWrite port => Sys2Proof.Machine.execFactoryWrite port s
  | .attReport part => Sys2Proof.Machine.execAttReport part s
  | .reportReady => Sys2Proof.Machine.execReportReady s
  | .extend part => Sys2Proof.Machine.execExtend part s
  | .powerMeasurement watts millivolts => Sys2Proof.Machine.execPowerMeasurement watts millivolts s
  | .dieTempReading die sensor celsius => Sys2Proof.Machine.execDieTempReading die sensor celsius s
  | .thermalFatal die => Sys2Proof.Machine.execThermalFatal die s
  | .sysRefclkLoss => Sys2Proof.Machine.execSysRefclkLoss s
  | .marginHbm chan rate => Sys2Proof.Machine.execMarginHbm chan rate s
  | .marginLink target => Sys2Proof.Machine.execMarginLink target s
  | .marginAbort => Sys2Proof.Machine.execMarginAbort s
  | .marginRunDone mv mui trained => Sys2Proof.Machine.execMarginRunDone mv mui trained s
  | .inputPowerOff => Sys2Proof.Machine.execInputPowerOff s

end Sys2Proof.Machine
end

