-- ==== Sys2Proof/Machine/Tick.lean ====
section
/-! DEFINITION. One tick of the reference clock: what happens while no command comes (log entry 22). -/

namespace Sys2Proof.Machine

/-- The cycles that the slice watchdog counts move on (R497): those of the island's present clock (R35), but not while the partition is
PAUSED, the Shutter holds the island or a conduit's back-pressure holds the command (R263). -/
def Mach.cycleTick (m : Mach) : Mach :=
  let step (e : Nat × Pane) : Nat × Pane :=
    if m.core.stopped.contains e.1 || (e.2.mruns.isEmpty && e.2.vrun.isNone && e.2.split.isEmpty) then e
    else
      let f (r : Run) : Run :=
        if m.pstate r.cmd.part == psPaused || m.pressed e.1 r.cmd then r else { r with ran := r.ran + m.fld R.PNE_CLOCK_ACTUAL_MHZ [e.1] }
      (e.1, { e.2 with mrun := e.2.mrun.map f, mdrain := e.2.mdrain.map f, vrun := e.2.vrun.map f, split := e.2.split.map f })
  { m with core := { m.core with panes := m.core.panes.map step } }
/-- The step of a slice could end: every other command of it has ended, and its end has been asked for, by a close request or, for a serving step,
by every expected row having been sampled (R142). -/
def Mach.stepMayEnd (m : Mach) (p s : Nat) : Bool :=
  !m.stepBusy p s &&
  ((m.train p).steps.any (fun t => t.step == s && m.closeAsked p t) ||
   (List.range 32).any (fun n => m.pipePart n == p && (m.pipe n).opened.any (fun x => x.n % 2 ^ 32 == s && x.rowsDone)))
/-- Tiles are abandoned as soon as R142 says: one whose step could otherwise end while a partial is missing, and one whose ARRIVED is full while
slice 0 has not drained, whoever set its bits. -/
def Mach.tileTick (m : Mach) (p : Nat) : Mach :=
  if m.shut p then m
  else
    ((m.conf.cfg.panes p).flatMap (fun n => (m.pane n).split)).foldl (fun m r =>
      if r.cmd.part = p ∧ m.tileFull r = false ∧ (m.slotFull r = true ∨ m.stepMayEnd p r.cmd.desc.step = true) then
        m.abandonTile p r.cmd.slotAddr r.cmd.desc.step
      else m) m
/-- A tick of graticule time, 1 ns (R508): the clock, conduits, training phases, metering, overruns and promotions advance. -/
def Mach.tick (m : Mach) : Mach :=
  let m := { (if m.running then m.ringTick else m) with tickRegs := m.regs, moved := [] }.clockTick
  if !m.running then m
  else
    let ps := m.conf.cfg.parts
    let m := m.violTick.cycleTick
    let m := ((List.range 64).foldl (fun m c => m.cdTick c) m).countTick
    let m := ps.foldl (fun m p => (((m.trainTick p).paneTick p).promote p).tileTick p) m
    (List.range m.conf.cfg.groups.length).foldl (fun m g => m.overrunTick g) m

/-- The ROM ends at 20 ms, in the wipe of a pending transition or in self-test; without a valid firmware copy it goes on (R609, R621, R637;
log entry 30). -/
def State.romEnd (s : State) : State :=
  if s.m.fld R.PRT_STATUS_PHASE [] ≠ 1 ∨ s.m.now < 20000000 then s
  else if s.nv.pendingLc ≠ 0 then { s with m := s.m.setFld R.PRT_STATUS_PHASE [] 2 }
  else if s.m.sec.fwRun ≠ 0 then { s with m := s.m.setFld R.PRT_STATUS_PHASE [] 3 }
  else s
/-- A tick of the module: nothing happens without power or clock, and graticule time stands at 0 while RESET_N is low (R636, R637). -/
def State.tick (s : State) : State :=
  if s.ext.power && s.ext.resetN && s.ext.refclk then { s with m := s.m.tick }.romEnd else s

end Sys2Proof.Machine
end

