-- ==== Sys2Proof/WellFormed.lean ====
section
/-! DEFINITION. Which terms of Instr are commands: the ranges that the operand types alone do not give. -/

namespace Sys2Proof

/-- An offset inside BAR0 of a function (256 MiB for a PF, 64 MiB for a VF), or, from 2^32 on, inside its BAR4 (64 KiB or
16 KiB), R450. -/
def inBar (fn : FnId) (offset : Nat) : Bool :=
  decide ((offset < if fn.val = 0 then 2 ^ 28 else 2 ^ 26) ∨ (2 ^ 32 ≤ offset ∧ offset < 2 ^ 32 + if fn.val = 0 then 2 ^ 16 else 2 ^ 14))
/-- A width that an access of PCIe can have, in bytes. -/
def widthOk (width : Nat) : Bool := [1, 2, 4, 8].contains width
/-- No element stands twice. -/
def distinct {α : Type} [DecidableEq α] : List α → Bool
  | [] => true
  | x :: l => !l.contains x && distinct l
/-- Lines named once each; a correction names at most the two pins that the symbol code corrects (R372). -/
def hitsOk (l : List LineErr) : Bool := distinct (l.map (fun e => (e.frame, e.line))) && l.all (fun e => decide (e.pins.length ≤ 2) && distinct e.pins)
/-- The bytes of a message: at most 2^26, what its LENGTH can name (R417). -/
def msgOk (bytes : List Byte) : Bool := decide (bytes.length ≤ 2 ^ 26)
/-- A mirrored entry: a service profile has 64 bytes (R336). -/
def mirrorOk (e : MirrorEnt) : Bool := e.profile.length == 64

/-- A well-formed command. -/
def Instr.wf (i : Instr) : Bool :=
  match i with
  | .registerWrite _ fn offset width data => inBar fn offset && widthOk width && decide (data < 2 ^ (8 * width))
  | .rcRead _ fn offset width => inBar fn offset && widthOk width
  | .outOfContractAccess _ fn offset width _ => inBar fn offset && widthOk width && !(width == 8 && offset % 8 == 0) && !(width == 4 && offset % 4 == 0)
  | .unoccupiedOffsetAccess _ fn offset _ => inBar fn offset
  | .selftestDone found => distinct found.absentChannels && distinct found.failedPins && distinct found.badSlots && distinct found.withheld &&
    found.bridges.all (fun b => distinct b.2.2)
  | .bridgeWireTestDone _ _ found => distinct found
  | .hostLinkUp _ rate width => decide (1 ≤ rate.val ∧ rate.val ≤ 5) && [1, 2, 4, 8, 16].contains width.val
  | .cxlEnumerationDone _ found _ => match found with
    | some d => (d.lanes == 8 || d.lanes == 16) && decide (1 ≤ d.gib)
    | none => true
  | .currentReductionDone cmds => !cmds.isEmpty && distinct cmds
  | .copy _ hits => hitsOk hits
  | .peerOpenReply _ r => decide (r.k ≤ 1024) && decide (r.temp < 2 ^ 16) && decide (r.credits ≤ 255)
  | .updatePass1 _ _ _ hits => hitsOk hits
  | .patrolScrub hits => hitsOk hits
  | .negMsg _ _ _ _ slots lo hi => slots.length == 6 && decide (lo ≤ hi)
  | .flitReceive _ bytes fec => bytes.length == 256 && decide (fec.codewords.length + fec.cont.toNat ≤ 2) && (fec.cont || !fec.codewords.isEmpty)
  | .shutterReq _ body => decide (body.length ≤ 256)
  | .shareMsg _ _ _ _ bytes _ => msgOk bytes
  | .setMsg _ counted stale _ => distinct counted && distinct stale
  | .resultMsg _ _ bytes _ => msgOk bytes
  | .sendData _ bytes _ => msgOk bytes
  | .conduitRec _ _ _ bytes _ => msgOk bytes
  | .conduitTap _ _ _ bytes _ => msgOk bytes
  | .hatchEnable _ _ pane => decide (pane.val < 384)
  | .dmaReadError _ _ how => match how with
    | .ep _ count => decide (1 ≤ count)
    | .fails => true
  | .mirror _ _ _ msg => match msg with
    | .admitted e => mirrorOk e
    | .tokens l => distinct (l.map (fun x => x.1))
    | .ended _ => true
  | .snapshot _ _ _ entries => entries.all mirrorOk && distinct (entries.map (fun e => e.idx))
  | .marginLink target => decide (target.val < 180)
  | .inputPowerOn .. | .resetNAssert .. | .resetNRelease .. | .waitPowerEnd .. | .wipeDone .. | .bootChartLoadDone ..
  | .transferDelivery .. | .bridgeCrcMismatch .. | .scalarInteger .. | .scalarFp32 .. | .address ..
  | .predicate .. | .load .. | .store .. | .branch .. | .call .. | .ret .. | .cmd .. | .waitt .. | .sigt .. | .clrt .. | .fence ..
  | .halt .. | .yield .. | .trap .. | .readGrt .. | .illegalInsn .. | .streamWaitCleared .. | .launch .. | .matrix .. | .matrixDrain ..
  | .splitkReduction .. | .delayedConversionStart .. | .add .. | .mul .. | .fma .. | .max .. | .min .. | .scale .. | .exp .. | .exp2 ..
  | .log .. | .log2 .. | .recip .. | .rsqrt .. | .sqrt .. | .div .. | .tanh .. | .sigmoid .. | .silu .. | .gelu .. | .rsum .. | .rmax ..
  | .rsumsq .. | .softmax .. | .logsumexp .. | .rmsnorm .. | .layernorm .. | .xent .. | .inv .. | .invroot .. | .vectorComplete ..
  | .copyComplete .. | .chartLoad .. | .chartWrite .. | .chartErase .. | .chartRevert .. | .chartCommandDone .. | .txnBegin ..
  | .txnWdata .. | .txnDeltaLen .. | .deltaVerifyDone .. | .txnCommit .. | .txnAbort .. | .txnValidationDone .. | .txnApply ..
  | .txnHoldTimeout .. | .conduitOpen .. | .conduitClose .. | .conduitReset .. | .openingTimeout .. | .teacherShard .. | .recordReady ..
  | .creditReturn .. | .recordArrival .. | .queuedRecordReadback .. | .studentShard .. | .lossPass2Start .. | .lossRowComplete ..
  | .tapFrame .. | .tapFrameDelivery .. | .tapRelease .. | .conduitLinkLost .. | .trainingStart .. | .trainingStop .. | .trainingClose ..
  | .exportStart .. | .exportAbort .. | .exportDone .. | .slotLaunch .. | .bucketHandoff .. | .normPassDone .. | .updateGateOpen ..
  | .updatePass2 .. | .updateChunkWrite .. | .stepBoundary .. | .stragglerDeadline .. | .admitReq .. | .promptFetchDone .. | .cancel ..
  | .retire .. | .handleRelease .. | .migrate .. | .ovlLoad .. | .overlayFetchDone .. | .ovlDrop .. | .atlasRegister .. | .atlasDrop ..
  | .pipelineEnable .. | .pipelineDisable .. | .stepOpen .. | .samplerShard .. | .sampleRow .. | .sealStep .. | .outputBatchWrite ..
  | .eventBatchWrite .. | .outputRingTailWrite .. | .lingerExpiry .. | .rowMapOutDone .. | .channelTrainingTimeout ..
  | .stackTempReading .. | .stackLevelFall .. | .predictedDelayReport .. | .stackResume .. | .farDevicePoison .. | .farTimeout ..
  | .farViolation .. | .farSurpriseRemoval .. | .goldenRegister .. | .goldenDeregister .. | .linkEnable .. | .linkDisable ..
  | .linkRelease .. | .widen .. | .retrain .. | .linkRetryTimer .. | .laneTrainingDone .. | .laneTrainingTimeout .. | .negTimeout ..
  | .laneFailed .. | .laneSwap .. | .lockLossTimeout .. | .nakMsg .. | .replayTimeout .. | .violationMsg .. | .helloTimer .. | .helloMsg ..
  | .helloMissed .. | .unreachableMsg .. | .syncTimer .. | .syncReq .. | .syncResp .. | .syncHoldoverTimeout .. | .timeRootWrite ..
  | .grtSet .. | .delayReport .. | .allReduce .. | .reduceScatter .. | .allGather .. | .broadcast .. | .reduce .. | .allToAll .. | .send ..
  | .recv .. | .collectiveBarrier .. | .grantMsg .. | .ackMsg .. | .doneMsg .. | .abortMsg .. | .barrierMsg .. | .sendRts .. | .sendCts ..
  | .bulk .. | .conduitRel .. | .conduitCredit .. | .collectiveTimeout .. | .hatchDescriptorWords .. | .hatchSeal .. | .hatchDispatch ..
  | .hatchDisable .. | .completionTailWrite .. | .msixCoalesceTimer .. | .vfFlr .. | .pfFlr .. | .hostPortReset .. | .epWrite ..
  | .unsupportedRequest .. | .malformedTlp .. | .mctpRequest .. | .setEndpointId .. | .pldmFirmwareUpdate .. | .activate ..
  | .loadingDone .. | .pause .. | .partitionResume .. | .drain .. | .drainQuiet .. | .teardown .. | .teardownDone .. | .sliceEnd ..
  | .sliceSwitch .. | .sliceWatchdog .. | .fill .. | .fillDone .. | .deleteRegion .. | .msnap .. | .counterSample .. | .traceArm ..
  | .traceTrigger .. | .traceDisarm .. | .traceTimeTrigger .. | .traceRecordWrite .. | .shutterStop .. | .shutterReopen .. | .abortScan ..
  | .tStopReached .. | .lastIslandStopped .. | .scanImageDone .. | .tOpenReached .. | .handlerStart .. | .paneFailure ..
  | .repairQuietPoint .. | .sharedRegionRepairDone .. | .checkpointNow .. | .checkpointCopyDone .. | .checkpointDrainDone ..
  | .checkpointRestore .. | .rollback .. | .rollbackRestoreDone .. | .hierHeartbeatTimer .. | .hierHeartbeat .. | .gate .. | .gateAll ..
  | .ready .. | .hierRelease .. | .hierCheckpoint .. | .hierRollback .. | .replace .. | .joined .. | .hierResume .. | .hierFaulted ..
  | .workerHeartbeatMiss .. | .managerHeartbeatMiss .. | .mgrTimeout .. | .pairEnable .. | .pairDisable .. | .pairAnswerTimeout ..
  | .pairHeartbeatTimer .. | .pairHeartbeat .. | .pairHeartbeatMiss .. | .mirrorAck .. | .mirrorAckTimeout .. | .leave .. | .pwrfailN ..
  | .inputUndervoltage .. | .flushCommit .. | .newNonce .. | .claim .. | .provision .. | .lcRelease .. | .lcReturn .. | .reissue ..
  | .scrap .. | .imgFloor .. | .fwFloor .. | .moduleReport .. | .directLoad .. | .factoryWrite .. | .attReport .. | .reportReady ..
  | .extend .. | .powerMeasurement .. | .dieTempReading .. | .thermalFatal .. | .sysRefclkLoss .. | .marginHbm .. | .marginAbort ..
  | .marginRunDone .. | .inputPowerOff .. => true

end Sys2Proof
end

