-- ==== Sys2Proof/Safety.lean ====
section
/-! DEFINITION. What statements about the block are made of: what a command answers, what it leaves as it was, the invariant of the state that survives a reset, and runs without a stop. -/

namespace Sys2Proof

open Sys2Proof.Machine

/-- A command answers a next state, and P holds of it. -/
def Does (c : Instr) (s : State) (P : State → Prop) : Prop := ∃ t, exec c s = .next t ∧ P t

/-- Every byte of memory reads as it did. -/
def MemKept (s t : State) : Prop := ∀ k, readByte t.m.mem k = readByte s.m.mem k
/-- Every byte of memory but the n bytes from key a reads as it did. -/
def MemKeptBut (a n : Nat) (s t : State) : Prop := ∀ k, k < a ∨ a + n ≤ k → readByte t.m.mem k = readByte s.m.mem k
/-- Every register but those of the list reads as it did. -/
def RegsKeptBut (l : List Nat) (s t : State) : Prop := ∀ a, a ∉ l → Regs.word t.m.regs a = Regs.word s.m.regs a
/-- Every register reads as it did. -/
def RegsKept (s t : State) : Prop := ∀ a, Regs.word t.m.regs a = Regs.word s.m.regs a
/-- Every register outside the range of addresses from lo to hi reads as it did. -/
def RegsKeptOutside (lo hi : Nat) (s t : State) : Prop := ∀ a, a < lo ∨ hi ≤ a → Regs.word t.m.regs a = Regs.word s.m.regs a
/-- Every register outside the blocks of the list (R50; block b has the addresses from b × 2^20) reads as it did. -/
def BlocksKept (l : List Nat) (s t : State) : Prop := ∀ a, a / 2 ^ 20 ∉ l → Regs.word t.m.regs a = Regs.word s.m.regs a
/-- Every byte of memory outside the pieces (key and length), if there are any, reads as it did. -/
def MemKeptButSegs (o : Option (List (Nat × Nat))) (s t : State) : Prop :=
  ∀ k, (∀ l, o = some l → ∀ g ∈ l, k < g.1 ∨ g.1 + g.2 ≤ k) → readByte t.m.mem k = readByte s.m.mem k
/-- Flash, factory region and fuses, and the power and input pins, are as they were. -/
def OuterKept (s t : State) : Prop := t.nv = s.nv ∧ t.ext = s.ext
/-- Only the register file differs, and in it only the registers of the list. -/
def OnlyRegs (l : List Nat) (s t : State) : Prop := t = { s with m := { s.m with regs := t.m.regs, tickRegs := t.m.tickRegs, moved := t.m.moved } } ∧ RegsKeptBut l s t

/-- Stream n of a pane retires instruction w of class cls and format f now: it is in RUN, its core may issue, no LOSSLESS trace holds its
event ty back, and its guard is true (R148, R153, R155, R528). -/
def Retires (m : Mach) (pane n cls : Nat) (f : InsnFmt) (ty : Nat) (w : InsnWord) : Prop :=
  m.sstate pane n = ssRun ∧ m.mayIssue pane = true ∧ m.insnBlocks pane n ty = false ∧ m.insnAt pane n = some w ∧ inClass w = cls ∧
  (m.stream pane n).guard (inPred f w) = true
/-- What an instruction that changes only its stream leaves: everything outside the module's volatile state, time, memory, other panes,
the rest of this pane, and every register but the stream's own PNE_STREAM and those of trace (block SRV). -/
def StreamFrame (pane n : Nat) (s t : State) : Prop :=
  OuterKept s t ∧ t.pending = s.pending ∧ t.m.now = s.m.now ∧ MemKept s t ∧ (∀ q, q ≠ pane → t.m.pane q = s.m.pane q) ∧
  t.m.pane pane = (s.m.pane pane).setStream n (t.m.stream pane n) ∧
  (∀ a, a < 0xF00000 ∨ 0x1000000 ≤ a → a ≠ R.PNE_STREAM_PC.addr [pane, n] → Regs.word t.m.regs a = Regs.word s.m.regs a)

/-- The operands of a vector command (R168, R172 to R175): A, decoded or taken from the vector input queue, and what stays in that queue; B
and C decoded; the bytes of its parameter block and of its labels. An operand that its operation does not use is empty. -/
def VxOperands (m : Mach) (pane : Nat) (q : QCmd) (av bv cv : List Fp) (blk lab : List Byte) (left : List (Nat × Bool)) : Prop :=
  let w := q.desc.w5
  let op := vxOp w
  let len := vxLen w
  let rows := if vxInv op then vxRows w * len else vxRows w
  (∃ c p, m.vxOperandA q pane rows len = .ok (av, c, p, left)) ∧
  (∃ c p, m.vxTensor q pane (if op = 0x30 ∨ !vxUsesB op then none else q.b) (vxB w) rows (if op = 0x2B then 2 * len else len) = .ok (bv, c, p)) ∧
  (∃ c p, m.vxTensor q pane (if op = 0x03 then q.c else none) 0 rows len = .ok (cv, c, p)) ∧
  (∃ p, (if vxBlock op then m.fetch q.part pane (q.c.getD 0) 64 else .ok ([], false)) = .ok (blk, p)) ∧
  ∃ p, (if op = 0x30 then m.fetch q.part pane (q.b.getD 0) (4 * rows) else .ok ([], false)) = .ok (lab, p)

/-- A message of partition p's job leaves for a module (R417, R426, R431): where a link carries traffic for it, its first flit stands among those
sent or waiting on that link, and was not there before. -/
def Sends (p dst mtype tag : Nat) (body : List Byte) (s t : State) : Prop :=
  ∀ n c : Nat, s.m.jobOf p ≠ 0 → s.m.routeLink dst s.m.moduleId (s.m.jobOf p) tag = some n → mtClass mtype = some c →
    ∃ f, (f ∈ (t.m.linkCls n c).txq ∨ f ∈ (t.m.linkCls n c).unacked) ∧ s.m.mrd.msgs < f.msg ∧ f.som = true ∧ f.dst = dst ∧ f.job = s.m.jobOf p ∧
      f.payload = (leBytes 2 s.m.moduleId ++ leBytes 2 (s.m.jobOf p) ++ leBytes 1 mtype ++ leBytes 1 16 ++ leBytes 2 0 ++ leBytes 4 body.length ++ leBytes 4 tag ++ body).take 240
/-- A hierarchy message leaves for a module (R588). -/
def HierSends (p dst kind step arg : Nat) (s t : State) : Prop := Sends p dst 0x27 0x80000000 (hierBody kind step arg) s t

/-- The provider's error log, unless it is full, holds a record at the slot where its HEAD stood, and HEAD has moved on (R561, R564). -/
def Logs (r : ErrRec) (s t : State) : Prop :=
  let head := s.m.fld R.ERR_LSTAT_HEAD []
  (head + 2 ^ 32 - s.m.fld R.ERR_LTAIL_TAIL []) % 2 ^ 32 ≠ 1024 →
    t.m.fld R.ERR_LSTAT_HEAD [] = (head + 1) % 2 ^ 32 ∧
    ∀ i : Fin 8, t.m.fld R.ERR_LOG_WORD [head % 1024, i] = leAt (s.m.recBytes r (Tbl.get 0 s.m.errs.seqs 0) 1 r.paddr r.info0 r.info1) (8 * i) 8

/-- Every half of a conduit in the running configuration lies on a die that the module has (R28, R239). -/
def LouvresOk (m : Mach) : Prop := ∀ c d : Nat, m.cdEmit c = some d ∨ m.cdLoss c = some d → d < 10
/-- What a conduit command leaves: everything outside the module's volatile state, and every other conduit. -/
def OtherConduitsKept (c : Nat) (s t : State) : Prop :=
  OuterKept s t ∧ (∀ d : Nat, d ≠ c → t.m.cond d = s.m.cond d) ∧ ∀ d : Nat, d < 64 → d ≠ c → t.m.cdState d = s.m.cdState d
/-- The frame at the head of a route has type ty and reaches die `die` for conduit c, which is in state sg and not frozen (R242 to R246): a
command of a pane whose SIGNAL token has room sent it, no part of it follows, and no direction of the route is failed or under its wire test (R36, R42, R164). -/
def FrameReaches (m : Mach) (rt ty die c sg : Nat) (x : Xfer) : Prop :=
  m.frameAt rt = some (die, m.cdPart c, x) ∧ x.pane < 384 ∧ x.more = false ∧ m.tokenFull (m.cdPart c) x = false ∧
  (∀ e, m.conf.cfg.route rt = some e → m.routeTested e = false ∧ m.routeDead e = false) ∧ leAt x.bytes 30 1 = ty ∧ leAt x.bytes 28 1 = c ∧ c < 64 ∧ m.cdFrozen c = false ∧
  m.core.stopped.contains (isl 1 die) = false ∧ m.cdState c = sg

/-- The fuses and records of the non-volatile state stay within what R604, R612 and R617 give them: eight owner slots, sixteen pairs of
the transition row, the two floors. -/
def FusesSound (n : Nv) : Prop := n.owners.length ≤ 8 ∧ n.trans.length ≤ 16 ∧ n.imgFloor ≤ 128 ∧ n.fwFloor ≤ 64
/-- What one step may do to the fuses: they only burn. The serial number and the maker keys stay, transitions and owner slots are only
added or marked, floors only rise (R604, R606, R612, R617). -/
def FusesBurn (a b : Nv) : Prop :=
  b.serial = a.serial ∧ b.makers = a.makers ∧ a.trans.map (fun t => t.1) <+: b.trans.map (fun t => t.1) ∧
  (∀ (i t : Nat), a.trans[i]? = some (t, true) → b.trans[i]? = some (t, true)) ∧ a.owners.map (fun t => t.1) <+: b.owners.map (fun t => t.1) ∧
  (∀ (i d : Nat), a.owners[i]? = some (d, true) → b.owners[i]? = some (d, true)) ∧ a.imgFloor ≤ b.imgFloor ∧ a.fwFloor ≤ b.fwFloor

/-- The commands that may change flash, the factory region or the fuses: writes of command registers, chart and firmware updates, the
life cycle, floors, a row mapped out, and what cuts a chart command short or ends a flush. -/
def nvRow : Instr → Bool
  | .registerWrite _ _ _ _ _ => true
  | .inputPowerOff => true
  | .resetNAssert => true
  | .resetNRelease _ _ _ => true
  | .dieTempReading _ _ _ => true
  | .flushCommit => true
  | .chartCommandDone _ _ => true
  | .claim => true
  | .provision => true
  | .lcRelease => true
  | .lcReturn => true
  | .reissue => true
  | .scrap => true
  | .wipeDone => true
  | .imgFloor _ => true
  | .fwFloor _ => true
  | .factoryWrite _ => true
  | .pldmFirmwareUpdate _ _ => true
  | .rowMapOutDone _ _ _ => true
  | _ => false
/-- The commands that may change what the module sees on its power and input pins: those that are such an event, and those in which the
module resets itself. -/
def pinRow : Instr → Bool
  | .registerWrite _ _ _ _ _ => true
  | .inputPowerOn => true
  | .inputPowerOff => true
  | .resetNAssert => true
  | .resetNRelease _ _ _ => true
  | .waitPowerEnd => true
  | .pwrfailN => true
  | .sysRefclkLoss => true
  | .dieTempReading _ _ _ => true
  | .claim => true
  | .provision => true
  | .wipeDone => true
  | _ => false

/-- k steps from s end in no fault and no refusal. -/
def SafeFor (k : Nat) (s : State) : Prop := ∃ t, Host.Core.run core k s = .next t

end Sys2Proof
end

