-- ==== Sys2Proof/Certificates/Slice0/Obligations.lean ====
section
/-! DEFINITION. The statements about the model, for the provers. -/

open Sys2Proof Sys2Proof.Machine

/-- A step with a command waiting is exec of it with the queue's rest (00_scope.md). Whatever the state and the command, a step with that
command at the front of the queue is exec of the command on the state whose queue is the rest. The queue is the model's form of the
block's command stream. -/
def Obligations.StepRunsTheFrontCommand : Prop :=
  ∀ (c : Instr) (rest : List Instr) (s : State), step { s with pending := c :: rest } = exec c { s with pending := rest }

/-- A step with nothing waiting lets one tick of time pass (13_counters_trace_and_time.md, R508, 17_bringup_and_module.md, R637). The model's
choice (log entry 22). With no command waiting a step answers a next state. Without power, with RESET_N low or without SYS_REFCLK nothing
changes. Otherwise graticule time advances modulo 2^64 by one tick, or by two or none where a correction of 16 units is due (what is left to slew,
and what the rate estimate adds to it, log entry 91) and the last was 5,000 ticks before. While the module does not run yet, memory and every register but GRT_STATUS and PRT_STATUS stay, and the ROM phase
ends at 20 ms in WIPE where a transition is pending, else in SELFTEST if a firmware copy was selected. -/
def Obligations.EmptyQueueIsATick : Prop :=
  ∀ s : State, s.pending = [] →
    let due : Prop := s.m.srv.slewAt + 5000 ≤ s.m.srv.refTick + 1
    let up : Prop := due ∧ 16 ≤ s.m.rateTick.srv.slew
    let down : Prop := due ∧ s.m.rateTick.srv.slew ≤ -16
    (s.ext.power = false ∨ s.ext.resetN = false ∨ s.ext.refclk = false → step s = .next s) ∧
    (s.ext.power = true → s.ext.resetN = true → s.ext.refclk = true → ∃ t, step s = .next t ∧ t.ext = s.ext ∧ t.nv = s.nv ∧
      (¬ up → ¬ down → t.m.now = (s.m.now + 1) % 2 ^ 64) ∧ (up → t.m.now = (s.m.now + 2) % 2 ^ 64) ∧ (down → t.m.now = s.m.now % 2 ^ 64)) ∧
    (s.ext.power = true → s.ext.resetN = true → s.ext.refclk = true → s.m.running = false → ¬ up → ¬ down → ∃ t, step s = .next t ∧
      OuterKept s t ∧ MemKept s t ∧ RegsKeptBut [R.GRT_STATUS_ALIGN_NS.addr [], R.PRT_STATUS_PHASE.addr []] s t ∧
      t.m.fld R.PRT_STATUS_PHASE [] =
        if s.m.fld R.PRT_STATUS_PHASE [] = 1 ∧ 20000000 ≤ (s.m.now + 1) % 2 ^ 64 then
          (if s.nv.pendingLc ≠ 0 then 2 else if s.m.sec.fwRun ≠ 0 then 3 else 1)
        else s.m.fld R.PRT_STATUS_PHASE [])

/-- What reset leaves: the numbers of the register tables, and nothing held (00_scope.md, R18, 01_anatomy.md, R43, 07_student_training.md,
R284, 10_meridian_links.md, R414, 13_counters_trace_and_time.md, R508, 15_faults_and_continuity.md, R579, R588, R592,
17_bringup_and_module.md, R630, R636). At State.reset every field whose register table gives a number other than 0 holds that number, and
every other register of the file is 0: for a field that its table resets to img or hw that 0 is the model's choice (log entry 5). No pane,
transfer, partition hold or transaction holds anything and the module does not run. That memory lists nothing is R636's clearing; that an
unlisted byte reads 0 is the model's choice (log entry 3). -/
def Obligations.ResetLeavesTheValuesOfTheSpec : Prop :=
  let m := State.reset.m
  (m.fld R.PRT_ID_VENDOR_ID [] = 0x4F50 ∧ m.fld R.PRT_ID_PART_ID [] = 0x6160 ∧ m.fld R.PRT_ID_GEN [] = 1 ∧ m.fld R.PRT_ID_STEP_MAJOR [] = 1 ∧
    m.fld R.PRT_ID_STEP_MINOR [] = 1 ∧ m.fld R.PRT_PWRCAP_CAP_W [] = 3200 ∧ m.fld R.PRT_PWRCAP_CLK_MHZ [] = 3300 ∧ m.fld R.MRD_ID_MODULE [] = 0xFFFF ∧
    m.fld R.MRD_ID_VER_MAX [] = 1 ∧ m.fld R.MRD_ID_VER_MIN [] = 1 ∧ m.fld R.GRT_STATUS_DISTANCE [] = 0xFF ∧ m.fld R.GRT_STATUS_ALIGN_NS [] = 255) ∧
  (∀ n : LinkId, m.fld R.MRD_LPEER_MODULE [n] = 0xFFFF ∧ m.fld R.MRD_LPEER_DISTANCE [n] = 0xFF) ∧
  (∀ p : PartId, m.fld R.COL_TCTL_GEXP_MIN [p + 1] = 0xE0 ∧ m.fld R.COL_TCTL_GEXP_MAX [p + 1] = 0x20 ∧ m.fld R.COL_TSTATE_CLOSED [p + 1] = 0xFFFFFFFF ∧
    m.fld R.COL_CCFG_MANAGER [p + 1] = 0xFFFF ∧ m.fld R.CKP_CTL_BUDDY [p + 1] = 0xFFFF ∧ m.fld R.CKP_STATUS_LAST_STEP [p + 1] = 0xFFFFFFFF ∧
    m.fld R.HIER_CFG_MANAGER [p + 1] = 0xFFFF ∧ m.fld R.GZT_PAIRCFG_PEER [p + 1] = 0xFFFF) ∧
  (∀ a : Nat, a ∉ [R.PRT_ID_GEN.addr [], R.PRT_PWRCAP_CAP_W.addr [], R.MRD_ID_MODULE.addr [], R.GRT_STATUS_DISTANCE.addr []] →
    (∀ n : LinkId, a ≠ R.MRD_LPEER_MODULE.addr [n]) →
    (∀ p : PartId, ∀ f ∈ [R.COL_TCTL_GEXP_MIN, R.COL_TSTATE_CLOSED, R.COL_CCFG_MANAGER, R.CKP_CTL_BUDDY, R.CKP_STATUS_LAST_STEP, R.HIER_CFG_MANAGER,
      R.GZT_PAIRCFG_PEER], a ≠ f.addr [p + 1]) → Regs.word m.regs a = 0) ∧
  m.running = false ∧ m.mem = [] ∧ m.poison = [] ∧ m.core.panes = [] ∧ m.core.xfers = [] ∧ m.part.holds = [] ∧ m.conf.txns = [] ∧ m.now = 0 ∧
    State.reset.pending = []

/-- The power input and RESET_N (17_bringup_and_module.md, R629, R636, R637, 15_faults_and_continuity.md, R603). The input rising raises
PWR_GOOD and changes no register. Its loss, and RESET_N while no flush is being programmed, clear all volatile state of the module and keep flash, fuses and the memory of the hosts; RESET_N during a flush only moves the pin. Its release with power begins the boot: time 0, the sampled pins in PRT_STATUS, the
serial number of the fuses, and the phase WAIT_POWER while PWRFAIL_N is low, else ROM; the rows that the Porter recorded are repaired for good (R379). -/
def Obligations.PowerInputAndResetPin : Prop :=
  ∀ (s : State) (sel : Fin 4) (feed : Fin 16) (smb : Fin 8),
    let cleared (t : State) : Prop := t.m = { State.reset.m with mem := s.m.hostMem, out := t.m.out, freeCtr := t.m.freeCtr, pwrGood := t.m.pwrGood } ∧ t.pending = s.pending
    (s.ext.power = false → Does .inputPowerOn s (fun t =>
      t.ext.power = true ∧ t.m.pwrGood = true ∧ t.m.out = s.m.out ++ [.pin 2 true] ∧ t.nv = s.nv ∧ RegsKept s t ∧ MemKept s t)) ∧
    (s.ext.power = true → s.m.conf.chartOp = none → Does .inputPowerOff s (fun t => t.ext.power = false ∧ t.nv = s.nv ∧ cleared t)) ∧
    (s.m.errs.flushing = none → s.m.conf.chartOp = none → Does .resetNAssert s (fun t => t.ext = { s.ext with resetN := false } ∧ t.nv = s.nv ∧ cleared t)) ∧
    (s.m.errs.flushing ≠ none → Does .resetNAssert s (fun t => t = { s with ext := { s.ext with resetN := false } })) ∧
    (s.ext.resetN = false → s.ext.power = true → s.ext.tripped = false → s.m.errs.flushing = none → Does (.resetNRelease sel feed smb) s (fun t =>
      t.ext.resetN = true ∧ t.m.now = 0 ∧ t.m.mem = s.m.hostMem ∧ t.m.fld R.PRT_STATUS_PHASE [] = b2n s.ext.pwrfailN ∧ t.m.fld R.PRT_STATUS_CHART [] = sel.val ∧
      t.m.fld R.PRT_STATUS_FEED_ID [] = feed.val ∧ t.m.fld R.PRT_STATUS_SMB_ADDR [] = smb.val ∧ t.m.fld R.PRT_STATUS_REFCLK_OK [] = 1 ∧
      t.m.fld R.PRT_SERIAL_SERIAL [] = s.nv.serial.toNat ∧ t.m.running = false ∧
      (s.m.conf.chartOp = none → t.nv = { s.nv with rows := [], repaired := s.nv.rows.foldl (fun l k => insertNat k l) s.nv.repaired }))) ∧
    (s.ext.resetN = true → Does (.resetNRelease sel feed smb) s (fun t => t = s))

/-- From WAIT_POWER to READY (05_charts_and_configuration.md, R212, 17_bringup_and_module.md, R632, R637, R638, 11_host_attachment.md, R448,
R480). WAIT_POWER ends in ROM. Self-test, once a firmware copy is selected and no transition is pending, ends in phase CHART_LOAD and
leaves every channel ABSENT, ACTIVE or DEGRADED as it was found. The chart load ends in READY, with the code of the chart that CHART_SEL
names: a chart that passes is the running configuration; else the factory image is, with CFG_FALLBACK; where that fails too the module
stands in CFG_NONE and accepts no host command. A host port trains and shows rate and width; a CXL device found is UP with at most 4 TiB;
one that is not leaves its port ABSENT and a record with the failing step, whose code the spec does not state (log entry 2); a port is enumerated
once from reset to reset. A host port that trains changes no other register where no completion record waits for it. -/
def Obligations.BootPhases : Prop :=
  ∀ s : State,
    (s.m.fld R.PRT_STATUS_PHASE [] = 0 → s.m.fld R.PRT_STATUS_REFCLK_OK [] = 1 → Does .waitPowerEnd s (fun t =>
      t.m.fld R.PRT_STATUS_PHASE [] = 1 ∧ t.ext = { s.ext with pwrfailN := true } ∧ t.nv = s.nv ∧ MemKept s t ∧ RegsKeptBut [R.PRT_STATUS_PHASE.addr []] s t)) ∧
    (∀ found : SelfTest, s.m.fld R.PRT_STATUS_PHASE [] = 1 ∨ s.m.fld R.PRT_STATUS_PHASE [] = 3 → s.romPassed = true → Does (.selftestDone found) s (fun t =>
      t.m.fld R.PRT_STATUS_PHASE [] = 4 ∧ OuterKept s t ∧ MemKept s t ∧
      ∀ g : ChanId, t.m.fld R.MEM_CHAN_STATE [g] =
        if g ∈ found.absentChannels then 0
        else
          let pins := ((List.range 72).filter (fun k => found.failedPins.any (fun x => x.1 == g && x.2.val == k))).length
          if 2 < pins then 0 else if pins = 0 then 1 else 2)) ∧
    (s.m.fld R.PRT_STATUS_PHASE [] = 4 →
      let n := s.nv
      let sel := s.m.fld R.PRT_STATUS_CHART []
      let bank := (n.current sel).getD 0
      let code : ImgFail := match n.current sel with
        | none => imgFail rcEmpty
        | some b => (s.m.loadCheck n (n.imageOf b sel) (n.commitOf b sel)).getD (imgFail rcOk)
      let ready (t : State) : Prop := t.m.fld R.PRT_STATUS_PHASE [] = 5 ∧ t.m.fld R.CFG_STATUS_LOAD_CODE [] = code.1 ∧ OuterKept s t
      let runs (image : List Byte) (t : State) : Prop := t.m.conf.cfg = imageCfg image ∧ t.m.fld R.CFG_RUN_ID_IMAGE_ID [] = imId image ∧ t.m.sec.imgSvn = imSvn image
      (code.1 = rcOk → Does .bootChartLoadDone s (fun t => ready t ∧ runs (n.imageOf bank sel) t ∧ t.m.fld R.CFG_RUN_CHART [] = sel ∧ t.m.fld R.CFG_RUN_BANK [] = bank ∧
        t.m.fld R.CFG_RUN_FACTORY [] = 0 ∧ t.m.fld R.PRT_STATUS_CFG_NONE [] = s.m.fld R.PRT_STATUS_CFG_NONE [] ∧
        t.m.fld R.PRT_STATUS_CFG_FALLBACK [] = s.m.fld R.PRT_STATUS_CFG_FALLBACK [])) ∧
      (code.1 ≠ rcOk → s.m.factoryCheck n = none → Does .bootChartLoadDone s (fun t => ready t ∧ runs n.factory t ∧ t.m.fld R.CFG_RUN_FACTORY [] = 1 ∧
        t.m.fld R.PRT_STATUS_CFG_NONE [] = 0 ∧ t.m.fld R.PRT_STATUS_CFG_FALLBACK [] = 1 ∧ t.m.fld R.CFG_STATUS_FACTORY_CODE [] = rcOk)) ∧
      (∀ f, code.1 ≠ rcOk → s.m.factoryCheck n = some f → Does .bootChartLoadDone s (fun t => ready t ∧ t.m.conf = s.m.conf ∧ t.m.fld R.PRT_STATUS_CFG_NONE [] = 1 ∧
        t.m.fld R.PRT_STATUS_CFG_FALLBACK [] = 0 ∧ t.m.fld R.CFG_STATUS_FACTORY_CODE [] = f.1 ∧ t.m.accepts = false ∧ MemKept s t))) ∧
    (∀ (port : PortId) (rate : Fin 8) (width : Fin 32), 1 ≤ rate.val → rate.val ≤ 5 → width.val ∈ [1, 2, 4, 8, 16] → 1 ≤ s.m.fld R.PRT_STATUS_PHASE [] →
      s.romPassed = true → Does (.hostLinkUp port rate width) s (fun t => t.m.fld R.PRT_HP_LINK_UP [port] = 1 ∧ t.m.fld R.PRT_HP_LINK_RATE [port] = rate.val ∧
        t.m.fld R.PRT_HP_LINK_WIDTH [port] = width.val ∧ ((∀ p h : Nat, (s.m.hatch p h).holding = []) → OnlyRegs [R.PRT_HP_LINK_UP.addr [port]] s t))) ∧
    (∀ (x : PortId) (d : CxlDevice) (step_ : Fin 8), s.m.fld R.PRT_STATUS_PHASE [] ≠ 0 → s.romPassed = true → s.m.fld R.FAR_PORT_STATE [x] = 0 →
      (x.val ∉ s.m.tier.enumerated → Does (.cxlEnumerationDone x (some d) step_) s (fun t => t.m.fld R.FAR_PORT_STATE [x] = 1 ∧
        t.m.fld R.FAR_PORT_CAP_GIB [x] = min 4096 d.gib ∧ x.val ∈ t.m.tier.enumerated ∧ OuterKept s t ∧ MemKept s t ∧ RegsKeptBut [R.FAR_PORT_STATE.addr [x]] s t)) ∧
      (x.val ∈ s.m.tier.enumerated → Does (.cxlEnumerationDone x (some d) step_) s (fun t => t = s))) ∧
    (∀ (x : PortId) (step_ : Fin 8), s.m.fld R.PRT_STATUS_PHASE [] ≠ 0 → s.romPassed = true → s.m.fld R.FAR_PORT_STATE [x] = 0 → x.val ∉ s.m.tier.enumerated →
      Does (.cxlEnumerationDone x none step_) s (fun t => t.m.fld R.FAR_PORT_STATE [x] = 0 ∧ x.val ∈ t.m.tier.enumerated ∧ OuterKept s t ∧ MemKept s t ∧
        Logs (ErrRec.mk0 sevCorrected 0 (s.m.free.toNat % 65536) (isl 6 (2 + x.val)) step_ 0) s t))

/-- Power failure, its flush, and the flush commit (15_faults_and_continuity.md, R599, R600, R603, 17_bringup_and_module.md, R633). From
SELFTEST on, a fall of PWRFAIL_N puts a module that is RUNNING in POWER_FAIL with cause POWER, asserts ALERT_N and begins a flush that
holds the time of the failure; flash is not yet changed. An input undervoltage that was not announced does the same and marks the flush
UNANNOUNCED. The flush commit writes the flush to the bank that does not hold the newest one, and leaves the other bank; with RESET_N low, all volatile state of the module is then cleared. -/
def Obligations.PowerFailureAndFlush : Prop :=
  ∀ s : State,
    let fails (un : Bool) (t : State) : Prop :=
      t.m.fld R.ERR_MSTATE_STATE [] = 2 ∧ t.m.fld R.ERR_MSTATE_CAUSE [] = 0x32 ∧ t.m.alertN = false ∧ t.nv = s.nv ∧ MemKept s t ∧
      ∃ f, t.m.errs.flushing = some f ∧ f.failAt = s.m.now ∧ f.unannounced = un ∧ ∀ b g, s.nv.flushBank = some b → (s.nv.bank b).flush = some g → f.gen = g.gen + 1
    (3 ≤ s.m.fld R.PRT_STATUS_PHASE [] → s.m.fld R.ERR_MSTATE_STATE [] = 0 → s.m.errs.flushing = none →
      Does .pwrfailN s (fun t => fails false t ∧ t.ext = { s.ext with pwrfailN := false }) ∧
      (s.ext.pwrfailN = true → Does .inputUndervoltage s (fun t => fails true t ∧ t.ext = s.ext))) ∧
    (s.ext.pwrfailN = false → Does .inputUndervoltage s (fun t => t = s)) ∧
    (∀ f, s.m.errs.flushing = some f → s.m.conf.chartOp = none → Does .flushCommit s (fun t => t.m.errs.flushing = none ∧ t.ext = s.ext ∧
      t.nv = s.nv.setBank (match s.nv.flushBank with | some k => 1 - k | none => 0)
        { s.nv.bank (match s.nv.flushBank with | some k => 1 - k | none => 0) with flush := some f } ∧
      (s.ext.resetN = true → RegsKept s t ∧ MemKept s t) ∧ (s.ext.resetN = false → t.m.regs = State.reset.m.regs ∧ t.m.mem = s.m.hostMem)))

/-- Power readings, die temperatures, thermal trip and the loss of SYS_REFCLK (17_bringup_and_module.md, R628, R630, R635, R639). A reading of
the input power leaves the mean of the last millisecond in PRT_POWER.INPUT_W and the largest such mean in PEAK_W. A die sensor at 115 °C
or more trips the module: THERMTRIP_N and PWR_GOOD fall, every register is at reset and only the memory of the hosts is kept. Below that, a reading no lower than the others
held is shown in PRT_THERMd.TEMP. Loss of SYS_REFCLK, and a fatal over-temperature, are FATAL: ERR_MSTATE, ALERT_N, memory kept. -/
def Obligations.PowerTemperatureAndClock : Prop :=
  ∀ s : State,
    (∀ (w : BitVec 14) (mv : BitVec 16), s.awake = true → Does (.powerMeasurement w mv) s (fun t =>
      let l := (w.toNat, mv.toNat) :: s.m.pwr.samples.take 999
      let mean := (l.map (fun x => x.1)).sum / l.length
      t.m.fld R.PRT_POWER_INPUT_W [] = mean % 2 ^ 14 ∧ t.m.fld R.PRT_POWER_PEAK_W [] = max (s.m.fld R.PRT_POWER_PEAK_W []) mean % 2 ^ 14 ∧ MemKept s t ∧ OuterKept s t)) ∧
    (∀ (die : Fin 12) (sensor : Fin 16) (c : BitVec 8), s.ext.power = true → s.ext.tripped = false → die.val < 10 →
      (115 ≤ c.toInt → s.m.conf.chartOp = none → Does (.dieTempReading die sensor c) s (fun t => t.ext = { s.ext with tripped := true } ∧ t.m.pwrGood = false ∧
        t.m.regs = State.reset.m.regs ∧ t.m.mem = s.m.hostMem ∧ t.nv = s.nv)) ∧
      (c.toInt < 115 → s.awake = true → (∀ k, Tbl.get (-256) s.m.pwr.sensors k ≤ c.toInt) → Does (.dieTempReading die sensor c) s (fun t =>
        signed 8 (t.m.fld R.PRT_THERM_TEMP [die]) = c.toInt ∧ MemKept s t ∧ OuterKept s t))) ∧
    (s.awake = true → s.m.fld R.ERR_MSTATE_STATE [] = 0 →
      (∀ die : Fin 10, Does (.thermalFatal die) s (fun t =>
        t.m.fld R.ERR_MSTATE_STATE [] = 1 ∧ t.m.fld R.ERR_MSTATE_CAUSE [] = 0x33 ∧ t.m.alertN = false ∧ MemKept s t ∧ OuterKept s t)) ∧
      (s.ext.refclk = true → Does .sysRefclkLoss s (fun t =>
        t.m.fld R.ERR_MSTATE_STATE [] = 1 ∧ t.m.fld R.ERR_MSTATE_CAUSE [] = 0x34 ∧ t.m.fld R.PRT_STATUS_REFCLK_OK [] = 0 ∧ t.m.alertN = false ∧
        t.ext = { s.ext with refclk := false } ∧ t.nv = s.nv ∧ MemKept s t)))

/-- Margining runs start, end and are refused (17_bringup_and_module.md, R641, R642). With no run in progress and the permission of SEC_LC, a
run on a channel with no owned frame that is present, or on a lane of a DOWN link, sets BUSY, CODE 0 and TARGET; while one runs another is
refused with BUSY (1), without the permission with 2. A run's end clears BUSY and leaves the windows found; MARGIN_ABORT clears BUSY with
code 5. Stated here where no command waits for the end. -/
def Obligations.Margining : Prop :=
  ∀ s : State,
    let stat := R.PRT_MARGIN_STAT_BUSY.addr []
    let begun (n : Nat) (t : State) : Prop := t.m.fld R.PRT_MARGIN_STAT_BUSY [] = 1 ∧ t.m.fld R.PRT_MARGIN_STAT_CODE [] = 0 ∧
      t.m.fld R.PRT_MARGIN_STAT_TARGET [] = n ∧ OuterKept s t ∧ MemKept s t ∧ RegsKeptBut [stat] s t
    let code (n : Nat) (t : State) : Prop := t.m.fld R.PRT_MARGIN_STAT_CODE [] = n ∧ t.m.fld R.PRT_MARGIN_STAT_BUSY [] = s.m.fld R.PRT_MARGIN_STAT_BUSY [] ∧ OnlyRegs [stat] s t
    (∀ (g : ChanId) (r : Fin 3), s.m.accepts = true →
      (s.m.margining = true → Does (.marginHbm g r) s (code 1)) ∧
      (s.m.margining = false → s.m.fld R.SEC_LC_MARGIN [] = 0 → Does (.marginHbm g r) s (code 2)) ∧
      (s.m.margining = false → s.m.fld R.SEC_LC_MARGIN [] = 1 → (∀ e ∈ s.m.tier.frameOwner, e.1 % 512 ≠ g.val) → s.m.fld R.MEM_CHAN_STATE [g] ≠ 0 →
        Does (.marginHbm g r) s (begun g.val))) ∧
    (∀ x : Fin 512, s.m.accepts = true → s.m.margining = false → s.m.fld R.SEC_LC_MARGIN [] = 1 → x.val < 180 →
      s.m.lstate (x.val / 18) = 0 → Does (.marginLink x) s (begun x.val)) ∧
    (s.m.accepts = true → s.m.margining = true → s.m.pwr.acts = [] → s.m.pwr.enables = [] → s.m.pwr.fills = [] →
      Does .marginAbort s (fun t => t.m.fld R.PRT_MARGIN_STAT_BUSY [] = 0 ∧ t.m.fld R.PRT_MARGIN_STAT_CODE [] = 5 ∧ OuterKept s t ∧ MemKept s t ∧ RegsKeptBut [stat] s t) ∧
      ∀ mv mui : BitVec 12, Does (.marginRunDone mv mui true) s (fun t => t.m.fld R.PRT_MARGIN_STAT_BUSY [] = 0 ∧ t.m.fld R.PRT_MARGIN_STAT_CODE [] = 0 ∧
        t.m.fld R.PRT_MARGIN_STAT_WINDOW_MV [] = mv.toNat ∧ t.m.fld R.PRT_MARGIN_STAT_WINDOW_MUI [] = mui.toNat ∧ OuterKept s t ∧ MemKept s t ∧ RegsKeptBut [stat] s t))

/-- Scalar, FP32, address, predicate, READ_GRT and YIELD instructions (04_lintel_cores_and_vector_engine.md, R143 to R150, R182). An
instruction of classes 0 to 3, READ_GRT or YIELD that its stream retires with a true guard writes its destination register (s0 and p0
discard writes) with the value of its operation on its sources, moves the PC on by one modulo 2^14, and leaves memory, the other panes,
the tokens, queues and other streams of its pane and all registers but its own PNE_STREAM and those of trace as they were. A shift by 64
or more and a conversion outside 64 bits, which the spec does not state, give a free value (log entry 2). That a 5-bit field names an
address or predicate register modulo 8, that an FP32 result clears the upper half of rd, and that predicate logic in form RI takes imm ≠ 0 as
its second operand, is the model's choice (log entries 60, 61, 63). -/
def Obligations.LintelRegisterInstructions : Prop :=
  ∀ (s : State) (pane : PaneId) (st : StreamId) (w : InsnWord),
    let x := s.m.stream pane st.num
    let onward (y : Stream) (t : State) : Prop :=
      t.m.stream pane st.num = y ∧ t.m.pc pane st.num = (s.m.pc pane st.num + 1) % 2 ^ 14 ∧ t.m.sstate pane st.num = ssRun ∧ StreamFrame pane st.num s t
    (∀ (op : IntOp) (imm : Bool), Retires s.m pane st.num 0 (fmtOfImm imm) 11 w →
      Does (.scalarInteger pane st op imm) s (onward (x.setS (inRd w) (intOp op (x.sreg (inRs1 w)) (src2 imm x w))))) ∧
    (∀ op : FpOp, Retires s.m pane st.num 1 .rr 11 w →
      Does (.scalarFp32 pane st op) s (onward (x.setS (inRd w) (fpOp op (x.sreg (inRs1 w)) (x.sreg (inRs2 w)) (x.sreg (inRd w)))))) ∧
    (∀ imm : Bool, Retires s.m pane st.num 2 (fmtOfImm imm) 11 w →
      Does (.address pane st .toScalar imm) s (onward (x.setS (inRd w) (x.areg (inRs1 w)))) ∧
      Does (.address pane st .ofScalar imm) s (onward (x.setA (inRd w) (if imm then immWord w else x.sreg (inRs1 w)))) ∧
      ∀ op : AddrOp, op ≠ .toScalar → op ≠ .ofScalar →
        Does (.address pane st op imm) s (onward (x.setA (inRd w) (addrOp op (x.areg (inRs1 w)) (src2 imm x w))))) ∧
    (∀ (op : PredOp) (imm : Bool), Retires s.m pane st.num 3 (fmtOfImm imm) 11 w →
      Does (.predicate pane st op imm) s (onward (x.setP (inRd w)
        (if predIsCmp op then predCmp op (x.sreg (inRs1 w)) (src2 imm x w) else predLogic op (x.preg (inRs1 w)) (if imm then inImm w != 0 else x.preg (inRs2 w)))))) ∧
    (Retires s.m pane st.num 7 .ri 11 w →
      Does (.readGrt pane st) s (onward (x.setS (inRd w) (BitVec.ofNat 64 s.m.now))) ∧ Does (.yield pane st) s (onward x))

/-- LOAD and STORE of 8 bytes in the pane store (04_lintel_cores_and_vector_engine.md, R151). With an address in space 0, aligned to 8 bytes
and wholly inside the 4 MiB pane store, LOAD writes the little-endian 8 bytes to its destination (s0 discards them) and changes no memory;
STORE writes the 8 bytes of its source at that address, changes no other byte, and changes no scalar register. Outside the store they
raise LOAD_RANGE and STORE_RANGE, misaligned MISALIGNED: the stream goes to FAULT and PNE_EXC.CODE holds the code. -/
def Obligations.LintelLoadStore : Prop :=
  ∀ (s : State) (pane : PaneId) (st : StreamId) (w : InsnWord), Retires s.m pane st.num 4 .mem 11 w →
    let x := s.m.stream pane st.num
    let a := x.areg (inMemA w)
    let o : Int := (adOffset a : Int) + inMemOff w
    let good := adSpace a = 0 ∧ 0 ≤ o ∧ o + 8 ≤ 2 ^ 22
    let key := paneKey pane o.toNat
    (good → o % 8 = 0 →
      Does (.load pane st) s (fun t =>
        t.m.stream pane st.num = x.setS (inRd w) (BitVec.ofNat 64 (s.m.loadLe key 8)) ∧ t.m.pc pane st.num = (s.m.pc pane st.num + 1) % 2 ^ 14 ∧
        StreamFrame pane st.num s t) ∧
      Does (.store pane st) s (fun t =>
        t.m.load key 8 = leBytes 8 (x.sreg (inRd w)).toNat ∧ MemKeptBut key 8 s t ∧ (∀ q : Nat, t.m.pane q = s.m.pane q) ∧ OuterKept s t ∧
        t.m.pc pane st.num = (s.m.pc pane st.num + 1) % 2 ^ 14)) ∧
    (¬ good →
      Does (.load pane st) s (fun t => t.m.sstate pane st.num = ssFault ∧ t.m.fld R.PNE_EXC_CODE [pane] = cLoadRange ∧ MemKept s t) ∧
      Does (.store pane st) s (fun t => t.m.sstate pane st.num = ssFault ∧ t.m.fld R.PNE_EXC_CODE [pane] = cStoreRange ∧ MemKept s t)) ∧
    (good → o % 8 ≠ 0 →
      Does (.load pane st) s (fun t => t.m.sstate pane st.num = ssFault ∧ t.m.fld R.PNE_EXC_CODE [pane] = cMisaligned ∧ MemKept s t) ∧
      Does (.store pane st) s (fun t => t.m.sstate pane st.num = ssFault ∧ t.m.fld R.PNE_EXC_CODE [pane] = cMisaligned ∧ MemKept s t))

/-- BRANCH, CALL, RETURN and HALT (04_lintel_cores_and_vector_engine.md, R149, R155). A taken branch sets the PC to its own index plus its
offset, modulo 2^14; CALL does the same and keeps the index after it; RETURN goes to the index that the matching CALL kept; HALT puts the
stream in IDLE and leaves the PC. None changes a scalar, address or predicate register, or memory. That the return address is kept by the
stream itself is the model's choice (log entry 7). -/
def Obligations.LintelControlFlow : Prop :=
  ∀ (s : State) (pane : PaneId) (st : StreamId) (w : InsnWord),
    let n := st.num
    let x := s.m.stream pane n
    let to_ (pc : Nat) (calls : List Nat) (t : State) : Prop :=
      t.m.pc pane n = pc % 2 ^ 14 ∧ t.m.stream pane n = { x with calls := calls } ∧ t.m.sstate pane n = ssRun ∧ StreamFrame pane n s t
    (Retires s.m pane n 5 .br 8 w →
      Does (.branch pane st) s (to_ (branchTarget (s.m.pc pane n) w) x.calls) ∧
      Does (.call pane st) s (to_ (branchTarget (s.m.pc pane n) w) ((s.m.pc pane n + 1) % 2 ^ 14 :: x.calls)) ∧
      ∀ r l, x.calls = r :: l → Does (.ret pane st) s (to_ r l)) ∧
    (Retires s.m pane n 7 .ri 6 w →
      Does (.halt pane st) s (fun t => t.m.sstate pane n = ssIdle ∧ t.m.pc pane n = s.m.pc pane n ∧ StreamFrame pane n s t ∧ t.m.stream pane n = x))

/-- WAITT, SIGT, CLRT, FENCE and the end of a wait (04_lintel_cores_and_vector_engine.md, R152, R155, R164). WAITT on a token 0 to 63 with a
count takes one and goes on; on a token at 0 the stream waits with WAIT_ON = 1. SIGT adds one up to 255, CLRT clears count and poison. FENCE
goes on once the stream has no command outstanding and waits with WAIT_ON = 5 before. A stream that waits on a token which has since been
signalled, and is not poisoned, runs on: the token loses one and the PC moves; on a poisoned one it goes to FAULT with DEP_FAILED. That a
token number above 63 raises ILLEGAL_INSN is the model's choice (log entry 62). -/
def Obligations.LintelTokensAndFence : Prop :=
  ∀ (s : State) (pane : PaneId) (st : StreamId) (w : InsnWord),
    let n := st.num
    let k := (s.m.pane pane).token (inToken w)
    let on (k' : Tok) (t : State) : Prop :=
      (t.m.pane pane).token (inToken w) = k' ∧ (∀ j, j ≠ inToken w → (t.m.pane pane).token j = (s.m.pane pane).token j) ∧
      t.m.pc pane n = (s.m.pc pane n + 1) % 2 ^ 14 ∧ t.m.sstate pane n = ssRun ∧ t.m.stream pane n = s.m.stream pane n ∧ MemKept s t
    let waits (on tok : Nat) (t : State) : Prop :=
      t.m.sstate pane n = ssWait ∧ t.m.fld R.PNE_STREAM_WAIT_ON [pane, n] = on ∧ t.m.fld R.PNE_STREAM_TOKEN [pane, n] = tok ∧
      t.m.pc pane n = s.m.pc pane n ∧ t.m.pane pane = (s.m.pane pane).setStream n { s.m.stream pane n with since := s.m.now } ∧ MemKept s t
    let faults (code : Nat) (t : State) : Prop := t.m.sstate pane n = ssFault ∧ t.m.fld R.PNE_EXC_CODE [pane] = code ∧ MemKept s t ∧
      ∀ j, (t.m.pane pane).token j = (s.m.pane pane).token j
    (Retires s.m pane n 6 .ri 9 w →
      (inToken w ≤ 63 →
        (k.count ≠ 0 → Does (.waitt pane st) s (on { k with count := k.count - 1 })) ∧
        (k.count = 0 → Does (.waitt pane st) s (waits 1 (inToken w))) ∧
        Does (.sigt pane st) s (on { k with count := min 255 (k.count + 1) }) ∧ Does (.clrt pane st) s (on ⟨0, false⟩)) ∧
      (63 < inToken w → ∀ c ∈ [Instr.waitt pane st, .sigt pane st, .clrt pane st], Does c s (faults cIllegal))) ∧
    (Retires s.m pane n 6 .ri 10 w →
      (s.m.outstanding pane n = false → Does (.fence pane st) s (fun t => t.m.pc pane n = (s.m.pc pane n + 1) % 2 ^ 14 ∧ t.m.sstate pane n = ssRun ∧
        t.m.pane pane = s.m.pane pane ∧ MemKept s t)) ∧
      (s.m.outstanding pane n = true → Does (.fence pane st) s (waits 5 0))) ∧
    (s.m.sstate pane n = ssWait → s.m.mayIssue pane = true → s.m.insnBlocks pane n 10 = false → s.m.insnAt pane n = some w →
      s.m.fld R.PNE_STREAM_WAIT_ON [pane, n] = 1 → inToken w ≤ 63 →
      (k.poison = false → k.count ≠ 0 → Does (.streamWaitCleared pane st) s (on { k with count := k.count - 1 })) ∧
      (k.poison = true → Does (.streamWaitCleared pane st) s (faults cDepFailed)))

/-- CMD, TRAP, an illegal instruction and a launch (04_lintel_cores_and_vector_engine.md, R145, R152, R155, R158, R161, R162, R166, R167). CMD with
its descriptor inside the pane store, room in the queue of its KIND and no other stream of the pane nor a hatch ahead of it for that place appends the
command, with STREAM and SEAL set by the module, and moves on; at a full queue the stream waits, with the queue in WAIT_ON. TRAP and an illegal instruction put the stream in FAULT with the code, the stream and its valid bit in PNE_EXC; TRAP also leaves
its immediate there. A launch whose pane may start work and whose stream is IDLE sets RUN, the PC of the descriptor and s1, s2. -/
def Obligations.LintelCommandAndTrap : Prop :=
  ∀ (s : State) (pane : PaneId) (st : StreamId) (w : InsnWord),
    let n := st.num
    let x := s.m.stream pane n
    (∀ (o : Nat) (e : EngineId), Retires s.m pane n 6 .c 1 w → memAddr cLoadRange (x.areg (inCmdA w)) (inCmdImm w * 64) = .ok o → o + 64 ≤ 2 ^ 22 →
      let issued := s.m.fld R.PNE_STREAM_ISSUED [pane, n]
      let d := cmdDesc (Desc.ofBytes (s.m.load (paneKey pane o) 64)) x (inCmdRs w) n issued
      engineOf d.kind = some e →
      (((s.m.pane pane).queue e).length = queueSize e → Does (.cmd pane st) s (fun t => t.m.sstate pane n = ssWait ∧
        t.m.fld R.PNE_STREAM_WAIT_ON [pane, n] = 2 + e.num ∧ t.m.pc pane n = s.m.pc pane n ∧ (t.m.pane pane).queue e = (s.m.pane pane).queue e ∧ MemKept s t)) ∧
      (((s.m.pane pane).queue e).length < queueSize e → s.m.queueRival pane n e 0 = false → Does (.cmd pane st) s (fun t =>
        (t.m.pane pane).queue e = (s.m.pane pane).queue e ++ [QCmd.of d (.core n (s.m.pc pane n)) (s.m.paneOwner pane) x.areg] ∧
        t.m.pc pane n = (s.m.pc pane n + 1) % 2 ^ 14 ∧ t.m.fld R.PNE_STREAM_ISSUED [pane, n] = (issued + 1) % 2 ^ 32 ∧ MemKept s t))) ∧
    (Retires s.m pane n 7 .ri 7 w →
      Does (.trap pane st) s (fun t => t.m.sstate pane n = ssFault ∧ t.m.fld R.PNE_EXC_CODE [pane] = cTrap ∧ t.m.fld R.PNE_EXC_STREAM [pane] = n ∧
        bitAt (t.m.fld R.PNE_EXC_VALID [pane]) n = true ∧ t.m.fld R.PNE_EXC_INFO [pane] = wrapInt 24 (inImm w) ∧ MemKept s t)) ∧
    (s.m.sstate pane n = ssRun → s.m.mayIssue pane = true → s.m.insnBlocks pane n 7 = false →
      Does (.illegalInsn pane st) s (fun t => t.m.sstate pane n = ssFault ∧ t.m.fld R.PNE_EXC_CODE [pane] = cIllegal ∧
        t.m.fld R.PNE_EXC_STREAM [pane] = n ∧ MemKept s t)) ∧
    (∀ l : Launch, s.m.part.launches.find? (fun l => l.left.contains pane.val && l.desc.stream == n && s.m.mayStart l.part pane) = some l →
      s.m.sstate pane n = ssIdle →
      Does (.launch pane st) s (fun t => t.m.sstate pane n = ssRun ∧ t.m.pc pane n = bits l.desc.w5.toNat 63 48 % 2 ^ 14 ∧
        (t.m.stream pane n).sreg 1 = BitVec.ofNat 64 l.desc.step ∧ (t.m.stream pane n).sreg 2 = BitVec.ofNat 64 (l.desc.layer * 2 ^ 16 + l.desc.opId)))

/-- An instruction whose guard is false retires without effect (04_lintel_cores_and_vector_engine.md, R148). Whatever the instruction, if the
test of its pred field fails (bit 3 inverts the test of the predicate register that bits 2:0 name; p0 with bit 3 set always fails), then it
only moves the PC on: no register of any stream, token, queue or byte of memory changes. That it takes one cycle is timing, which the model
leaves out. -/
def Obligations.LintelFalseGuardHasNoEffect : Prop :=
  ∀ (s : State) (pane : PaneId) (st : StreamId) (w : InsnWord) (cls ty : Nat) (f : InsnFmt) (c : Instr)
    (io : IntOp) (fo : FpOp) (ao : AddrOp) (po : PredOp) (imm : Bool),
    let x := s.m.stream pane st.num
    (c, cls, f, ty) ∈ ([(.scalarInteger pane st io imm, 0, fmtOfImm imm, 11), (.scalarFp32 pane st fo, 1, .rr, 11),
      (.address pane st ao imm, 2, fmtOfImm imm, 11), (.predicate pane st po imm, 3, fmtOfImm imm, 11), (.load pane st, 4, .mem, 11),
      (.store pane st, 4, .mem, 11), (.branch pane st, 5, .br, 8), (.call pane st, 5, .br, 8), (.ret pane st, 5, .br, 8),
      (.cmd pane st, 6, .c, 1), (.waitt pane st, 6, .ri, 9), (.sigt pane st, 6, .ri, 9), (.clrt pane st, 6, .ri, 9), (.fence pane st, 6, .ri, 10),
      (.halt pane st, 7, .ri, 6), (.yield pane st, 7, .ri, 11), (.trap pane st, 7, .ri, 7), (.readGrt pane st, 7, .ri, 11)] :
        List (Instr × Nat × InsnFmt × Nat)) →
    s.m.sstate pane st.num = ssRun → s.m.mayIssue pane = true → s.m.insnBlocks pane st.num ty = false → s.m.insnAt pane st.num = some w →
    inClass w = cls → (x.preg (inPred f w % 8) = bitAt (inPred f w) 3 ∨ inPred f w = 8) →
    Does c s (fun t => t.m.pc pane st.num = (s.m.pc pane st.num + 1) % 2 ^ 14 ∧ t.m.stream pane st.num = x ∧ StreamFrame pane st.num s t)

/-- MATRIX, MATRIX_DRAIN, SPLITK_REDUCTION (03_matrix_and_accumulation.md, R101, R104, R116 to R118, R123 to R126,
04_lintel_cores_and_vector_engine.md, R163 to R166). A matrix command at the head of its queue that may start and passes its checks leaves the
queue, consumes its WAIT token and occupies an accumulator bank, behind the command whose drain is due; without an addend its results are
the drained sums of the products of its operands' rows. One that fails a check leaves the engine as it was and poisons its SIGNAL token. At
the drain the older command in flight leaves its bank: an unsplit one that needs no common maximum writes its result and its SIGNAL token
counts (a plain FP32 result for a pane store: the bytes stand at its destination and no others change); one that needs the maximum
waits for it; a slice adds its bit to ARRIVED of its slot and waits there. A split-K tile with every partial is reduced: its header reads
COMPLETE, its slice ends and its token counts. The reduction is stated for a tile of one waiting slice, an FP32 result in a pane store and
no tensor watch. How the operands lie in memory is the model's choice (log entry 65). Stated for a pane that its command's partition owns, for a token
with room for what has begun to write (log entry 75), and while no direction that the command's memory crosses is under its wire test. -/
def Obligations.MatrixCommandsStartAndDrain : Prop :=
  ∀ (s : State) (pane : PaneId),
    let x := s.m.pane pane
    let counts (q : QCmd) (t : State) : Prop :=
      (t.m.pane pane).token q.desc.signal = { x.token q.desc.signal with count := (x.token q.desc.signal).count + 1 }
    (∀ (q : QCmd) (l : List QCmd), x.mq = q :: l → s.m.headOf pane .matrix = .starts q → s.m.cvtWaits q.part q.cvt q.desc.step = false →
      s.m.memTested pane q = false →
      let v := s.m.watchFrom q
      let u := (s.m.popHead pane .matrix true).traceStart pane v
      let w := q.desc.w5
      let k := 32 * mxCount w
      (∀ go, u.mxStart pane v = .ok go → ∀ a b, u.tensor q.part pane (q.a.getD 0) (mxA w) (mxRows w) k = .ok a →
        u.tensor q.part pane (q.b.getD 0) (mxB w) (mxCols w) k = .ok b → Does (.matrix pane) s (fun t =>
        (t.m.pane pane).mq = l ∧ (q.desc.wait ≤ 63 → q.resumed = false → (t.m.pane pane).token q.desc.wait =
          { x.token q.desc.wait with count := (x.token q.desc.wait).count - 1 }) ∧ (t.m.pane pane).mdrain = x.front ∧
        (∃ r, (t.m.pane pane).mrun = some r ∧ r.cmd = v ∧ r.drained = false ∧ r.vals.length = mxRows w * mxCols w ∧
          (mxAddend w = false → r.vals = (List.range (mxRows w * mxCols w)).map (fun e => toF32 (drainElement (a.coarse.mulExact b.coarse)
            (mxElement w q.seed e (nthRow a.vals k (e / mxCols w)) (nthRow b.vals k (e % mxCols w))).1 none).1))) ∧
        MemKept s t ∧ OuterKept s t ∧ ∀ o : Nat, o ≠ pane → t.m.pane o = s.m.pane o)) ∧
      (∀ code, u.mxStart pane v = .error code → code ≠ 0 → q.isSplit = false → q.desc.signal ≤ 63 → Does (.matrix pane) s (fun t =>
        (t.m.pane pane).mq = l ∧ (t.m.pane pane).mruns = x.mruns ∧ ((t.m.pane pane).token q.desc.signal).poison = true ∧ OuterKept s t))) ∧
    (∀ r : Run, x.front = some r → r.drained = false → s.m.core.stopped.contains pane.val = false → s.m.memTested pane r.cmd = false →
      (r.cmd.isSplit = false → r.needsMax = false → s.m.paneOwner pane = r.cmd.part → r.cmd.desc.signal ≤ 63 →
        (x.token r.cmd.desc.signal).count + x.owed r.cmd.desc.signal < 255 → Does (.matrixDrain pane) s (fun t => (t.m.pane pane).mruns = x.mruns.drop 1 ∧ counts r.cmd t ∧ OuterKept s t)) ∧
      (∀ (w : Word) (k : Nat), r.cmd.isSplit = false → r.cmd.desc.kind = 0 → r.cmd.cvt = 0 → r.needsMax = false → r.cmd.d = some w → adSpace w = 0 →
        r.vals2 = [] → r.poisoned = false → s.m.crecKey r.cmd.part r.cmd.desc.w5 = none →
        s.m.destSegs r.cmd.part pane w (s.m.runBytes r).1.length true = .ok ([(k, (s.m.runBytes r).1.length)], 0) →
        s.m.paneOwner pane = r.cmd.part → r.cmd.desc.signal ≤ 63 → (x.token r.cmd.desc.signal).count + x.owed r.cmd.desc.signal < 255 → Does (.matrixDrain pane) s (fun t =>
          t.m.load k (s.m.runBytes r).1.length = (s.m.runBytes r).1 ∧ counts r.cmd t ∧
          (∀ a, a < 2 ^ 72 → a < k ∨ k + (s.m.runBytes r).1.length ≤ a → readByte t.m.mem a = readByte s.m.mem a) ∧ OuterKept s t)) ∧
      (r.cmd.isSplit = false → r.needsMax = true → Does (.matrixDrain pane) s (fun t =>
        (t.m.pane pane).front = some { r with drained := true } ∧ MemKept s t ∧ RegsKept s t ∧ OuterKept s t ∧ ∀ o : Nat, o ≠ pane → t.m.pane o = s.m.pane o)) ∧
      (∀ k kp : Nat, r.cmd.isSplit = true →
        let q := r.cmd
        let mine := mxSlice q.desc.w5
        let arrived := s.m.loadLe (k + 8) 2
        s.m.slotKey q.part q.slotAddr 0 = some k → s.m.segs q.part none true (adPlus q.slotAddr (64 + 16384 * mine)) 16384 = some [(kp, 16384)] →
        kp + 16384 ≤ k ∨ k + 64 ≤ kp → r.vals.length = 4096 → s.m.loadLe (k + 10) 1 = 0 → s.m.crecKey q.part q.desc.w5 = none →
        (arrived ≠ 0 → s.m.loadLe k 4 = q.desc.step ∧ s.m.loadLe (k + 4) 1 = mxP q.desc.w5 ∧ s.m.loadLe (k + 16) 8 = putBits q.desc.w5.toNat 22 19 0 ∧ s.m.loadLe (k + 24) 8 = q.seed.toNat) →
        bitAt arrived mine = false → (arrived ||| 2 ^ mine) % 2 ^ mxP q.desc.w5 ≠ 2 ^ mxP q.desc.w5 - 1 → Does (.matrixDrain pane) s (fun t =>
          t.m.loadLe (k + 8) 2 = (arrived ||| 2 ^ mine) ∧ (t.m.pane pane).split = x.split ++ [{ r with drained := true }] ∧
          (t.m.pane pane).mruns = x.mruns.drop 1 ∧ OuterKept s t))) ∧
    (∀ (r : Run) (w : Word) (k : Nat), x.split = [r] → s.m.core.stopped.contains pane.val = false → mxSlice r.cmd.desc.w5 = 0 → r.cmd.isSplit = true →
      r.reduced = false → pane.val ∈ s.m.conf.cfg.panes r.cmd.part → (s.m.conf.cfg.panes r.cmd.part).Nodup →
      (∀ o ∈ s.m.conf.cfg.panes r.cmd.part, o ≠ pane.val → (s.m.pane o).split = []) →
      s.m.slotKey r.cmd.part r.cmd.slotAddr 0 = some k → k + 16 ≤ 2 ^ 73 → s.m.loadLe (k + 10) 1 = 0 →
      s.m.loadLe (k + 8) 2 % 2 ^ mxP r.cmd.desc.w5 = 2 ^ mxP r.cmd.desc.w5 - 1 → r.cmd.cvt = 0 → r.cmd.d = some w → adSpace w = 0 →
      s.m.destCheck pane r.cmd (mxRows r.cmd.desc.w5) ((dstFmt r.cmd.cvt).tensorBytes (mxRows r.cmd.desc.w5) (mxCols r.cmd.desc.w5)) = 0 →
      s.m.crecKey r.cmd.part r.cmd.desc.w5 = none →
      s.m.watchers r.cmd = [] → s.m.memTested pane r.cmd = false → s.m.paneOwner pane = r.cmd.part →
      r.cmd.desc.signal ≤ 63 → (x.token r.cmd.desc.signal).count + x.owed r.cmd.desc.signal < 255 →
      Does (.splitkReduction pane) s (fun t => t.m.loadLe (k + 10) 1 = 1 ∧ (t.m.pane pane).split = [] ∧ counts r.cmd t ∧ OuterKept s t))

/-- The K-group sum is exact inside its window and rounded once per join (03_matrix_and_accumulation.md, R105 to R107, R111 to R114, R124).
The group sum of products that are all finite and all within 30 binary places of the largest (and no exponent below -100,000, which no
FP32 product has) is their exact sum, with no truncation; a group of zero products is +0; a NaN product, or infinities of both signs, give
NaN. A native command with one K-group gives the exact group sum rounded once to FP32, and its drain multiplies by the product of the
coarse scales and rounds once more. -/
def Obligations.MatrixArithmetic : Prop :=
  (∀ ps : List Fp, (∀ x ∈ ps, x.finite = true ∧ -100000 ≤ x.expo) → (∀ x ∈ ps, ∀ y ∈ ps, x.isZero = false → y.isZero = false → y.expo - 30 ≤ x.expo) →
    let e := (ps.filter (fun x => !x.isZero)).foldl Fp.addExact .zero
    groupSum ps = (if e.isZero then .zero else e, 0)) ∧
  (∀ ps : List Fp, Fp.nan ∈ ps → (groupSum ps).1 = .nan) ∧
  (∀ ps : List Fp, Fp.inf true ∈ ps → Fp.inf false ∈ ps → (groupSum ps).1 = .nan) ∧
  (∀ (w seed : Word) (e : Nat) (a b : List Fp), mxMode w = 0 → mxSplit w = 0 → mxG w = 1 → mxShape w ≠ 1 → mxSround w = false →
    (mxElement w seed e a b).1 = round32 .nearest (Fp.addExact .zero (groupSum (((a.zip b).map (fun p => p.1.mulExact p.2)).take 32)).1)) ∧
  (∀ s acc : Fp, (drainElement s acc none).1 = round32 .nearest (acc.mulExact s))

/-- CURRENT_REDUCTION_DONE and DELAYED_CONVERSION_START (02_number_formats.md, R70, R71, R77, 03_matrix_and_accumulation.md, R96). When two
vector commands that are the only parts of one command, on different panes, wait for their common maximum, the reduction gives both the larger of their two
maxima, and changes no memory where their results do not go over a route. A command held for its scale record starts once the record has
rolled, exactly as its own row would start it; held still, nothing happens. Which contexts are
parts of one command is the model's choice (log entry 57). -/
def Obligations.ScaledConversionsGoOn : Prop :=
  ∀ s : State,
    (∀ (p q : PaneId) (a b : Run), p ≠ q → s.m.core.stopped.contains p.val = false → s.m.core.stopped.contains q.val = false →
      (s.m.pane p).vrun = some a → (s.m.pane q).vrun = some b → a.needsMax = true → b.needsMax = true → a.cmd.overRoute = false → b.cmd.overRoute = false →
      b.cmd.partOf a.cmd = true → s.m.partsLeft a [(p, .vector), (q, .vector)] = false → s.m.memTested p a.cmd = false → s.m.memTested q b.cmd = false →
      Does (.currentReductionDone [(p, .vector), (q, .vector)]) s (fun t =>
        (t.m.pane p).vrun = some { a with amax := some (toF32 (Fp.max (Fp.max .zero a.localMax) b.localMax)) } ∧
        (t.m.pane q).vrun = some { b with amax := some (toF32 (Fp.max (Fp.max .zero a.localMax) b.localMax)) } ∧
        MemKept s t ∧ OuterKept s t ∧ RegsKept s t ∧ ∀ o : Nat, o ≠ p → o ≠ q → t.m.pane o = s.m.pane o)) ∧
    (∀ (p : PaneId) (q : QCmd) (l : List QCmd) (e : EngineId), (s.m.pane p).queue e = q :: l → cvtScaled q.cvt = true → cvtScale q.cvt = 0 →
      (s.m.cvtWaits q.part q.cvt q.desc.step = true → Does (.delayedConversionStart p e) s (fun t => t = s)) ∧
      (s.m.cvtWaits q.part q.cvt q.desc.step = false →
        (e = .matrix → exec (.delayedConversionStart p e) s = exec (.matrix p) s) ∧
        (e = .vector → vxOp q.desc.w5 = 1 → exec (.delayedConversionStart p e) s = exec (.add p) s) ∧
        (e = .matrix → s.m.headOf p e = .starts q → s.m.memTested p q = false → ∀ v,
          ((s.m.popHead p e true).traceStart p (s.m.watchFrom q)).mxStart p (s.m.watchFrom q) = .ok v →
          Does (.delayedConversionStart p e) s (fun t => (t.m.pane p).mq = l ∧ ∃ r, (t.m.pane p).mrun = some r ∧ r.cmd = s.m.watchFrom q))))

/-- The 28 vector operations and VECTOR_COMPLETE (04_lintel_cores_and_vector_engine.md, R163 to R165, R168, R172, R173, R175). For each vector
operation, a command of its VOP at the head of the vector queue that may start and passes its checks leaves the queue, consumes its WAIT
token and occupies the engine; its FP32 results are the operation on its operands as decoded, with its parameter block and labels, its second
results likewise where C names a place for them, and the vector input queue keeps what the command did not consume. Memory is not yet
written and no other pane changes. A reserved VOP fails and poisons the SIGNAL token. When a command that waits for no maximum and has no
transfer in flight completes, whatever its destination, the engine is free and its SIGNAL token counts; of a plain FP32 result for a pane
store the bytes stand at the destination and no others change. Stated under the conditions of the matrix commands on pane, token and wire test. -/
def Obligations.VectorCommandsStartAndComplete : Prop :=
  ∀ (s : State) (pane : PaneId),
    let x := s.m.pane pane
    (∀ c ∈ ([(.add pane, 0x01), (.mul pane, 0x02), (.fma pane, 0x03), (.max pane, 0x04), (.min pane, 0x05), (.scale pane, 0x06), (.exp pane, 0x08),
        (.exp2 pane, 0x09), (.log pane, 0x0A), (.log2 pane, 0x0B), (.recip pane, 0x0C), (.rsqrt pane, 0x0D), (.sqrt pane, 0x0E), (.div pane, 0x0F),
        (.tanh pane, 0x10), (.sigmoid pane, 0x11), (.silu pane, 0x12), (.gelu pane, 0x13), (.rsum pane, 0x20), (.rmax pane, 0x21), (.rsumsq pane, 0x22),
        (.softmax pane, 0x28), (.logsumexp pane, 0x29), (.rmsnorm pane, 0x2A), (.layernorm pane, 0x2B), (.xent pane, 0x30), (.inv pane, 0x40),
        (.invroot pane, 0x41)] : List (Instr × Nat)),
      ∀ (q : QCmd) (l : List QCmd), x.vq = q :: l → s.m.headOf pane .vector = .starts q → s.m.cvtWaits q.part q.cvt q.desc.step = false → s.m.memTested pane q = false →
        let g := s.m.watchFrom q
        let u := (s.m.popHead pane .vector true).traceStart pane g
        let w := q.desc.w5
        (vxOp w = c.2 → ∀ v, u.vxStart pane g = .ok v → ∀ av bv cv blk lab left, VxOperands u pane q av bv cv blk lab left → Does c.1 s (fun t =>
          let o := vxCompute c.2 (vxRows w) (vxLen w) (vxParam w) av bv cv
            (labelsOf (if vxInv c.2 then vxRows w * vxLen w else vxRows w) lab) ((List.range 16).map (fun i => f32 (leAt blk (4 * i) 4)))
          (t.m.pane pane).vq = l ∧ (q.desc.wait ≤ 63 → q.resumed = false → (t.m.pane pane).token q.desc.wait =
            { x.token q.desc.wait with count := (x.token q.desc.wait).count - 1 }) ∧
          MemKept s t ∧ OuterKept s t ∧ (∀ p : Nat, p ≠ pane → t.m.pane p = s.m.pane p) ∧ (t.m.pane pane).vin = left ∧
          ∃ r, (t.m.pane pane).vrun = some r ∧ r.cmd = g ∧ r.vals = o.vals.map toF32 ∧
            r.vals2 = if q.c.isSome then o.second.map toF32 else [])) ∧
        (vxKnown (vxOp w) = false → q.isSplit = false → q.desc.signal ≤ 63 → Does c.1 s (fun t =>
          (t.m.pane pane).vq = l ∧ (t.m.pane pane).vrun = x.vrun ∧ ((t.m.pane pane).token q.desc.signal).poison = true ∧ OuterKept s t))) ∧
    (∀ r : Run, x.vrun = some r → r.needsMax = false → s.m.core.stopped.contains pane.val = false → s.m.hasXfers pane r.cmd = false →
      s.m.memTested pane r.cmd = false → s.m.paneOwner pane = r.cmd.part → r.cmd.desc.signal ≤ 63 →
      (x.token r.cmd.desc.signal).count + x.owed r.cmd.desc.signal < 255 →
      let counts (t : State) : Prop := (t.m.pane pane).vrun = none ∧ OuterKept s t ∧
        (t.m.pane pane).token r.cmd.desc.signal = { x.token r.cmd.desc.signal with count := (x.token r.cmd.desc.signal).count + 1 }
      Does (.vectorComplete pane) s counts ∧
      (∀ (w : Word) (k : Nat), r.cmd.desc.kind = 1 → r.cmd.cvt = 0 → r.cmd.d = some w → adSpace w = 0 → r.vals2 = [] → r.fallback = none →
        r.poisoned = false → s.m.destSegs r.cmd.part pane w (s.m.runBytes r).1.length true = .ok ([(k, (s.m.runBytes r).1.length)], 0) →
        Does (.vectorComplete pane) s (fun t => counts t ∧ t.m.load k (s.m.runBytes r).1.length = (s.m.runBytes r).1 ∧
          ∀ a, a < 2 ^ 72 → a < k ∨ k + (s.m.runBytes r).1.length ≤ a → readByte t.m.mem a = readByte s.m.mem a)))

/-- What the vector operations compute (04_lintel_cores_and_vector_engine.md, R169 to R171, R173, R176). The elementwise operations round each
result once; a row operation gives one value per row from that row alone; the softmax of a row with a NaN or +infinity is NaN throughout,
and of a row of minus infinities is +0; a row of XENT whose label is out of range, or absent, gives loss 0 and a gradient of zeros. -/
def Obligations.VectorArithmetic : Prop :=
  ∀ (rows len param : Nat) (a b c : List Fp) (lab : List Nat) (p : List Fp),
    (vxCompute 0x01 rows len param a b c lab p).vals = (a.zip b).map (fun x => round32 .nearest (x.1.addExact x.2)) ∧
    (vxCompute 0x02 rows len param a b c lab p).vals = (a.zip b).map (fun x => round32 .nearest (x.1.mulExact x.2)) ∧
    (vxCompute 0x03 rows len param a b c lab p).vals = ((a.zip b).zip c).map (fun x => round32 .nearest ((x.1.1.mulExact x.1.2).addExact x.2)) ∧
    (vxCompute 0x06 rows len param a b c lab p).vals =
      a.map (fun x => round32 .nearest ((x.mulExact (p.getD 0 .zero)).addExact (p.getD 1 .zero))) ∧
    ((vxCompute 0x20 rows len param a b c lab p).vals.length = rows ∧ (vxCompute 0x21 rows len param a b c lab p).vals.length = rows ∧
      (vxCompute 0x22 rows len param a b c lab p).vals.length = rows ∧ (vxCompute 0x29 rows len param a b c lab p).vals.length = rows) ∧
    (∀ i < rows, (vxCompute 0x20 rows len param a b c lab p).vals[i]? = some (rowSum ((a.drop (i * len)).take len))) ∧
    (∀ x : List Fp, (Fp.nan ∈ x ∨ Fp.inf false ∈ x) → ∀ y ∈ (softRow (rowBad x) x).1, y = .nan) ∧
    (∀ n, 0 < n → ∀ y ∈ (softRow false (List.replicate n (Fp.inf true))).1, y = .zero) ∧
    (∀ (x : List Fp) (label : Nat), x.length ≤ label → (xentRow x label).1 = .zero ∧ ∀ y ∈ (xentRow x label).2.1, y = .zero)

/-- COPY, COPY_COMPLETE, TRANSFER_DELIVERY, BRIDGE_CRC_MISMATCH and BRIDGE_WIRE_TEST_DONE (01_anatomy.md, R36, R38, R42,
04_lintel_cores_and_vector_engine.md, R161 to R165). A copy at the head of its queue that may start and passes its checks leaves the queue,
takes a place of its engine and has written nothing. When a copy with no transfer in flight completes, its place is free and its token
counts; a copy between two ranges of pane stores then has the source's bytes at its destination and no other byte of the pane stores changes.
A transfer delivered to a pane lands at its offset; if no further piece of its copy follows, it leaves its route and counts the route's
token there, and nothing else is written. Over a failed direction the transfers of the route are discarded and the copy that sent the one
there ends with its SIGNAL token poisoned. A CRC mismatch counts a retry; with four spent the direction is under its wire test; with
four spent again after a test that found no half, or at half width, the direction is failed. The end of the wire test notes the failed
wires, maps up to 64 onto spares, sets half width where only a half can still be completed, and places a CORRECTED BRIDGE record. Copies are stated under the
conditions of the matrix commands on pane, token and wire test. -/
def Obligations.CopiesAndTransfers : Prop :=
  ∀ (s : State) (pane : PaneId),
    let x := s.m.pane pane
    let counts (r : Run) (t : State) : Prop :=
      (t.m.pane pane).token r.cmd.desc.signal = { x.token r.cmd.desc.signal with count := (x.token r.cmd.desc.signal).count + 1 }
    (∀ (q : QCmd) (l : List QCmd) (hits : List LineErr), x.cq = q :: l → s.m.headOf pane .copy = .starts q →
      (s.m.pstate q.part = psActive ∨ s.m.pstate q.part = psDraining) → s.m.memTested pane q = false →
      ∀ g, ((s.m.popHead pane .copy true).traceStart pane q).copyPlan pane q = .ok g → let w := s.m.watchFrom q; (∀ h ∈ hits, g.reads h = false) → Does (.copy pane hits) s (fun t =>
        (t.m.pane pane).cq = l ∧ (∃ r, (t.m.pane pane).cruns = x.cruns ++ [r] ∧ { r.cmd with seen := w.seen } = w ∧ (s.m.watchers q = [] → r.cmd = w)) ∧ MemKept s t ∧ OuterKept s t ∧
        ∀ o : Nat, o ≠ pane → t.m.pane o = s.m.pane o)) ∧
    (∀ (i : Fin 4) (r : Run), x.cruns[i.val]? = some r → s.m.core.stopped.contains pane.val = false → s.m.running = true → s.m.hasXfers pane r.cmd = false →
      (r.cmd.onHost = true → s.m.portUp r.cmd.part = true) → s.m.memTested pane r.cmd = false → s.m.paneOwner pane = r.cmd.part → r.cmd.desc.signal ≤ 63 →
      (x.token r.cmd.desc.signal).count + x.owed r.cmd.desc.signal < 255 →
      Does (.copyComplete pane i) s (fun t => (t.m.pane pane).cruns = x.cruns.eraseIdx i ∧ counts r t ∧ OuterKept s t) ∧
      (∀ a d : Nat, r.cmd.routed = false → r.cmd.progress = 0 → r.cmd.onHost = false → (∀ w, r.cmd.d = some w → adSpace w = 0) →
        a + cpBytes r.cmd ≤ 2 ^ 72 → d + cpBytes r.cmd ≤ 2 ^ 72 → r.vals = [] →
        s.m.copyPlan pane r.cmd = .ok { src := [(a, cpBytes r.cmd)], dst := [(d, cpBytes r.cmd)], atop := 0, mode := 0 } →
        s.m.poisonedAt a (cpBytes r.cmd) = false → Does (.copyComplete pane i) s (fun t =>
          t.m.load d (cpBytes r.cmd) = s.m.load a (cpBytes r.cmd) ∧ counts r t ∧
          (∀ k, k < 2 ^ 72 → k < d ∨ d + cpBytes r.cmd ≤ k → readByte t.m.mem k = readByte s.m.mem k) ∧ OuterKept s t))) ∧
    (∀ (rt : RouteId) (e : List Byte) (y : Xfer) (rest : List Xfer), s.m.conf.cfg.route rt = some e → s.m.xfersOf rt = y :: rest → routeDst e = pane.val →
      s.m.running = true → s.m.core.failed.contains pane.val = false → s.m.core.stopped.contains pane.val = false → s.m.paneOwner pane = leAt e 3 1 →
      s.m.routeTested e = false →
      (s.m.routeDead e = false → s.m.tokenFull (leAt e 3 1) y = false → y.pane < 384 → y.more = false → y.poisoned = false → y.tags = [] →
        y.offset + y.bytes.length ≤ 2 ^ 22 → Does (.transferDelivery rt) s (fun t =>
        t.m.load (paneKey pane y.offset) y.bytes.length = y.bytes ∧ t.m.xfersOf rt = rest ∧ MemKeptBut (paneKey pane y.offset) y.bytes.length s t ∧
        (48 ≤ leAt e 9 1 → leAt e 9 1 ≤ 63 → (t.m.pane pane).token (leAt e 9 1) =
          { x.token (leAt e 9 1) with count := min 255 ((x.token (leAt e 9 1)).count + 1) }) ∧ OuterKept s t ∧ RegsKept s t)) ∧
      (∀ (o : PaneId) (r : Run), s.m.routeDead e = true → rest = [] → y.pane = o.val → s.m.paneOwner o = leAt e 3 1 → y.part = leAt e 3 1 → (s.m.pane o).vrun = none →
        (s.m.pane o).cq = [] → (s.m.pane o).cruns = [r] → y.ofCmd r.cmd = true → r.cmd.isPass = false → r.cmd.isSplit = false → r.cmd.desc.signal ≤ 63 →
        Does (.transferDelivery rt) s (fun t => t.m.xfersOf rt = [] ∧ (t.m.pane o).cruns = [] ∧ ((t.m.pane o).token r.cmd.desc.signal).poison = true ∧
          OuterKept s t))) ∧
    (∀ (rt : RouteId) (edge : EdgeId) (rev : Bool) (e : List Byte) (y : Xfer) (rest : List Xfer),
      let d := edge.val * 2 + b2n rev
      let key := rt.val * 32 + d
      s.m.conf.cfg.route rt = some e → s.m.xfersOf rt = y :: rest → s.m.running = true → d ∈ routeDirs e → s.m.core.testing.contains d = false → s.m.dirWidth d ≠ 2 →
      (Tbl.get 0 y.retries d < 4 → Does (.bridgeCrcMismatch rt edge rev) s (fun t =>
        t.m.xfersOf rt = { y with retries := Tbl.set 0 y.retries d (Tbl.get 0 y.retries d + 1) } :: rest ∧ MemKept s t ∧ RegsKept s t ∧ OuterKept s t)) ∧
      (4 ≤ Tbl.get 0 y.retries d → s.m.core.tested.contains (2 * key + 1) = false → (s.m.core.tested.contains (2 * key) = false ∨ s.m.dirWidth d ≠ 1) →
        Does (.bridgeCrcMismatch rt edge rev) s (fun t => d ∈ t.m.core.testing ∧ t.m.xfersOf rt = { y with retries := Tbl.set 0 y.retries d 0 } :: rest ∧
          MemKept s t ∧ RegsKept s t ∧ OuterKept s t)) ∧
      (4 ≤ Tbl.get 0 y.retries d → (s.m.core.tested.contains (2 * key + 1) = true ∨ (s.m.core.tested.contains (2 * key) = true ∧ s.m.dirWidth d = 1)) →
        Does (.bridgeCrcMismatch rt edge rev) s (fun t => t.m.dirWidth d = 2 ∧ OuterKept s t))) ∧
    (∀ (edge : EdgeId) (rev : Bool) (found : WireTest),
      let d := edge.val * 2 + b2n rev
      let bad := found.map (fun w => w.val)
      s.m.core.testing.contains d = true → Does (.bridgeWireTestDone edge rev found) s (fun t => MemKept s t ∧ OuterKept s t ∧
        Tbl.get [] t.m.core.badWires d = bad ∧ t.m.core.testing.contains d = false ∧ (wireWidth bad = 1 → t.m.dirWidth d = 1) ∧
        (wireWidth bad ≠ 1 → t.m.dirWidth d = s.m.dirWidth d) ∧ (∀ o, o < 28 → o ≠ d → t.m.dirWidth o = s.m.dirWidth o) ∧
        Logs (ErrRec.mk0 sevCorrected 0 ecBridge 0xFFFF edge.val 0) s t))

/-- LOAD, WRITE, ERASE, REVERT and their end (05_charts_and_configuration.md, R208, R210, R215 to R218, 16_identity_and_lifecycle.md, R622).
In DEPLOYED, with no chart command running and, for LOAD, the Shutter OPEN, each of the four commands sets BUSY and its OP; while one runs
another is discarded with CHART_BUSY, and in another life-cycle state its code is LC_DENIED. A LOAD that fails a check ends with that code and
leaves the configuration; one that passes them, with no partition live or with FORCE, ends with the chart's configuration running. WRITE ends
with the image and a commit record of the next generation in the bank that is not current, or with the code of a failed check and flash
unchanged; ERASE leaves neither image nor record; REVERT appends a commit record of the next generation to the other bank. Flash changes in
no other slot. -/
def Obligations.ChartCommands : Prop :=
  ∀ s : State,
    let begins (op : Nat) (t : State) : Prop := t.m.fld R.CFG_CHART_STATUS_BUSY [] = 1 ∧ t.m.fld R.CFG_CHART_STATUS_OP [] = op ∧ OuterKept s t ∧ MemKept s t ∧
      RegsKeptBut [R.CFG_CHART_STATUS_BUSY.addr []] s t ∧ t.m.conf.cfg = s.m.conf.cfg
    let ended (code : Nat) (t : State) : Prop := t.m.fld R.CFG_CHART_STATUS_BUSY [] = 0 ∧ t.m.fld R.CFG_CHART_STATUS_CODE [] = code % 256 ∧
      t.m.conf.chartOp = none ∧ t.ext = s.ext
    (s.m.running = true → ∀ (n : Fin 4) (f : Bool) (port : PortId),
      (s.m.fld R.CFG_CHART_STATUS_BUSY [] = 0 → s.m.fld R.SEC_LC_STATE [] = 2 → s.m.conf.chartOp = none →
        (s.m.fld R.SHT_STATUS_STATE [] = 0 → Does (.chartLoad n f) s (begins 1)) ∧ Does (.chartWrite n port) s (begins 2) ∧ Does (.chartErase n) s (begins 3) ∧
        Does (.chartRevert n) s (begins 4)) ∧
      (s.m.fld R.CFG_CHART_STATUS_BUSY [] = 1 → ∀ c ∈ [Instr.chartLoad n f, .chartWrite n port, .chartErase n, .chartRevert n],
        Does c s (fun t => t.m.fld R.CFG_CHART_STATUS_CODE [] = 0x30 ∧ OnlyRegs [R.CFG_CHART_STATUS_CODE.addr []] s t)) ∧
      (s.m.fld R.CFG_CHART_STATUS_BUSY [] = 0 → s.m.fld R.SEC_LC_STATE [] ≠ 2 → ∀ c ∈ [Instr.chartLoad n f, .chartWrite n port, .chartErase n, .chartRevert n],
        Does c s (fun t => ended 0x33 t ∧ t.nv = s.nv ∧ MemKept s t ∧ t.m.conf.cfg = s.m.conf.cfg))) ∧
    (∀ x : ChartOp, s.m.running = true → s.m.conf.chartOp = some x → x.chart < 4 →
      (x.op = 3 → Does (.chartCommandDone true true) s (fun t => ended 0 t ∧ MemKept s t ∧ t.m.fld R.CFG_CHART_PRESENT [x.chart] = 0 ∧ t.nv.current x.chart = none ∧
        ∀ c, c ≠ x.chart → ∀ b, t.nv.commitOf b c = s.nv.commitOf b c ∧ t.nv.imageOf b c = s.nv.imageOf b c)) ∧
      (x.op = 1 → ∀ bank, s.nv.current x.chart = some bank →
        (∀ e, s.m.loadCheck s.nv (s.nv.imageOf bank x.chart) (s.nv.commitOf bank x.chart) = some e → Does (.chartCommandDone true true) s (fun t =>
          ended e.1 t ∧ t.nv = s.nv ∧ t.m.conf.cfg = s.m.conf.cfg ∧ MemKept s t ∧ t.m.fld R.CFG_STATUS_LOAD_CODE [] = e.1 % 256)) ∧
        (s.m.loadCheck s.nv (s.nv.imageOf bank x.chart) (s.nv.commitOf bank x.chart) = none → s.m.fld R.SHT_STATUS_STATE [] = 0 →
          (s.m.allIdle = true ∨ x.force = true) → Does (.chartCommandDone true true) s (fun t => ended 0 t ∧ t.nv = s.nv ∧
            t.m.conf.cfg = imageCfg (s.nv.imageOf bank x.chart) ∧ t.m.fld R.PRT_STATUS_CHART [] = x.chart ∧ t.m.fld R.PRT_STATUS_CFG_NONE [] = 0 ∧
            t.m.fld R.PRT_STATUS_CFG_FALLBACK [] = 0 ∧ t.m.fld R.CFG_STATUS_LOAD_CODE [] = 0))) ∧
      (x.op = 2 → s.m.conf.chartImage.length ≤ slotMax →
        (∀ e, s.m.loadCheck s.nv s.m.conf.chartImage none = some e → Does (.chartCommandDone true true) s (fun t => ended e.1 t ∧ t.nv = s.nv ∧ MemKept s t)) ∧
        (s.m.loadCheck s.nv s.m.conf.chartImage none = none →
          let bank := match s.nv.current x.chart with | some c => 1 - c | none => 0
          Does (.chartCommandDone true true) s (fun t => ended 0 t ∧ MemKept s t ∧
            t.nv = s.nv.setSlot bank x.chart s.m.conf.chartImage [commitRecord x.chart bank (s.nv.currentGen x.chart + 1) s.m.conf.chartImage.length
              (imId s.m.conf.chartImage) (s.nv.imageDigest s.m.conf.chartImage)]))) ∧
      (x.op = 4 → ∀ cur r, s.nv.current x.chart = some cur → s.nv.commitOf (1 - cur) x.chart = some r →
        s.nv.ownerCheck (s.nv.imageOf (1 - cur) x.chart) (fun d => digestOf ((r.drop 26).take 32) != d) = rcOk →
        let recs := Tbl.get [] (s.nv.bank (1 - cur)).commits x.chart
        recs.length < 32 → Does (.chartCommandDone true true) s (fun t => ended 0 t ∧ MemKept s t ∧
          t.nv = s.nv.setSlot (1 - cur) x.chart (Tbl.get [] (s.nv.bank (1 - cur)).images x.chart) (recs ++
            [commitRecord x.chart (1 - cur) (s.nv.currentGen x.chart + 1) (leAt r 10 8) (leAt r 18 8) (digestOf ((r.drop 26).take 32))]))))

/-- The states of a configuration transaction (05_charts_and_configuration.md, R220, R221, R223 to R228, 12_partitions_and_slices.md, R485).
BEGIN opens an IDLE transaction with the epochs of its scope; WDATA holds a write that is in the image and in scope; DELTA_LEN starts a
fetch, whose end holds the delta or gives the code; COMMIT starts validation, which records the partitions affected, gives a code (with the
section and the entry of a failed check) and reopens, or ends in TXN_CONFLICT; application, once every affected partition is held and quiet
and no transaction of an earlier COMMIT waits for one of them, makes the changed configuration the running one in one tick, advances EPOCH and every PEPOCH
of its scopes and ends OK; a hold beyond its limit reopens with TXN_TIMEOUT and releases; ABORT discards. BEGIN otherwise, and WDATA,
COMMIT and ABORT of an IDLE one, give TXN_STATE and change nothing else. -/
def Obligations.TransactionStates : Prop :=
  ∀ (s : State) (o : OwnerId), s.m.accepts = true →
    let st := s.m.fld R.CFG_TXN_STATUS_STATE [o]
    let reg := R.CFG_TXN_STATUS_STATE.addr [o]
    let is (state code : Nat) (t : State) : Prop := t.m.fld R.CFG_TXN_STATUS_STATE [o] = state ∧ t.m.fld R.CFG_TXN_STATUS_RESULT [o] = code
    let frame (t : State) : Prop := OuterKept s t ∧ MemKept s t ∧ RegsKeptBut [reg] s t ∧ t.m.conf.cfg = s.m.conf.cfg ∧ ∀ q : Nat, q ≠ o → t.m.txn q = s.m.txn q
    let fails (e : ImgFail) (t : State) : Prop := OuterKept s t ∧ MemKept s t ∧ t.m.conf.cfg = s.m.conf.cfg ∧ (∀ q : Nat, q ≠ o → t.m.txn q = s.m.txn q) ∧
      RegsKeptBut [reg, R.CFG_STATUS_FAIL_SECTION.addr []] s t ∧
      (e.1 ≤ rcCode → t.m.fld R.CFG_STATUS_FAIL_SECTION [] = e.2.1 % 2 ^ 16 ∧ t.m.fld R.CFG_STATUS_FAIL_ENTRY [] = e.2.2 % 2 ^ 24)
    (st = 0 → Does (.txnBegin o) s (fun t => is 1 0 t ∧ frame t ∧ (t.m.txn o).writes = [] ∧ (t.m.txn o).delta = none ∧ (t.m.txn o).epochs = s.m.pepochs o)) ∧
    (st ≠ 0 → Does (.txnBegin o) s (fun t => is st 0x20 t ∧ OnlyRegs [reg] s t)) ∧
    (st = 0 → ∀ (v : Word) (n : BitVec 20), ∀ c ∈ [Instr.txnWdata o v, .txnCommit o n, .txnAbort o], Does c s (fun t => is 0 0x20 t ∧ OnlyRegs [reg] s t)) ∧
    (st = 1 → (s.m.txn o).delta = none → ∀ v : Word,
      let a := BitVec.ofNat 64 (s.m.fld R.CFG_TXN_WADDR_SETTING [o])
      (s.m.conf.cfg.settingOk a = false → Does (.txnWdata o v) s (fun t => is 1 0x29 t ∧ OnlyRegs [reg] s t)) ∧
      (s.m.conf.cfg.settingOk a = true → s.m.conf.cfg.allInScope (s.m.conf.cfg.applyWrite (a, v)) o [(saType a, saIndex a)] = true →
        (∀ w ∈ (s.m.txn o).writes, w.1 ≠ a) → (s.m.txn o).writes.length < 4096 → Does (.txnWdata o v) s (fun t => is 1 0 t ∧ frame t ∧
          (t.m.txn o).writes = (s.m.txn o).writes ++ [(a, v)] ∧ t.m.fld R.CFG_TXN_STATUS_WRITES [o] = (s.m.txn o).writes.length + 1))) ∧
    (st = 1 → s.m.fld R.SEC_LC_STATE [] = 2 → ∀ (port : PortId) (len : BitVec 25),
      (len.toNat ≠ 0 → len.toNat % 64 = 0 → len.toNat ≤ 2 ^ 24 →
        ((s.m.txn o).writes = [] → Does (.txnDeltaLen o port len) s (fun t => t.m.fld R.CFG_TXN_STATUS_STATE [o] = 2 ∧
          t.m.fld R.CFG_TXN_STATUS_DELTA [o] = 0 ∧ frame t ∧ (t.m.txn o).fetchLen = len.toNat ∧ (t.m.txn o).port = port)) ∧
        ((s.m.txn o).writes ≠ [] → Does (.txnDeltaLen o port len) s (fun t => is 1 0x23 t ∧ OnlyRegs [reg] s t))) ∧
      (len.toNat = 0 ∨ len.toNat % 64 ≠ 0 ∨ 2 ^ 24 < len.toNat → Does (.txnDeltaLen o port len) s (fun t => is 1 3 t ∧ OnlyRegs [reg] s t))) ∧
    (st = 2 → s.m.poisonedAt (s.m.deltaKey o) (s.m.txn o).fetchLen = false → (o.val = 0 ∨ s.m.portUp o = true) →
      (∀ d, s.m.deltaCheck s.nv o (s.m.load (s.m.deltaKey o) (s.m.txn o).fetchLen) = .ok d → Does (.deltaVerifyDone o true) s (fun t => is 1 0 t ∧ frame t ∧
        (t.m.txn o).delta = some d ∧ t.m.fld R.CFG_TXN_STATUS_DELTA [o] = 1)) ∧
      (∀ e, s.m.deltaCheck s.nv o (s.m.load (s.m.deltaKey o) (s.m.txn o).fetchLen) = .error e → Does (.deltaVerifyDone o true) s (fun t => is 1 (e.1 % 256) t ∧
        fails e t ∧ (t.m.txn o).delta = none ∧ t.m.fld R.CFG_TXN_STATUS_DELTA [o] = 0))) ∧
    (st = 2 → Does (.deltaVerifyDone o false) s (fun t => is 1 0x32 t ∧ frame t)) ∧
    (st = 1 → ∀ n : BitVec 20, Does (.txnCommit o n) s (fun t => t.m.fld R.CFG_TXN_STATUS_STATE [o] = 3 ∧ frame t ∧ (t.m.txn o).commitAt = s.m.now ∧
      (t.m.txn o).limit = (if n = 0 then 10000 else n.toNat) * 1000)) ∧
    (st ≠ 0 → Does (.txnAbort o) s (fun t => is 0 0 t ∧ frame t ∧ t.m.txn o = Txn.init ∧ ∀ p : Nat, (p, o.val) ∉ t.m.part.holds)) ∧
    (st = 3 → (s.m.txn o).valid = false →
      (s.m.txConflict o = true → Does (.txnValidationDone o) s (fun t => is 0 0x25 t ∧ frame t ∧ t.m.txn o = Txn.init)) ∧
      (s.m.txConflict o = false → (∀ e, s.m.txValidate o = .error e → Does (.txnValidationDone o) s (fun t => is 1 (e.1 % 256) t ∧ fails e t)) ∧
        ∀ l, s.m.txValidate o = .ok l → Does (.txnValidationDone o) s (fun t => (t.m.txn o).valid = true ∧ (t.m.txn o).affected = l ∧ frame t))) ∧
    (st = 3 → (s.m.txn o).valid = true → s.m.fld R.SHT_STATUS_STATE [] = 0 → s.m.fld R.CFG_TXN_STATUS_HOLDING [o] = 1 → (s.m.txn o).holdAt + (s.m.txn o).limit < s.m.now →
      Does (.txnHoldTimeout o) s (fun t => is 1 0x26 t ∧ frame t ∧ t.m.fld R.CFG_TXN_STATUS_HOLDING [o] = 0 ∧ (t.m.txn o).writes = (s.m.txn o).writes ∧
        ∀ p : Nat, (p, o.val) ∉ t.m.part.holds)) ∧
    (st = 3 → (s.m.txn o).valid = true → s.m.fld R.SHT_STATUS_STATE [] = 0 →
      let u := (List.range 33).foldl (fun m q => if m.txState q = txCommitting ∧ (m.txn q).valid then m.txReach q else m) s.m
      (∀ x ∈ s.m.fix.panes, x.1 ∉ (s.m.txn o).affected) → u.txReady o = true →
      (∀ q : Nat, q < 33 → q ≠ o → u.txReady q = true → (u.txn o).commitAt < (u.txn q).commitAt ∨ ∀ p ∈ (u.txn q).affected, p ∉ (u.txn o).affected) →
      u.txConflict o = false → ∀ r, u.txTarget o = .ok r →
        Does (.txnApply o) s (fun t => is 0 0 t ∧ t.m.conf.cfg = r.1 ∧ t.m.fld R.CFG_RUN_EPOCH [] = (s.m.fld R.CFG_RUN_EPOCH [] + 1) % 2 ^ 40 ∧
          (∀ p ∈ s.m.conf.cfg.scopes r.1 r.2, p ≤ 32 → t.m.fld R.CFG_PEPOCH_EPOCH [p] = (s.m.fld R.CFG_PEPOCH_EPOCH [p] + 1) % 2 ^ 32) ∧
          t.m.fld R.CFG_RUN_MODIFIED [] = 1 ∧ t.m.fld R.CFG_TXN_APPLIED_TIME [o] = s.m.now % 2 ^ 64 ∧ OuterKept s t ∧ ∀ p : Nat, (p, o.val) ∉ t.m.part.holds))

/-- An access of the provider's BAR0 where no register lies (R50). Once the module is READY, an access by a PF to an offset of its BAR0 that
no register occupies is counted in PRT_HOSTERR.UNMAPPED with the offset in LAST_OFFSET and, if none was placed for that PF in the last
second, placed as a CORRECTED record; a read answers 0, a write is discarded: no other register but those of the error log and of trace
changes, and no memory. The same for a register write and an RC read at such an offset. -/
def Obligations.UnoccupiedOffsetReadsZero : Prop :=
  ∀ (s : State) (port : PortId) (off : Nat), s.m.hostUp = true → pfSpot (off - off % 8) = .none →
    let counted (t : State) : Prop :=
      t.m.fld R.PRT_HOSTERR_UNMAPPED [port] = min (s.m.fld R.PRT_HOSTERR_UNMAPPED [port] + 1) 65535 ∧
      t.m.fld R.PRT_HOSTERR_LAST_OFFSET [port] = off % 2 ^ 32 ∧ t.m.fld R.PRT_HOSTERR_BADACCESS [port] = s.m.fld R.PRT_HOSTERR_BADACCESS [port] ∧
      (s.m.errs.rates.find? (fun x => x.key == (2 ^ 50 + port.val * 64 : Nat)) = none →
        t.m.fld R.ERR_LSTAT_MAX_SEV [] = max (s.m.fld R.ERR_LSTAT_MAX_SEV []) sevCorrected % 8) ∧
      (∀ a, a ≠ R.PRT_HOSTERR_UNMAPPED.addr [port] → a < 0xF00000 ∨ (0x1000000 ≤ a ∧ a < 0x1100000) ∨ 0x1200000 ≤ a →
        Regs.word t.m.regs a = Regs.word s.m.regs a) ∧ MemKept s t ∧ OuterKept s t
    Does (.unoccupiedOffsetAccess port 0 off true) s counted ∧
    Does (.unoccupiedOffsetAccess port 0 off false) s (fun t => counted t ∧ t.m.out.getLast? = some (.readData port 0 off 0)) ∧
    (∀ data, off < bar4 → inContract off 8 = true → Does (.registerWrite port 0 off 8 data) s counted) ∧
    (off < bar4 → inContract off 8 = true → Does (.rcRead port 0 off 8) s (fun t => counted t ∧ t.m.out.getLast? = some (.readData port 0 off 0)))

/-- A write of a register with no command in it (00_scope.md, R12 to R15, 05_charts_and_configuration.md, R214, 15_faults_and_continuity.md,
R570). An aligned 8-byte or 4-byte write by a PF to a register of its BAR0 that holds no WO field and no field with an action of its own,
whose block takes writes and whose RW fields accept it, sets each RW field to the data, clears each W1C field where the data hold 1
unless the present tick set it (R15), leaves every other bit, and changes nothing else (a write of HTC_CRCFG where no
record is held for the ring); a 4-byte write leaves the half it does not address. In FATAL every write of a register
within the contract is discarded. -/
def Obligations.RegisterWritesFollowTheAccessType : Prop :=
  ∀ (s : State) (port : PortId) (a off width data : Nat) (r : RegArr), s.m.hostUp = true →
    ((off, width) = (a, 8) ∨ (off, width) = (a, 4) ∨ (off, width) = (a + 4, 4)) → a % 8 = 0 → pfSpot a = .reg a → regAt a = some r →
    (s.m.takes (.reg a) = true → (∀ f ∈ r.fields, f.acc ≠ .wo ∧ ownAction r f.lo = false) →
      r.base ∉ [R.PRT_PWRCAP_CAP_W.base, R.GZT_PQUOTA_ENTRY_BASE.base, R.GZT_PKV_BASE.base, R.GZT_PPLIST_BASE.base, R.GZT_ATLAS_DESC_WORD.base] →
      (r.base = R.HTC_CRCFG_PAGES.base → ∀ p h : Nat, (s.m.hatch p h).holding = []) →
      let w := mergedWord (Regs.word s.m.regs a) off width (BitVec.ofNat 64 data)
      (∀ f ∈ r.fields, f.acc = .rw → s.m.gate false a r ((r.at a).getD []) f.lo w = true) →
      Does (.registerWrite port 0 off width data) s (fun t => OnlyRegs [a] s t ∧
        (∀ f ∈ r.fields, f.acc = .rw → wordField (Regs.word t.m.regs a) f.hi f.lo = wordField w f.hi f.lo) ∧
        (∀ f ∈ r.fields, f.acc = .w1c → width = 8 →
          let v := wordField (Regs.word s.m.regs a) f.hi f.lo
          let hit := v &&& wordField (BitVec.ofNat 64 data) f.hi f.lo
          wordField (Regs.word t.m.regs a) f.hi f.lo = v - hit + (hit &&& Tbl.get 0 s.m.moved (a * 64 + f.lo))) ∧
        (∀ f ∈ r.fields, f.acc = .ro ∨ f.acc = .rc → wordField (Regs.word t.m.regs a) f.hi f.lo = wordField (Regs.word s.m.regs a) f.hi f.lo) ∧
        (width = 4 → off = a → wordField (Regs.word t.m.regs a) 63 32 = wordField (Regs.word s.m.regs a) 63 32) ∧
        (off = a + 4 → wordField (Regs.word t.m.regs a) 31 0 = wordField (Regs.word s.m.regs a) 31 0))) ∧
    (s.m.fld R.ERR_MSTATE_STATE [] = 1 → Does (.registerWrite port 0 off width data) s (fun t => t = s))

/-- A write of a command register is the command of its row (00_scope.md, R14, 05_charts_and_configuration.md, R216,
06_soft_target_conduit.md, R277, 07_student_training.md, R288, 10_meridian_links.md, R424, 12_partitions_and_slices.md, R485,
13_counters_trace_and_time.md, R524, 14_shutter_and_scanout.md, R538, 16_identity_and_lifecycle.md, R618). An 8-byte write by a PF of an
operation to a command register whose block takes writes is the command that the operation names, on a state that differs from this one in
no register's value: shown for one operation of each block of commands. -/
def Obligations.CommandRegistersActAsTheirRows : Prop :=
  ∀ (s : State) (port : PortId) (n : Nat), s.m.hostUp = true →
    ∀ x ∈ ([(R.CFG_CHART_CMD_OP, [], 3 * 2 ^ 60 + 2 * 2 ^ 58, .chartErase 2), (R.PTN_PCMD_OP, [n % 32 + 1], 2 * 2 ^ 60, .pause (Fin.ofNat 32 n)),
        (R.LVR_CCMD_OP, [n % 64], 2 ^ 60, .conduitOpen (Fin.ofNat 64 n)), (R.MRD_LCMD_OP, [n % 10], 2 ^ 60, .linkEnable (Fin.ofNat 10 n)),
        (R.COL_TCMD_OP, [n % 32 + 1], 2 * 2 ^ 60, .trainingStop (Fin.ofNat 32 n)), (R.SRV_TCMD_OP, [n % 33], 2 ^ 60, .traceArm (Fin.ofNat 33 n)),
        (R.SHT_CMD_OP, [], 3 * 2 ^ 60, .abortScan), (R.SEC_CMD_OP, [], 2 ^ 60, .newNonce), (R.PRT_MARGIN_CMD_OP, [], 3 * 2 ^ 60, .marginAbort)] :
        List (Fld × List Nat × Nat × Instr)),
      s.m.takes (.reg (x.1.addr x.2.1)) = true →
      ∃ u : State, OnlyRegs [] s u ∧ exec (.registerWrite port 0 (x.1.addr x.2.1) 8 x.2.2.1) s = exec x.2.2.2 u

/-- A register read returns the fields and clears the RC fields it wholly covers (00_scope.md, R12 to R14, R16, R17). A read by a PF of a
register that answers returns, for each field that is not WO, its value before the read, WO and reserved bits as 0; an RC counter is returned
without the increments of the present tick, which stay for the next read. An RC field that the access wholly covers loses what was returned
(MAX_TEMP starts again from TEMP, R382, R639; a counter at its
largest value keeps every increment of the tick), one that lies in both halves survives a 4-byte read, and nothing else changes but the answer
that leaves the module. -/
def Obligations.ReadsThatClear : Prop :=
  ∀ (s : State) (port : PortId) (a off width : Nat) (r : RegArr), s.m.hostUp = true →
    ((off, width) = (a, 8) ∨ (off, width) = (a, 4) ∨ (off, width) = (a + 4, 4)) → a % 8 = 0 → pfSpot a = .reg a → regAt a = some r →
    s.m.answers (.reg a) = true → a ≠ R.GRT_NOW_TIME.addr [] → spaceEight a = false →
    let w := Regs.word s.m.regs a
    let was := Regs.word s.m.tickRegs a
    let isCount (f : FieldSpec) : Prop := f.acc = .rc ∧ r.counts f = true
    let old (f : FieldSpec) : Nat := min (wordField was f.hi f.lo) (wordField w f.hi f.lo)
    let reads (f : FieldSpec) (n : Nat) : Prop := (f.acc = .wo → n = 0) ∧ (isCount f → n = old f) ∧ (f.acc ≠ .wo → ¬ isCount f → n = wordField w f.hi f.lo)
    Does (.rcRead port 0 off width) s (fun t => ∃ v : Word, t.m.out = s.m.out ++ [.readData port 0 off v] ∧
      t = { s with m := { s.m with regs := t.m.regs, tickRegs := t.m.tickRegs, out := t.m.out } } ∧ RegsKeptBut [a] s t ∧
      (∀ b, b ≠ a → Regs.word t.m.tickRegs b = Regs.word s.m.tickRegs b) ∧
      (width = 8 → ∀ f ∈ r.fields, reads f (wordField v f.hi f.lo)) ∧
      (off = a + 4 → ∀ f ∈ r.fields, 32 ≤ f.lo → reads f (wordField v (f.hi - 32) (f.lo - 32))) ∧
      (∀ f ∈ r.fields, loBit off ≤ f.lo → f.hi ≤ hiBit off width →
        (isCount f → wordField (Regs.word t.m.regs a) f.hi f.lo =
          let top := 2 ^ (f.hi + 1 - f.lo) - 1
          if wordField w f.hi f.lo = top then min (Tbl.get 0 s.m.moved (a * 64 + f.lo)) top else wordField w f.hi f.lo - old f) ∧
        (f.acc = .rc → ¬ isCount f → wordField (Regs.word t.m.regs a) f.hi f.lo = rcAfter r w % 2 ^ (f.hi + 1 - f.lo))) ∧
      (∀ f ∈ r.fields, f.acc ≠ .rc ∨ f.lo < loBit off ∨ hiBit off width < f.hi →
        wordField (Regs.word t.m.regs a) f.hi f.lo = wordField w f.hi f.lo))

/-- Accesses out of contract, poisoned writes, unsupported requests and MCTP (00_scope.md, R13, 11_host_attachment.md, R460, R474, R477, R478,
R479). An access of another width or alignment, and a poisoned write to a register, is discarded and counted in BADACCESS, one to an
offset that nothing occupies in UNMAPPED; a line of the admission window takes the poison. A read out of contract answers all 64 ones. An unsupported request is answered so, a malformed TLP reported through AER, with no other effect. From SELFTEST on
an MCTP request that is served is answered in units of 64 bytes, with an answer other standards define (Config.mctpAnswer, log entry 37); a
malformed one is counted.
SET_ENDPOINT_ID sets an ID other than 0 and 0xFF (log entry 28). -/
def Obligations.HostTrafficOutsideTheContract : Prop :=
  ∀ (s : State) (port : PortId) (off width : Nat) (fn : FnId),
    let counted1 (f g : Fld) (o : Nat) (t : State) : Prop :=
      t.m.fld f [port] = min (s.m.fld f [port] + 1) 65535 ∧ t.m.fld R.PRT_HOSTERR_LAST_OFFSET [port] = o % 2 ^ 32 ∧
      t.m.fld g [port] = s.m.fld g [port] ∧
      (∀ a, a ≠ R.PRT_HOSTERR_UNMAPPED.addr [port] → a < 0xF00000 ∨ (0x1000000 ≤ a ∧ a < 0x1100000) ∨ 0x1200000 ≤ a →
        Regs.word t.m.regs a = Regs.word s.m.regs a) ∧ MemKept s t ∧ OuterKept s t
    let counted := counted1 R.PRT_HOSTERR_BADACCESS R.PRT_HOSTERR_UNMAPPED
    (s.m.hostUp = true →
      Does (.outOfContractAccess port 0 off width true) s (counted off) ∧
      Does (.outOfContractAccess port 0 off width false) s (fun t => counted off t ∧ t.m.out.getLast? = some (.readData port 0 off 0xFFFFFFFFFFFFFFFF)) ∧
      (inContract off width = false → (∀ data, Does (.registerWrite port 0 off width data) s (counted off)) ∧
        Does (.rcRead port 0 off width) s (fun t => counted off t ∧ t.m.out.getLast? = some (.readData port 0 off 0xFFFFFFFFFFFFFFFF))) ∧
      (∀ o : BitVec 28,
        (∀ a, pfSpot (o.toNat - o.toNat % 8) = .reg a → Does (.epWrite port 0 o) s (counted o.toNat)) ∧
        (pfSpot (o.toNat - o.toNat % 8) = .none → Does (.epWrite port 0 o) s (counted1 R.PRT_HOSTERR_UNMAPPED R.PRT_HOSTERR_BADACCESS o.toNat)) ∧
        (∀ p k : Nat, s.m.accepts = true → s.m.viewer port fn = some p → s.m.spotOf p o.toNat = .window 4 k → (∀ e ∈ (s.m.adm p).isSealed, e.1 ≠ k / 64) →
          Does (.epWrite port fn o) s (fun t => t.m.adm p = { s.m.adm p with poison := insertNat (k / 64) (s.m.adm p).poison } ∧
            RegsKept s t ∧ MemKept s t ∧ OuterKept s t)))) ∧
    Does (.unsupportedRequest port fn) s (fun t => t = { s with m := { s.m with out := s.m.out ++ [.unsupported port] } }) ∧
    Does (.malformedTlp port) s (fun t => t = { s with m := { s.m with out := s.m.out ++ [.aer port] } }) ∧
    (∀ g : McMsg, 3 ≤ s.m.fld R.PRT_STATUS_PHASE [] → ((Tbl.get [] s.m.host.mctpTimes g.medium).filter (fun t => decide (s.m.now < t + 10 ^ 9))).length < 1000 →
      (mctpServed g (s.m.fld R.PRT_STATUS_PHASE [] == phaseReady) = true → g.malformed = false → Tbl.get 0 s.m.host.mctpBusy (g.medium.val * 256 + g.eid.toNat) ≤ s.m.now →
        let a := Config.mctpAnswer s.m.freeCtr g.kind.toNat g.bytes
        Does (.mctpRequest g) s (fun t => t.m.out = s.m.out ++ (List.range ((a.length + 63) / 64)).map (fun i => .mctp g.medium ((a.drop (64 * i)).take 64)) ∧ RegsKept s t ∧ MemKept s t ∧
          OuterKept s t)) ∧
      (g.malformed = true → Does (.mctpRequest g) s (fun t =>
        t.m.fld R.PRT_HOSTERR_BADACCESS [g.medium] = min (s.m.fld R.PRT_HOSTERR_BADACCESS [g.medium] + 1) 65535 ∧ MemKept s t ∧ OuterKept s t ∧
        RegsKeptBut [R.PRT_HOSTERR_BADACCESS.addr [g.medium]] s t))) ∧
    (∀ eid : BitVec 8, 3 ≤ s.m.fld R.PRT_STATUS_PHASE [] →
      (eid ≠ 0 → eid ≠ 0xFF → Does (.setEndpointId eid) s (fun t => t = { s with m := { s.m with host := { s.m.host with endpoint := eid.toNat } } })) ∧
      (eid = 0 ∨ eid = 0xFF → Does (.setEndpointId eid) s (fun t => t = s)))

/-- Descriptor words, seals, enabling and disabling a hatch (11_host_attachment.md, R462 to R464, R468, R469). A word 0 to 6 of an unsealed
slot is stored; of a sealed slot it is discarded and counted as BAD_SEAL, with a CORRECTED record at most once a second (R474). A SEAL word that names its slot and is next in order seals the
slot and moves NEXT past it; on a disabled hatch it is counted in REFUSED, too far ahead in OVERRUNS, and no slot changes. Enabling an
empty hatch on a pane of its partition clears the sequence, keeps the words of its slots and gives 1,024 credits; a hatch with occupied slots stays (BUSY), a pane of no
part of the partition is BAD_PANE. Disabling leaves nothing sealed and credit 0. -/
def Obligations.HatchSealing : Prop :=
  ∀ (s : State) (p : PartId) (h : Fin 4) (slot : Fin 1024), s.m.accepts = true → s.m.conf.cfg.part (p + 1) ≠ none →
    let x := s.m.hatch (p + 1) h
    let ix := [p.val + 1, h.val]
    let win : Fin 5 := ⟨h.val, by omega⟩
    let only (f : Fld) (t : State) : Prop := OnlyRegs [f.addr ix] s t
    let misused (t : State) : Prop := t.m.hatch (p + 1) h = x ∧ MemKept s t ∧ OuterKept s t ∧
      ∀ a, a ≠ R.HTC_STAT_BAD_SEAL.addr ix → a < 0xF00000 ∨ (0x1000000 ≤ a ∧ a < 0x1100000) ∨ 0x1200000 ≤ a → Regs.word t.m.regs a = Regs.word s.m.regs a
    (∀ (word : Fin 7) (v : Word),
      ((∀ e ∈ x.isSealed, e.1 ≠ slot.val) → Does (.hatchDescriptorWords p win slot word v) s (fun t =>
        t.m.hatch (p + 1) h = { x with slots := Tbl.set 0 x.slots (slot * 8 + word) v } ∧ RegsKept s t ∧ MemKept s t ∧ OuterKept s t)) ∧
      ((∃ e ∈ x.isSealed, e.1 = slot.val) → Does (.hatchDescriptorWords p win slot word v) s (fun t => misused t ∧
        t.m.fld R.HTC_STAT_BAD_SEAL ix = 1 ∧ t.m.fld R.HTC_STAT_BAD_SEALS ix = min (s.m.fld R.HTC_STAT_BAD_SEALS ix + 1) 65535))) ∧
    (∀ v : Word,
      let n := bits v.toNat 63 32
      (s.m.fld R.HTC_TARGET_ENABLE ix = 1 → s.m.pstate (p + 1) ≠ psTornDown → seqGe n (x.disp + 1024) = false → slot.val = n % 1024 →
        n = s.m.fld R.HTC_CREDIT_NEXT ix → (∀ e ∈ x.isSealed, e.1 ≠ slot.val ∧ e.2 ≠ (n + 1) % 2 ^ 32) → x.isSealed.length < 1024 →
        Does (.hatchSeal p win slot v) s (fun t =>
          t.m.hatch (p + 1) h = { x with slots := Tbl.set 0 x.slots (slot * 8 + 7) v, isSealed := x.isSealed ++ [(slot.val, n)] } ∧
          t.m.fld R.HTC_CREDIT_NEXT ix = (n + 1) % 2 ^ 32 ∧ t.m.fld R.HTC_CREDIT_OCCUPIED ix = x.isSealed.length + 1 ∧
          RegsKeptBut [R.HTC_CREDIT_NEXT.addr ix] s t ∧ MemKept s t ∧ OuterKept s t)) ∧
      (s.m.fld R.HTC_TARGET_ENABLE ix = 0 → Does (.hatchSeal p win slot v) s (fun t => only R.HTC_STAT_REFUSED t ∧
        t.m.fld R.HTC_STAT_REFUSED ix = min (s.m.fld R.HTC_STAT_REFUSED ix + 1) 65535)) ∧
      (s.m.fld R.HTC_TARGET_ENABLE ix = 1 → s.m.pstate (p + 1) ≠ psTornDown → seqGe n (x.disp + 1024) = true →
        Does (.hatchSeal p win slot v) s (fun t => misused t ∧ t.m.fld R.HTC_STAT_HATCH_OVERRUN ix = 1 ∧
          t.m.fld R.HTC_STAT_OVERRUNS ix = min (s.m.fld R.HTC_STAT_OVERRUNS ix + 1) 65535))) ∧
    (∀ pane : Fin 4096,
      (s.m.fld R.HTC_CREDIT_OCCUPIED ix = 0 → pane.val ∈ s.m.conf.cfg.panes (p + 1) → s.m.fld R.HTC_TARGET_ENABLE ix = 0 → Does (.hatchEnable p h pane) s (fun t =>
        t.m.fld R.HTC_TARGET_ENABLE ix = 1 ∧ t.m.fld R.HTC_TARGET_PANE ix = pane.val ∧ t.m.fld R.HTC_TARGET_CODE ix = 0 ∧ t.m.fld R.HTC_CREDIT_NEXT ix = 0 ∧
        t.m.fld R.HTC_CREDIT_CREDIT ix = 1024 ∧ t.m.hatch (p + 1) h = { x with isSealed := [], disp := 0, waitOn := none } ∧ MemKept s t ∧ OuterKept s t ∧
        RegsKeptBut [R.HTC_TARGET_ENABLE.addr ix, R.HTC_CREDIT_NEXT.addr ix] s t)) ∧
      (s.m.fld R.HTC_CREDIT_OCCUPIED ix ≠ 0 → Does (.hatchEnable p h pane) s (fun t => only R.HTC_TARGET_CODE t ∧ t.m.fld R.HTC_TARGET_CODE ix = 1)) ∧
      (s.m.fld R.HTC_CREDIT_OCCUPIED ix = 0 → pane.val ∉ s.m.conf.cfg.panes (p + 1) → Does (.hatchEnable p h pane) s (fun t => only R.HTC_TARGET_CODE t ∧
        t.m.fld R.HTC_TARGET_CODE ix = 2))) ∧
    Does (.hatchDisable p h) s (fun t => t.m.fld R.HTC_TARGET_ENABLE ix = 0 ∧ t.m.fld R.HTC_TARGET_CODE ix = 0 ∧ t.m.fld R.HTC_CREDIT_CREDIT ix = 0 ∧
      (s.m.fld R.HTC_TARGET_ENABLE ix = 1 → (t.m.hatch (p + 1) h).isSealed = []) ∧ OuterKept s t)

/-- Dispatch, completion rings, their messages, and failed DMA reads (07_student_training.md, R285, 11_host_attachment.md, R459, R465 to R473).
The oldest submitted descriptor of a hatch leaves its slot for the queue of its KIND of the hatch's pane, or, if it launches, for its stage
once its step is open; with the queue full, a stream ahead of it for the place, or the step not open yet, nothing leaves; a descriptor for a pane of no part of the partition, and
a launch of a closed step, leave with a failure. A tail written up to HEAD is taken and held records move to the ring in order; past HEAD it
is discarded. When the count or the time of coalescing is reached the message of the ring leaves, or waits in the pending bit of its masked vector, and the count starts again. A host read of a
copy that fails frees the copy's place; one that carries EP marks the units it names as poisoned for the copy. -/
def Obligations.HatchDispatchAndRings : Prop :=
  ∀ (s : State) (p : PartId) (h : Fin 4),
    let x := s.m.hatch (p + 1) h
    let ix := [p.val + 1, h.val]
    let d := Desc.ofSlots x.slots (x.disp % 1024)
    let pane := s.m.fld R.HTC_TARGET_PANE ix
    let leaves (t : State) : Prop := (t.m.hatch (p + 1) h).disp = (x.disp + 1) % 2 ^ 32 ∧
      (t.m.hatch (p + 1) h).isSealed = x.isSealed.filter (fun e => e.2 != x.disp) ∧ OuterKept s t
    (s.m.hatchOpen (p + 1) h = true → s.m.fld R.HTC_TARGET_ENABLE ix = 1 → x.disp ≠ s.m.fld R.HTC_CREDIT_NEXT ix → x.holding.length + x.fresh.length < 256 →
      (∀ e, engineOf d.kind = some e →
        (pane ∈ s.m.conf.cfg.panes (p + 1) → ((s.m.pane pane).queue e).length < queueSize e → s.m.hatchYields (p + 1) h pane e = false → Does (.hatchDispatch p h) s (fun t =>
          (t.m.pane pane).queue e = (s.m.pane pane).queue e ++
            [QCmd.of d (.hatch (p + 1) h x.epoch) (p + 1) (fun i => BitVec.ofNat 64 (s.m.fld R.HTC_BASE_BASE [p.val + 1, h.val, i]))] ∧ leaves t ∧ MemKept s t)) ∧
        (pane ∈ s.m.conf.cfg.panes (p + 1) → queueSize e ≤ ((s.m.pane pane).queue e).length ∨ s.m.hatchYields (p + 1) h pane e = true →
          Does (.hatchDispatch p h) s (fun t => t.m.hatch (p + 1) h = { x with waitOn := (t.m.hatch (p + 1) h).waitOn } ∧
            (∃ since, (t.m.hatch (p + 1) h).waitOn = some (pane, e.num, since)) ∧ t.m.core = s.m.core ∧ RegsKept s t ∧ MemKept s t ∧ OuterKept s t)) ∧
        (pane ∉ s.m.conf.cfg.panes (p + 1) → Does (.hatchDispatch p h) s (fun t => leaves t ∧ t.m.core = s.m.core))) ∧
      (engineOf d.kind = none → s.m.launchOk (p + 1) d = true →
        (s.m.stepGate (p + 1) d.step = 0 → Does (.hatchDispatch p h) s (fun t => t.m.part.launches =
          s.m.part.launches ++ [⟨.hatch (p + 1) h x.epoch, p + 1, d, s.m.conf.cfg.stagePanes (bits d.w5.toNat 47 36), false⟩] ∧ leaves t ∧ MemKept s t)) ∧
        (s.m.stepGate (p + 1) d.step = 1 → Does (.hatchDispatch p h) s (fun t => t = s)) ∧
        (s.m.stepGate (p + 1) d.step = 2 → Does (.hatchDispatch p h) s (fun t => t.m.part.launches = s.m.part.launches ∧ leaves t)))) ∧
    (∀ v : Word, s.m.accepts = true →
      let dist (a : Nat) : Nat := (a + 2 ^ 64 - s.m.fld R.HTC_CTAIL_TAIL ix) % 2 ^ 64
      (dist v.toNat ≤ dist (s.m.fld R.HTC_CHEAD_HEAD ix) → Does (.completionTailWrite p h v) s (fun t =>
        t.m.fld R.HTC_CTAIL_TAIL ix = v.toNat ∧ (t.m.hatch (p + 1) h).holding <:+ x.holding ∧ OuterKept s t ∧
        (x.holding = [] → OnlyRegs [R.HTC_CTAIL_TAIL.addr ix] s t))) ∧
      (dist (s.m.fld R.HTC_CHEAD_HEAD ix) < dist v.toNat → Does (.completionTailWrite p h v) s (fun t => t = s))) ∧
    (s.m.hostUp = true →
      (x.unannounced = 0 → Does (.msixCoalesceTimer p h) s (fun t => t = s)) ∧
      (x.unannounced ≠ 0 → (x.since + s.m.fld R.HTC_CRCFG_COALESCE_US ix * 1000 ≤ s.m.now ∨
          max 1 (s.m.fld R.HTC_CRCFG_COALESCE_COUNT ix) ≤ x.unannounced) →
        let port := s.m.conf.cfg.portOf (p + 1)
        let fn := s.m.conf.cfg.vfOf (p + 1)
        let v := s.m.msixVec port fn h
        Does (.msixCoalesceTimer p h) s (fun t => (t.m.hatch (p + 1) h).unannounced = 0 ∧ RegsKept s t ∧ MemKept s t ∧ OuterKept s t ∧
          (v.masked = false → t.m.out = s.m.out ++ [.msix port fn h v.addr v.data]) ∧
          (v.masked = true → t.m.out = s.m.out ∧ t.m.msixVec port fn h = { v with pending := true })))) ∧
    (∀ (q : PaneId) (i : Fin 4) (r : Run) (w : Word), s.m.running = true → (s.m.pane q).cruns[i.val]? = some r → r.cmd.a = some w → adSpace w = 8 →
      (r.cmd.desc.kind = 2 → s.m.paneOwner q = r.cmd.part → Does (.dmaReadError q i .fails) s (fun t => (t.m.pane q).cruns = (s.m.pane q).cruns.eraseIdx i ∧ OuterKept s t ∧
        (r.cmd.desc.signal ≤ 63 → ((t.m.pane q).token r.cmd.desc.signal).poison = true))) ∧
      (∀ (a n c : Nat) (g : Plan), s.m.copyPlan q r.cmd = .ok g → Does (.dmaReadError q i (.ep n c)) s (fun t => RegsKept s t ∧ MemKept s t ∧ OuterKept s t ∧
        (a ∈ (cutSegs g.src (64 * n) (64 * c)).flatMap (fun e => linesOf e.1 e.2) →
          ∃ r', (t.m.pane q).cruns[i.val]? = some r' ∧ r'.cmd = r.cmd ∧ a ∈ r'.vals))))

/-- FLR of a VF and of a PF, and a reset of a host port (11_host_attachment.md, R451, R475). An FLR of the VF of a partition disables its four
hatches, empties their slots and rings, gives up the descriptors they sealed and clears its HTC_HOSTERR, and masks its MSI-X vectors; a copy of its that host DMA serves leaves its
engine; where no DMA of the VF is in flight, memory and every register outside the hatches and HOSTERR of that partition stay. An FLR of a PF does so for every partition of the port, and so does a reset of the port,
which also takes its link down. -/
def Obligations.FunctionAndPortResets : Prop :=
  ∀ (s : State) (port : PortId) (fn : FnId) (p : Nat),
    let empty (p : Nat) (t : State) : Prop := ∀ h : Fin 4,
      t.m.fld R.HTC_TARGET_ENABLE [p, h] = 0 ∧ t.m.fld R.HTC_CREDIT_NEXT [p, h] = 0 ∧ t.m.fld R.HTC_CREDIT_CREDIT [p, h] = 0 ∧
      t.m.fld R.HTC_CRCFG_PAGES [p, h] = 0 ∧ t.m.fld R.HTC_CHEAD_HEAD [p, h] = 0 ∧ t.m.fld R.HTC_CTAIL_TAIL [p, h] = 0 ∧
      (t.m.hatch p h).isSealed = [] ∧ (t.m.hatch p h).slots = [] ∧ (t.m.hatch p h).holding = [] ∧ (s.m.hatch p h).epoch < (t.m.hatch p h).epoch
    let calm (p : Nat) : Prop := (∀ q ∈ s.m.conf.cfg.panes p, ∀ r ∈ (s.m.pane q).cruns, r.cmd.part ≠ p ∨ r.cmd.onHost = false) ∧ s.m.fetchesOf p = [] ∧
      s.m.ovlFetchesOf p = [] ∧ s.m.exporting p = false ∧ (s.m.fld R.CKP_CTL_DEST [p] ≠ 1 ∨ s.m.ckState p ≠ ckDraining)
    let masked (fn : Nat) (t : State) : Prop := ∀ v : Nat, v < 32 → t.m.msixVec port fn v = MsixVec.init
    (s.m.accepts = true → fn.val ≠ 0 → s.m.conf.cfg.vfPart port fn = p → p ≠ 0 → p ≤ 32 → Does (.vfFlr port fn) s (fun t =>
      empty p t ∧ t.m.fld R.HTC_HOSTERR_BADACCESS [p] = 0 ∧ t.m.fld R.HTC_HOSTERR_UNMAPPED [p] = 0 ∧ masked fn t ∧ OuterKept s t ∧
      (∀ q ∈ s.m.conf.cfg.panes p, ∀ r ∈ (t.m.pane q).cruns, r.cmd.part ≠ p ∨ r.cmd.onHost = false) ∧
      (calm p → MemKept s t ∧ t.m.core = s.m.core ∧ ∀ a, a < 0x300000 + p * 0x1000 ∨ 0x301000 + p * 0x1000 ≤ a → a ≠ R.HTC_HOSTERR_BADACCESS.addr [p] → Regs.word t.m.regs a = Regs.word s.m.regs a))) ∧
    ((∀ q ∈ s.m.portParts port, 1 ≤ q ∧ q ≤ 32) →
      (s.m.accepts = true → Does (.pfFlr port) s (fun t => (∀ q ∈ s.m.portParts port, empty q t) ∧ (∀ f < 33, masked f t) ∧ OuterKept s t ∧
        ((∀ q ∈ s.m.portParts port, calm q) → MemKept s t ∧ t.m.core = s.m.core))) ∧
      Does (.hostPortReset port) s (fun t => (∀ q ∈ s.m.portParts port, empty q t) ∧ t.m.fld R.PRT_HP_LINK_UP [port] = 0 ∧ t.m.fld R.PRT_HP_LINK_RATE [port] = 0 ∧
        t.m.fld R.PRT_HP_LINK_WIDTH [port] = 0 ∧ (∀ f < 33, masked f t) ∧ OuterKept s t ∧
        ((∀ q ∈ s.m.portParts port, calm q) → MemKept s t ∧ t.m.core = s.m.core)))

/-- Opening, closing, resetting and losing a conduit (06_soft_target_conduit.md, R274 to R278, R281). OPEN of a CLOSED conduit that passes
R278 makes a local one OPEN with the settings and credits in force and a remote one OPENING; one that fails leaves it CLOSED with the
code; OPEN in another state has no effect. A CLOSED side answers a peer's OPEN that does not fit with a refusal (log entry 86). CLOSE of an OPEN conduit drains it, and closes it at once where nothing is held, nothing is under
way and every credit is back; a closed conduit's queue region is zero. RESET closes it, or waits for the step boundary and the end of a freeze. A peer's answer opens
an OPENING conduit with the emit side's settings; one that refuses, or whose VOCAB or TAPS differ or whose queue is too short, closes it;
while the partition is frozen the answer waits. 10 ms without an answer close it; the loss of its own link, whether or not it is back, halts an OPEN or
DRAINING one with what it holds. Dies are those of the module. -/
def Obligations.ConduitControl : Prop :=
  ∀ (s : State) (c : ConduitId), LouvresOk s.m →
    let m := s.m
    let x := m.cond c
    let is (st code : Nat) (t : State) : Prop := t.m.cdState c = st ∧ t.m.fld R.LVR_CSTATE_CODE [c] = code
    let frame (t : State) : Prop := OtherConduitsKept c s t ∧ BlocksKept [7] s t ∧ t.m.core.panes = m.core.panes
    let opened (k temp : Nat) (nf : Bool) (cr : Nat) (t : State) : Prop := is cdOpen lvOk t ∧ frame t ∧ MemKept s t ∧
      t.m.cond c = { Cond.init with k := k, temp := temp, nf := nf, limit := cr, openedAt := m.now, flight := x.flight, crets := x.crets, held := x.held, downs := m.cdDowns c } ∧
      t.m.fld R.LVR_CSTATE_CREDITS [c] = cr % 2 ^ 16 ∧ t.m.fld R.LVR_CSTATE_QUEUED [c] = 0 ∧ t.m.fld R.LVR_CROWS_RECORDS [c] = 0 ∧ t.m.fld R.LVR_CROWS_LOSS_ROWS [c] = 0 ∧
      t.m.fld R.LVR_CQUEUE_SLOT_BYTES [c] = slotBytes k % 2 ^ 16
    let own := opened (m.fld R.LVR_CCTL_K [c]) (m.fld R.LVR_CCTL_TEMP [c]) (m.flag R.LVR_CCTL_NF_POLICY [c]) (m.cdCredits c)
    let closed (code : Nat) (t : State) : Prop := is cdClosed code t ∧ t.m.cond c = Cond.init
    let q := m.transomSegs (m.cdPart c) (m.cdQueue c).1 (m.cdQueue c).2
    let zeroed (t : State) : Prop := MemKeptButSegs q s t ∧ ∀ l, q = some l → ∀ g ∈ l, ∀ i, i < g.2 → readByte t.m.mem (g.1 + i) = 0
    let busy : Prop := ((m.cdEmit c).isSome = true ∧ (x.trows ≠ [] ∨ x.ready ≠ [] ∨ m.fld R.LVR_CSTATE_CREDITS [c] ≠ x.limit ∨ ∃ t ∈ x.taps, t.2.used ≠ 0)) ∨
      ((m.cdLoss c).isSome = true ∧ (x.flight ≠ [] ∨ x.rbuf ≠ [] ∨ m.fld R.LVR_CSTATE_QUEUED [c] ≠ 0 ∨ x.pass ≠ none ∨
        (∃ t ∈ x.taps, t.2.queued ≠ t.2.delivered) ∨ m.cdInFlight c 0 = true ∨ m.cdInFlight c 1 = true ∨
        ((m.cdEmit c).isSome = false ∧ (x.srows ≠ [] ∨ x.crets ≠ 0))))
    (m.accepts = true →
      (m.cdState c = cdClosed → m.cdCheck c ≠ 0 → Does (.conduitOpen c) s (fun t => is cdClosed (m.cdCheck c) t ∧ OnlyRegs [R.LVR_CSTATE_CODE.addr [c]] s t)) ∧
      (m.cdState c = cdClosed → m.cdCheck c = 0 → m.cdRemote c = false → Does (.conduitOpen c) s own) ∧
      (m.cdState c = cdClosed → m.cdCheck c = 0 → m.cdRemote c = true → Does (.conduitOpen c) s (fun t => is cdOpening lvOk t ∧ frame t ∧ MemKept s t ∧
        t.m.cond c = { Cond.init with openedAt := m.now, downs := m.cdDowns c })) ∧
      (m.cdState c ≠ cdClosed → Does (.conduitOpen c) s (fun t => t = s)) ∧
      (m.cdState c = cdOpen → busy → Does (.conduitClose c) s (fun t => is cdDraining (m.fld R.LVR_CSTATE_CODE [c]) t ∧ frame t ∧ MemKept s t ∧ t.m.cond c = x)) ∧
      (m.cdState c = cdOpen → ¬ busy → Does (.conduitClose c) s (fun t => closed lvOk t ∧ frame t ∧ zeroed t)) ∧
      (m.cdState c ≠ cdOpen → Does (.conduitClose c) s (fun t => t = s)) ∧
      (m.cdState c ∈ [cdOpen, cdDraining, cdHalted] →
        (m.anyStarted (m.cdPart c) = true ∨ m.cdFrozen c = true → Does (.conduitReset c) s (fun t => t.m.cond c = { x with resetReq := true } ∧ RegsKept s t ∧ MemKept s t ∧
          OtherConduitsKept c s t)) ∧
        (m.anyStarted (m.cdPart c) = false → m.cdFrozen c = false → Does (.conduitReset c) s (fun t => closed lvOk t ∧
          ((∀ d, d < 64 → d ≠ c → m.cdPart d = m.cdPart c → (m.cond d).resetReq = false) → frame t ∧ zeroed t)))) ∧
      (m.cdState c ∉ [cdOpen, cdDraining, cdHalted] → Does (.conduitReset c) s (fun t => t = s))) ∧
    (m.cdState c = cdOpening → ∀ r : PeerReply,
      let emit := (m.cdEmit c).isSome
      let agrees : Prop := r.accept = true ∧ r.vocab = m.fld R.LVR_CCTL_VOCAB [c] ∧ r.taps = m.cdTapCount c ∧
        (emit = true → m.cdCredits c * slotBytes (m.fld R.LVR_CCTL_K [c]) ≤ r.capacity) ∧ (emit = false → r.credits * slotBytes r.k ≤ m.cdRoom c)
      (m.cdFrozen c = true → Does (.peerOpenReply c r) s (fun t => t.m.cond c = { x with held := x.held ++ [.reply r] } ∧ RegsKept s t ∧ MemKept s t ∧
        OtherConduitsKept c s t)) ∧
      (m.cdFrozen c = false →
        (¬ agrees → Does (.peerOpenReply c r) s (fun t => closed lvPeerMismatch t ∧ frame t ∧ MemKept s t)) ∧
        (agrees → emit = true → Does (.peerOpenReply c r) s own) ∧
        (agrees → emit = false → Does (.peerOpenReply c r) s (opened r.k r.temp r.nf r.credits)) ∧
        (x.openedAt + 10000000 ≤ m.now → Does (.openingTimeout c) s (fun t => closed lvPeerTimeout t ∧ frame t ∧ MemKept s t)))) ∧
    (m.cdState c = cdClosed → m.cdRemote c = true → ∀ r : PeerReply, r.ask = true →
      (m.cdAgrees c r = true → Does (.peerOpenReply c r) s (fun t => t = s)) ∧
      (m.cdAgrees c r = false → Does (.peerOpenReply c r) s (fun t => t.m = m.cdExchange c 4 ∧ t.m.cond c = x ∧ RegsKept s t ∧ MemKept s t ∧
        OtherConduitsKept c s t))) ∧
    (∀ n, m.cdLink c = some n → m.cdRemote c = true → m.linkUp n = false ∨ (m.link n).downs ≠ x.downs → m.cdState c = cdOpen ∨ m.cdState c = cdDraining →
      Does (.conduitLinkLost c) s (fun t => is cdHalted lvLink t ∧ t.m.cond c = x ∧ OtherConduitsKept c s t ∧ MemKept s t ∧ BlocksKept [7, 15, 17] s t))

/-- Rows, records and credits of a conduit (06_soft_target_conduit.md, R242 to R251, R260 to R265, R268, R269, R272). A shard that reaches its
half joins a row, waits for a slot, is discarded and counted, or breaks R243 and halts the conduit with SHARD. A complete teacher row becomes
a record, which leaves at once for a credit where its way is open. A returned credit raises CREDITS or lets the oldest waiting record leave.
An arriving record enters one of four buffers, or the queue region with QUEUED and HIGH_WATER; over a failed direction records are lost; the
oldest queued one is read back. Whenever the oldest record meets the oldest student row and they are of different rows the conduit halts with
MISMATCH. Pass 2 of a complete student row with its record sends its gradients and keeps the loss entry; a completed row counts and returns
its credit. -/
def Obligations.ConduitRows : Prop :=
  ∀ (s : State) (c : ConduitId), LouvresOk s.m →
    let m := s.m
    let x := m.cond c
    let frame (t : State) : Prop := OtherConduitsKept c s t ∧ BlocksKept [7] s t ∧ t.m.cdState c = m.cdState c
    let still (t : State) : Prop := frame t ∧ t.m.core.panes = m.core.panes
    let halted (code : Nat) (t : State) : Prop := t.m.cdState c = cdHalted ∧ t.m.fld R.LVR_CSTATE_CODE [c] = code ∧ OtherConduitsKept c s t ∧ BlocksKept [7, 15, 17] s t
    let differ (recs : List Machine.Rec) (rows : List LRow) : Prop := x.pass = none ∧ ∃ r l row l', recs = r :: l ∧ rows = row :: l' ∧ r.pairs row = false
    (∀ (rt : RouteId) (die sg : Nat) (f : Xfer), sg = cdOpen ∨ sg = cdDraining →
      let gone (t : State) : Prop := t.m.xfersOf rt = (m.xfersOf rt).drop 1 ∧ (∀ r : Nat, r ≠ rt → t.m.xfersOf r = m.xfersOf r) ∧ MemKept s t ∧
        ∀ o : Nat, o ≠ f.pane → t.m.pane o = m.pane o
      let vocab := m.fld R.LVR_CCTL_VOCAB [c]
      let fate (cmd : Instr) (teacher : Bool) (p : ShardFate) : Prop :=
        (p = .waits → Does cmd s (fun t => t = s)) ∧
        (p = .discarded → die < 10 → Does cmd s (fun t => gone t ∧ t.m.fld R.LVR_STATUS_DISCARDS [die] = min (m.fld R.LVR_STATUS_DISCARDS [die] + 1) (2 ^ 32 - 1) ∧
          frame t ∧ t.m.cond c = x)) ∧
        (p = .invalid → Does cmd s (fun t => gone t ∧ halted lvShard t ∧ t.m.cond c = x)) ∧
        (∀ rows, p = .joins rows →
          (teacher = true → Does cmd s (fun t => gone t ∧ frame t ∧ t.m.cond c = { x with trows := rows })) ∧
          (teacher = false → ¬ differ x.rbuf rows → Does cmd s (fun t => gone t ∧ frame t ∧ t.m.cond c = { x with srows := rows })) ∧
          (teacher = false → differ x.rbuf rows → Does cmd s (fun t => gone t ∧ halted lvMismatch t ∧ t.m.cond c = { x with srows := rows })))
      (FrameReaches m rt 0 die c sg f → m.cdEmit c = some die → fate (.teacherShard rt) true
        (placeShard x.trows (x.trows.length + x.ready.length) (m.cdSlots true die vocab) vocab (sg == cdDraining) f.bytes f.poisoned)) ∧
      (FrameReaches m rt 1 die c sg f → m.cdLoss c = some die → m.retOk c die f.bytes = true → fate (.studentShard rt) false
        (placeShard x.srows (m.lossTaken c die) (m.cdSlots false die vocab) vocab (sg == cdDraining) f.bytes f.poisoned))) ∧
    (m.cdRuns c = true →
      let credits := m.fld R.LVR_CSTATE_CREDITS [c]
      let queued := m.fld R.LVR_CSTATE_QUEUED [c]
      let leaves (r : Machine.Rec) : List Machine.Rec := if m.cdRemote c then x.flight else x.flight ++ [r]
      (∀ r l, x.trows = r :: l → r.complete = true →
        let b : Machine.Rec := ⟨(emitRecord x.k x.temp (if m.cdRemote c then m.fld R.LVR_CREMOTE_PEER_CONDUIT [c] else c) r.step r.seqId r.pos r.values).1, r.poisoned⟩
        ((m.cdEmit c).isSome = true → credits = 0 ∨ m.cdCanSend c = false → Does (.recordReady c) s (fun t =>
          t.m.cond c = { x with trows := l, ready := x.ready ++ [b] } ∧ still t ∧ MemKept s t ∧ t.m.fld R.LVR_CSTATE_CREDITS [c] = credits)) ∧
        (m.cdState c = cdOpen → credits ≠ 0 → m.cdCanSend c = true → x.ready = [] → Does (.recordReady c) s (fun t =>
          t.m.cond c = { x with trows := l, flight := leaves b } ∧ still t ∧ MemKept s t ∧ t.m.fld R.LVR_CSTATE_CREDITS [c] = credits - 1 ∧
          t.m.fld R.LVR_CROWS_RECORDS [c] = (m.fld R.LVR_CROWS_RECORDS [c] + 1) % 2 ^ 32))) ∧
      (m.cdState c = cdOpen → x.crets ≠ 0 → x.ready = [] → Does (.creditReturn c) s (fun t => t.m.cond c = { x with crets := x.crets - 1 } ∧ still t ∧ MemKept s t ∧
        t.m.fld R.LVR_CSTATE_CREDITS [c] = (credits + 1) % 2 ^ 16)) ∧
      (∀ r l, m.cdState c = cdOpen → x.crets ≠ 0 → x.ready = r :: l → credits = 0 → m.cdCanSend c = true → Does (.creditReturn c) s (fun t =>
        t.m.cond c = { x with crets := x.crets - 1, ready := l, flight := leaves r } ∧ still t ∧ MemKept s t ∧ t.m.fld R.LVR_CSTATE_CREDITS [c] = 0)) ∧
      (∀ r l e, x.flight = r :: l → m.cdRoute c = some e → m.routeTested e = false → m.routeDead e = false →
        (x.rbuf.length < 4 → queued = 0 →
          (¬ differ (x.rbuf ++ [r]) x.srows → Does (.recordArrival c) s (fun t => t.m.cond c = { x with flight := l, rbuf := x.rbuf ++ [r] } ∧ still t ∧ MemKept s t ∧
            RegsKept s t)) ∧
          (differ (x.rbuf ++ [r]) x.srows → Does (.recordArrival c) s (fun t => halted lvMismatch t ∧ t.m.cond c = { x with flight := l, rbuf := x.rbuf ++ [r] } ∧
            MemKept s t))) ∧
        (4 ≤ x.rbuf.length ∨ queued ≠ 0 → Does (.recordArrival c) s (fun t => t.m.cond c = { x with flight := l } ∧ still t ∧
          t.m.fld R.LVR_CSTATE_QUEUED [c] = (queued + 1) % 2 ^ 16 ∧
          t.m.fld R.LVR_CQUEUE_HIGH_WATER [c] = max (m.fld R.LVR_CQUEUE_HIGH_WATER [c]) (queued + 1) % 2 ^ 16 ∧
          MemKeptButSegs (m.transomSegs (m.cdPart c) (m.recOff c ((x.qhead + queued) % max 1 x.limit)) r.bytes.length) s t))) ∧
      (queued ≠ 0 → x.rbuf.length < 4 →
        let b := m.getTransom (m.cdPart c) (m.recOff c x.qhead) (slotBytes (min x.k (leAt (m.getTransom (m.cdPart c) (m.recOff c x.qhead) 32).1 12 2)))
        let rbuf := x.rbuf ++ [⟨b.1, b.2⟩]
        let back (t : State) : Prop := t.m.cond c = { x with rbuf := rbuf, qhead := (x.qhead + 1) % max 1 x.limit } ∧ MemKept s t ∧
          t.m.fld R.LVR_CSTATE_QUEUED [c] = queued - 1
        (¬ differ rbuf x.srows → Does (.queuedRecordReadback c) s (fun t => back t ∧ still t)) ∧
        (differ rbuf x.srows → Does (.queuedRecordReadback c) s (fun t => back t ∧ halted lvMismatch t))) ∧
      (∀ r l row rows, x.rbuf = r :: l → x.srows = row :: rows → x.pass = none →
        (r.pairs row = true → row.complete = true →
          let ps := r.poisoned || row.poisoned
          let o := lossRow ⟨f32 (m.fld R.LVR_CWEIGHT_W_KD [c]), f32 (m.fld R.LVR_CWEIGHT_ALPHA [c]), m.flag R.LVR_CCTL_HARD [c], x.nf, m.fld R.LVR_CCTL_VOCAB [c]⟩
            r.bytes ps ((row.sorted.head?.map (fun g => g.label)).getD 0xFFFFFFFF) row.values
          Does (.lossPass2Start c) s (fun t => still t ∧ MemKept s t ∧
            t.m.cond c = { x with pass := some (leBytes 4 row.step ++ leBytes 4 row.seqId ++ leBytes 4 row.pos ++ leBytes 2 o.flags ++ leBytes 2 0 ++
              leBytes 4 (toF32 o.kl) ++ leBytes 4 (toF32 o.ce) ++ leBytes 4 (toF32 o.loss) ++ leBytes 4 0) } ∧
            ∀ g ∈ row.sorted.zip o.grads, ∃ y ∈ t.m.xfersOf g.1.route, y.pane = cdSender c ∧ y.offset = g.1.offset ∧ y.bytes = packElems 32 (g.2.map toF32))) ∧
        (r.pairs row = false → Does (.lossPass2Start c) s (fun t => halted lvMismatch t ∧ t.m.cond c = x ∧ MemKept s t))) ∧
      (∀ e, x.pass = some e → m.cdInFlight c 0 = false → m.cdState c = cdOpen →
        let y : Cond := { x with pass := none, rbuf := x.rbuf.drop 1, srows := x.srows.drop 1, crets := if m.cdRemote c && m.cdCanSend c then x.crets else x.crets + 1 }
        let counts (t : State) : Prop := t.m.cond c = y ∧ t.m.fld R.LVR_CROWS_LOSS_ROWS [c] = (m.fld R.LVR_CROWS_LOSS_ROWS [c] + 1) % 2 ^ 32 ∧
          MemKeptButSegs (if m.fld R.LVR_CLRING_ENTRIES [c] = 0 then none else m.transomSegs (m.cdPart c)
            (m.fld R.LVR_CLRING_BASE [c] * 64 + m.fld R.LVR_CROWS_LOSS_ROWS [c] % m.fld R.LVR_CLRING_ENTRIES [c] * 32) e.length) s t
        let other : Prop := ∃ r l row l', y.rbuf = r :: l ∧ y.srows = row :: l' ∧ r.pairs row = false
        (¬ other → Does (.lossRowComplete c) s (fun t => counts t ∧ still t)) ∧ (other → Does (.lossRowComplete c) s (fun t => counts t ∧ halted lvMismatch t)))) ∧
    (∀ e, x.flight ≠ [] → m.cdRoute c = some e → m.routeDead e = true → Does (.recordArrival c) s (fun t => t.m.cond c = { x with flight := [] } ∧ still t ∧
      MemKept s t ∧ RegsKept s t))

/-- Taps and conduit messages (06_soft_target_conduit.md, R255 to R257, R259, R274, R276, R277, 10_meridian_links.md, R419, R431). A tap frame
that is in order takes a tap credit and enters the queue of the tap, or leaves for the other module, or waits for a credit or the link; its
delivery sends the oldest queued frame to its landing slot and gives the credit back; a release frame frees landing slots. The four conduit
messages reach the conduit of their job on this module over the link of its ROUTE: a record its way to the loss half, a tap frame the tap's
queue, released slots the tap's credits, a credit its way to the emit half; a peer's reset closes the conduit. While the conduit is frozen tap
frames, released slots and a reset wait. A message of no such job, or on another link, is counted UNCLAIMED; of a job that no partition holds it
sends UNREACHABLE back (log entry 17). -/
def Obligations.ConduitTapsAndMessages : Prop :=
  ∀ (s : State) (c : ConduitId), LouvresOk s.m →
    let m := s.m
    let x := m.cond c
    let frame (t : State) : Prop := OtherConduitsKept c s t ∧ BlocksKept [7] s t
    let still (t : State) : Prop := frame t ∧ t.m.core.panes = m.core.panes
    let tapSegs (tap n : Nat) := m.transomSegs (m.cdPart c) (m.tapOff c tap ((x.tap tap).queued % max 1 (m.fld R.LVR_TAP_SLOTS [c, tap]))) n
    (∀ (rt : RouteId) (die : Nat) (f : Xfer) (tap : Fin 8), leAt f.bytes 31 1 = tap →
      let v := x.tap tap
      let taken (t : State) : Prop := t.m.xfersOf rt = (m.xfersOf rt).drop 1 ∧ frame t ∧ RegsKept s t ∧ ∀ o : Nat, o ≠ f.pane → t.m.pane o = m.pane o
      (FrameReaches m rt 2 die c cdOpen f → m.cdEmit c = some die → (m.cdTaps c).contains tap.val = true → tapTensorOk f.bytes = true →
        64 + leAt f.bytes 20 4 ≤ m.tapSlot c tap →
        (m.fld R.LVR_TAP_SLOTS [c, tap] ≤ v.used ∨ m.cdCanSend c = false → Does (.tapFrame rt) s (fun t => t = s)) ∧
        (v.used < m.fld R.LVR_TAP_SLOTS [c, tap] → m.cdRemote c = false → Does (.tapFrame rt) s (fun t => taken t ∧
          t.m.cond c = x.setTap tap { v with used := v.used + 1, queued := v.queued + 1 } ∧
          MemKeptButSegs (tapSegs tap (f.bytes.take (64 + leAt f.bytes 20 4)).length) s t)) ∧
        (v.used < m.fld R.LVR_TAP_SLOTS [c, tap] → m.cdRemote c = true → m.cdCanSend c = true → Does (.tapFrame rt) s (fun t => taken t ∧
          t.m.cond c = x.setTap tap { v with used := v.used + 1 } ∧ MemKept s t))) ∧
      (FrameReaches m rt 3 die c cdOpen f → m.cdLoss c = some die → (m.cdTaps c).contains tap.val = true → leAt f.bytes 34 2 ≠ 0 → leAt f.bytes 34 2 ≤ v.occupied →
        Does (.tapRelease rt) s (fun t => taken t ∧ MemKept s t ∧ t.m.cond c = x.setTap tap { v with occupied := v.occupied - leAt f.bytes 34 2 }))) ∧
    (∀ tap : Fin 8, m.cdRuns c = true → m.cdState c = cdOpen → m.cdCanSend c = true →
      let v := x.tap tap
      let slot := v.delivered % max 1 (m.fld R.LVR_TAP_SLOTS [c, tap])
      let off := m.tapOff c tap slot
      let b := m.getTransom (m.cdPart c) off (64 + leAt (m.getTransom (m.cdPart c) off 64).1 20 4)
      let rt := m.fld R.LVR_TAP_ROUTE [c, tap]
      v.delivered < v.queued → v.occupied < max 1 (m.fld R.LVR_TAP_SLOTS [c, tap]) →
      Does (.tapFrameDelivery c tap) s (fun t => still t ∧ MemKept s t ∧
        t.m.cond c = x.setTap tap ⟨if m.cdRemote c then v.used else v.used - 1, v.queued, v.delivered + 1, v.occupied + 1⟩ ∧
        ∃ y : Xfer, t.m.xfersOf rt = m.xfersOf rt ++ [y] ∧ y.pane = cdSender c ∧ (b.2 = false → y.bytes = b.1) ∧
          y.offset = m.fld R.LVR_TAP_OFFSET [c, tap] * 64 + slot * m.tapSlot c tap)) ∧
    (∀ (n : LinkId) (src : ModuleId) (job : BitVec 16) (bytes : List Byte) (poisoned : Bool) (tap : Fin 8) (k : BitVec 8), m.jobShut job.toNat = false →
      (m.jobPart job.toNat ≠ 0 → m.jobPart job.toNat = m.cdPart c → m.cdLink c = some n.val → m.cdRemote c = true → m.cdState c = cdOpen →
        let u := leAt bytes 31 1
        ((m.cdLoss c).isSome = true →
          Does (.conduitRec ⟨n, src⟩ job c bytes poisoned) s (fun t => still t ∧ RegsKept s t ∧ MemKept s t ∧ t.m.cond c = { x with flight := x.flight ++ [⟨bytes, poisoned⟩] }) ∧
          (m.cdFrozen c = false → Does (.conduitTap ⟨n, src⟩ job c bytes poisoned) s (fun t => still t ∧ RegsKept s t ∧ MemKeptButSegs (tapSegs u bytes.length) s t ∧
            t.m.cond c = x.setTap u { x.tap u with queued := (x.tap u).queued + 1 })) ∧
          (m.cdFrozen c = true → Does (.conduitTap ⟨n, src⟩ job c bytes poisoned) s (fun t => still t ∧ RegsKept s t ∧ MemKept s t ∧
            t.m.cond c = { x with held := x.held ++ [.tap u bytes poisoned] }))) ∧
        ((m.cdEmit c).isSome = true →
          (m.cdFrozen c = false → Does (.conduitRel ⟨n, src⟩ job c tap k) s (fun t => still t ∧ RegsKept s t ∧ MemKept s t ∧
            t.m.cond c = x.setTap tap { x.tap tap with used := (x.tap tap).used - k.toNat })) ∧
          (m.cdFrozen c = true → Does (.conduitRel ⟨n, src⟩ job c tap k) s (fun t => still t ∧ RegsKept s t ∧ MemKept s t ∧
            t.m.cond c = { x with held := x.held ++ [.credit tap k.toNat] })) ∧
          Does (.conduitCredit ⟨n, src⟩ job c false) s (fun t => still t ∧ RegsKept s t ∧ MemKept s t ∧ t.m.cond c = { x with crets := x.crets + 1 })) ∧
        (m.cdFrozen c = false → Does (.conduitCredit ⟨n, src⟩ job c true) s (fun t => still t ∧ t.m.cdState c = cdClosed ∧ t.m.fld R.LVR_CSTATE_CODE [c] = lvOk ∧
          t.m.cond c = Cond.init)) ∧
        (m.cdFrozen c = true → Does (.conduitCredit ⟨n, src⟩ job c true) s (fun t => still t ∧ RegsKept s t ∧ MemKept s t ∧
          t.m.cond c = { x with held := x.held ++ [.reset] }))) ∧
      (m.jobPart job.toNat = 0 ∨ m.jobPart job.toNat ≠ m.cdPart c ∨ m.cdLink c ≠ some n.val →
        ∀ cmd ∈ ([(.conduitRec ⟨n, src⟩ job c bytes poisoned, 0x30), (.conduitTap ⟨n, src⟩ job c bytes poisoned, 0x31), (.conduitRel ⟨n, src⟩ job c tap k, 0x32),
            (.conduitCredit ⟨n, src⟩ job c false, 0x33)] : List (Instr × Nat)),
          Does cmd.1 s (fun t => t.m.fld R.MRD_STAT_UNCLAIMED [] =
              min (m.fld R.MRD_STAT_UNCLAIMED [] + 1) (2 ^ (R.MRD_STAT_UNCLAIMED.hi + 1 - R.MRD_STAT_UNCLAIMED.lo) - 1) ∧
            MemKept s t ∧ t.m.conds = m.conds ∧ RegsKeptBut [R.MRD_STAT_UNCLAIMED.addr []] s t ∧
            (m.jobPart job.toNat = 0 → t.m = ((m.consumed n clConduit).addSat R.MRD_STAT_UNCLAIMED [] 1).unreachable src.toNat job.toNat cmd.2 c))))

/-- START, STOP, CLOSE, export and slot launches of a training window (07_student_training.md, R286, R288 to R291, R294, R320 to R323). START
of a STOPPED window that passes R289 runs it from step F with CLOSED = F - 1, both gradient-scale blocks written and its scale state
reset; one that fails leaves the first code (on a data axis over links what the others report is a free value, log entry 67); in
another state its code is TSTATE. STOP stops a window where nothing is open and otherwise lets it finish. CLOSE marks an open step. EXPORT
takes the last valid checkpoint as its source and needs no export in progress; its abort makes it idle; its end, or its failure, leaves its
state (it waits while the host port is down) and writes nothing below the window it names in host memory, but for the bytes it fetched. The next slot of a scheduled stage launches
its stream on every pane of the stage at the slot's entry point. -/
def Obligations.TrainingControl : Prop :=
  ∀ (s : State) (part : PartId),
    let m := s.m
    let p := part.val + 1
    let w := m.train p
    let others (t : State) : Prop := OuterKept s t ∧ ∀ q : Nat, q ≠ p → t.m.train q = m.train q
    let code (k : Nat) (t : State) : Prop := t.m.fld R.COL_TSTATE_CODE [p] = k ∧ RegsKeptBut [R.COL_TSTATE_CODE.addr [p]] s t ∧ MemKept s t ∧ others t
    (m.accepts = true →
      (∀ f : BitVec 32,
        let found := m.trainCheck p (decide (1 < m.axisSize p 0) && m.fld R.COL_TAXIS_LINKS [p, 0] != 0 && m.free.toNat % 2 == 1)
        (m.tstate p ≠ tsStopped → Does (.trainingStart part f) s (code tcTstate)) ∧
        (m.tstate p = tsStopped → found ≠ 0 → Does (.trainingStart part f) s (code found)) ∧
        (m.tstate p = tsStopped → found = 0 →
          let g := m.fld R.COL_TCTL_GEXP_INIT [p]
          let adr (k : Nat) := mkAddr 1 (m.fld R.COL_TAUX_GBLK_BASE [p] * 64 + 64 * (k % 2))
          let blk (k : Nat) := (m.segs p none true (adr k) 64).getD []
          Does (.trainingStart part f) s (fun t => t.m.tstate p = tsRunning ∧ t.m.fld R.COL_TSTATE_CODE [p] = 0 ∧ t.m.tclosed p = stepSub f.toNat 1 ∧
            t.m.fld R.COL_TSCALE_GEXP [p] = g ∧ t.m.fld R.COL_TSCALE_CLEAN [p] = 0 ∧ t.m.fld R.COL_TSCALE_FLOOR_RUN [p] = 0 ∧ t.m.fld R.COL_TSCALE_UPDATES [p] = 0 ∧
            t.m.fld R.COL_TSUMCFG_HEAD [p] = 0 ∧ (t.m.train p).first = f.toNat ∧ (t.m.train p).table = m.readTable p ∧
            (t.m.train p).steps = [TStep.init f.toNat g, TStep.init (stepAdd f.toNat 1) g] ∧ others t ∧ BlocksKept [13] s t ∧
            (∀ k ∈ [f.toNat, stepAdd f.toNat 1], t.m.loadAt p (adr k) 64 =
              leBytes 4 (toF32 (.pow2 (signed 8 g))) ++ leBytes 4 0 ++ leBytes 4 (toF32 (.pow2 (-(signed 8 g)))) ++ leBytes 52 0) ∧
            MemKeptButSegs (some (blk f.toNat ++ blk (stepAdd f.toNat 1))) s t))) ∧
      (let open' := w.steps.any (fun u => m.stepOpen p u.step && m.stepTouched p u)
       (m.tstate p = tsStopped → Does (.trainingStop part) s (code tcTstate)) ∧
       (m.tstate p = tsRunning → open' = true →
         Does (.trainingStop part) s (fun t => t.m.tstate p = tsStopping ∧ t.m.train p = w ∧ RegsKeptBut [R.COL_TSTATE_STATE.addr [p]] s t ∧ MemKept s t ∧ others t)) ∧
       (m.tstate p = tsRunning → open' = false → Does (.trainingStop part) s (fun t => t.m.tstate p = tsStopped ∧ (t.m.train p).steps = [] ∧
         RegsKeptBut [R.COL_TSTATE_STATE.addr [p]] s t ∧ MemKept s t ∧ others t))) ∧
      (∀ n : BitVec 32, m.tstate p ≠ tsStopped → stepLe n.toNat (m.tclosed p) = false →
        (∀ u, m.tstep p n.toNat = some u → m.stepOpen p n.toNat = true →
          Does (.trainingClose part n) s (fun t => t.m.tstep p n.toNat = some { u with closeReq := true } ∧ RegsKept s t ∧ MemKept s t ∧ others t)) ∧
        (m.tstep p n.toNat = none ∨ m.stepOpen p n.toNat = false → Does (.trainingClose part n) s (code tcTstate))) ∧
      (∀ mode : Fin 4, let last := m.fld R.CKP_STATUS_LAST [p]
        (m.fld R.COL_TEXPORT_STATUS_STATE [p] = 1 → Does (.exportStart part mode) s (code tcTstate)) ∧
        (m.fld R.COL_TEXPORT_STATUS_STATE [p] ≠ 1 → bitAt (m.fld R.CKP_STATUS_VALID [p]) last = false → Does (.exportStart part mode) s (code tcExportNone)) ∧
        (m.fld R.COL_TEXPORT_STATUS_STATE [p] ≠ 1 → bitAt (m.fld R.CKP_STATUS_VALID [p]) last = true → mode ≠ 3 →
          Does (.exportStart part mode) s (fun t => t.m.fld R.COL_TEXPORT_STATUS_STATE [p] = 1 ∧ t.m.fld R.COL_TEXPORT_STATUS_MODE [p] = mode ∧
            t.m.fld R.COL_TEXPORT_STATUS_BYTES [p] = 0 ∧ (t.m.ckpt p).expSlot = last ∧ (t.m.ckpt p).expStep = m.fld R.CKP_STATUS_LAST_STEP [p] ∧ others t ∧
            RegsKeptBut [R.COL_TEXPORT_STATUS_STATE.addr [p]] s t ∧ (m.fld R.CKP_CTL_DEST [p] ≠ 2 → MemKept s t))))) ∧
    (m.fld R.COL_TEXPORT_STATUS_STATE [p] = 1 →
      let dst := m.partHostKey p (m.fld R.COL_TEXPORT_ADDR_ADDR [p] * 4096)
      let below (t : State) : Prop := ∀ k, k < dst → k < exportKey p 0 ∨ exportKey p 0 + 2 ^ 48 ≤ k → readByte t.m.mem k = readByte s.m.mem k
      let ends (state : Nat) (t : State) : Prop := t.m.fld R.COL_TEXPORT_STATUS_STATE [p] = state ∧ others t ∧ below t
      (m.accepts = true → Does (.exportAbort part) s (fun t => ends 0 t ∧ RegsKeptBut [R.COL_TEXPORT_STATUS_STATE.addr [p]] s t)) ∧
      (m.running = true → m.shut p = false →
        Does (.exportDone part false) s (fun t => ends 4 t ∧ t.m.fld R.COL_TSTATE_CODE [p] = tcHostWrite ∧
          RegsKeptBut [R.COL_TEXPORT_STATUS_STATE.addr [p], R.COL_TSTATE_CODE.addr [p]] s t) ∧
        (m.portUp p = true → m.exportRead p = true → Does (.exportDone part true) s (fun t => ends 2 t ∧ RegsKeptBut [R.COL_TEXPORT_STATUS_STATE.addr [p]] s t ∧
          t.m.load dst 13 = exMagic ++ leBytes 4 (m.ckpt p).expStep ++ leBytes 1 (m.fld R.COL_TEXPORT_STATUS_MODE [p]))) ∧
        (m.exportRead p = false ∨ m.portUp p = false → Does (.exportDone part true) s (fun t => t = s)))) ∧
    (∀ (stage : BitVec 16) (e : List Byte), m.conf.cfg.stagePart stage.toNat = p → m.conf.cfg.scheduleOf stage.toNat = some e → m.tstate p = tsRunning →
      (m.schedStages p).contains stage.toNat = true →
      let k := Tbl.get 0 w.slots stage.toNat
      let o := 16 + 4 * (k % m.schedSlots stage.toNat)
      let st := leAt e (o + 1) 1
      let panes := m.conf.cfg.stagePanes stage.toNat
      st < 3 → m.stepOpen p (stepAdd w.first (k / m.schedSlots stage.toNat)) = true →
      (panes.all (fun q => (m.sstate q st == ssIdle || m.sstate q st == ssFault) && m.mayStart p q)) = true →
      Does (.slotLaunch stage) s (fun t => Tbl.get 0 (t.m.train p).slots stage.toNat = k + 1 ∧ MemKept s t ∧ others t ∧
        (∀ q ∈ panes, t.m.sstate q st = ssRun ∧ t.m.pc q st = 3 * leAt e o 1 + st) ∧ (∀ q : Nat, q ∉ panes → t.m.pane q = m.pane q)))

/-- Buckets, the gate, the update passes and the boundary of a step (07_student_training.md, R286, R287, R294, R295, R301 to R307). On a data
axis of size 1 a bucket that does not clip ends at its hand-off with its figures and one contribution, one that clips with its norm pass; on
a larger axis it is handed off. Once every bucket of the lowest step with no gate has ended, its gate opens: a finite verdict counts an
update, an overflow skips it and clears CLEAN. A chunk goes from not begun to staged by pass 1, which puts pass 2 into its owner's vector
queue; to computed by pass 2, from the head of that queue; to written. Both passes write only the owner's part of the staging area (its layout
is log entry 68), the write the planes and moments of its entry; the last chunk of an entry ends it and counts its TOKEN on the owner panes.
The boundary closes the lowest open step that is done, advances CLOSED and the ring head by one and drops the step. -/
def Obligations.TrainingSteps : Prop :=
  ∀ (s : State) (part : PartId),
    let m := s.m
    let p := part.val + 1
    let w := m.train p
    let others (t : State) : Prop := OuterKept s t ∧ ∀ q : Nat, q ≠ p → t.m.train q = m.train q
    let quiet (t : State) : Prop := others t ∧ RegsKept s t ∧ MemKept s t
    (∀ (n : BitVec 32) (b : BitVec 16) (u : TStep), m.tstep p n.toNat = some u →
      let ends (t : State) : Prop := quiet t ∧ ∃ v, t.m.tstep p n.toNat = some v ∧ b.toNat ∈ v.done ∧ v.present = u.present + 1 ∧ v.gated = u.gated ∧
        ∀ x ∈ m.bucketEntries p b.toNat, ((Tbl.get EntrySt.init v.entries x.2).gsq, (Tbl.get EntrySt.init v.entries x.2).nonfinite) = m.measure p x.1
      (m.tstate p ≠ tsStopped → m.tfrozen p = false → m.stepOpen p n.toNat = true → (m.buckets p).contains b.toNat = true → u.handed.contains b.toNat = false →
        (1 < m.axisSize p 0 ∨ m.bucketClips p b.toNat = true → Does (.bucketHandoff part n b) s (fun t => quiet t ∧
          t.m.tstep p n.toNat = some { u with handed := insertNat b.toNat u.handed })) ∧
        (m.axisSize p 0 = 1 → m.bucketClips p b.toNat = false → Does (.bucketHandoff part n b) s ends)) ∧
      (m.axisSize p 0 = 1 → u.handed.contains b.toNat = true → u.done.contains b.toNat = false → m.running = true → m.shut p = false →
        Does (.normPassDone part n b) s ends)) ∧
    (∀ u : TStep, m.tstate p ≠ tsStopped → m.tfrozen p = false → m.gateStep p = some u → m.inHier p = false →
      Does (.updateGateOpen part) s (fun t => others t ∧ BlocksKept [13] s t ∧ (∃ v, t.m.tstep p u.step = some v ∧ v.gated = true ∧ v.skipped = m.overflows p u) ∧
        (m.overflows p u = false → t.m.fld R.COL_TSCALE_UPDATES [p] = (m.fld R.COL_TSCALE_UPDATES [p] + 1) % 2 ^ 32 ∧ t.m.fld R.COL_TSCALE_FLOOR_RUN [p] = 0) ∧
        (m.overflows p u = true → t.m.fld R.COL_TSCALE_UPDATES [p] = m.fld R.COL_TSCALE_UPDATES [p] ∧ t.m.fld R.COL_TSCALE_CLEAN [p] = 0))) ∧
    (∀ (i : BitVec 16) (c : BitVec 32) (u : TStep) (e : List Byte) (q : Nat), m.tstate p ≠ tsStopped → m.updStuck p = none → m.updEntry p i.toNat = some (u, e) →
      m.chunkOwner e c.toNat = some q → m.running = true → m.shut p = false →
      let x := Tbl.get EntrySt.init u.entries i.toNat
      let chunk (y : TStep) : ChunkSt := Tbl.get ChunkSt.init (Tbl.get EntrySt.init y.entries i.toNat).chunks c.toNat
      let o := c.toNat * chunkLen
      let y := chunk u
      let cmd := passCmd p u.step (ueLayer e) i.toNat c.toNat
      let queue := R.PNE_QUEUE_VECTOR.addr [q]
      let put (off : Nat) (bs : List Byte) := (m.segs p none true (mkAddr 2 off) bs.length).getD []
      let stageAt (off n : Nat) := m.segs p none true (mkAddr 1 (m.fld R.COL_TSTAGE_BASE [p] * 64 + off)) n
      let staged (phase : Nat) (l : List Nat) := ((m.tableOwners w.table).findIdx? (fun k => k == q)).bind (fun k =>
        stageAt (2 ^ 17 + k * 2 ^ 20) ((Config.stageLayout phase l).take (2 ^ 20)).length)
      (y.phase = 0 → c.toNat < ueChunks e → m.tfrozen p = false → m.mayPass p q = true → m.entriesBefore p u i.toNat (dieOf q) = true →
        Does (.updatePass1 part i c []) s (fun t => others t ∧ RegsKeptBut [queue] s t ∧ ((m.pane q).vq.length < queueSize .vector → cmd ∈ (t.m.pane q).vq) ∧
          ∃ v, t.m.tstep p u.step = some v ∧ (chunk v).phase = 1 ∧ (chunk v).pane = q ∧ MemKeptButSegs (staged 1 ((chunk v).m1 ++ (chunk v).m2)) s t)) ∧
      (∀ l, y.phase = 1 → m.tfrozen p = false → m.mayPass p q = true → (m.pane q).vrun = none → (m.pane q).vq = cmd :: l →
        let n := min chunkLen (ueCount e - o)
        let hi := (m.hbmBytes p (ueW e + 2 * o) (2 * n)).1
        let lo := (m.hbmBytes p (ueLo e + 2 * o) (2 * n)).1
        Does (.updatePass2 part i c) s (fun t => others t ∧ (t.m.pane q).vq = l ∧ (∀ a, a ≠ queue → a / 2 ^ 20 ∉ [15, 17] → Regs.word t.m.regs a = Regs.word s.m.regs a) ∧
          ∃ v, t.m.tstep p u.step = some v ∧ (chunk v).phase = 2 ∧ (chunk v).m1 = y.m1 ∧ (chunk v).m2 = y.m2 ∧
            (chunk v).master = (List.range n).map (fun k => (masterOf (ueRule e) (ueDecay e) x (f32 (y.m1.getD k 0)) (f32 (y.m2.getD k 0))
              (leAt hi (2 * k) 2 * 65536 + leAt lo (2 * k) 2)).1) ∧
            MemKeptButSegs (staged 2 ((chunk v).master ++ y.m1 ++ y.m2)) s t)) ∧
      (y.phase = 2 →
        let segs := put (ueW e + 2 * o) (y.master.flatMap (fun v => leBytes 2 (v / 65536))) ++ put (ueLo e + 2 * o) (y.master.flatMap (fun v => leBytes 2 (v % 65536))) ++
          put (ueM e + 4 * o) (packElems 32 y.m1) ++ put (ueM2 e + 4 * o) (packElems 32 y.m2)
        let last : Prop := ∀ k, k < ueChunks e → k ≠ c.toNat → (Tbl.get ChunkSt.init x.chunks k).phase = 3
        let written (t : State) : Prop := others t ∧ RegsKept s t ∧ ∃ v, t.m.tstep p u.step = some v ∧ (chunk v).phase = 3 ∧
          ((Tbl.get EntrySt.init v.entries i.toNat).ended = true ↔ last)
        (¬ last → Does (.updateChunkWrite part i c) s (fun t => written t ∧ t.m.core.panes = m.core.panes ∧ MemKeptButSegs (some segs) s t)) ∧
        (last → (m.owners e).Nodup → Does (.updateChunkWrite part i c) s (fun t => written t ∧
          (∀ r ∈ m.owners e, m.paneOwner r = p → ueToken e ≤ 63 → (t.m.pane r).token (ueToken e) =
            { (m.pane r).token (ueToken e) with count := min 255 (((m.pane r).token (ueToken e)).count + 1) }) ∧
          MemKeptButSegs (some (segs ++ (t.m.train p).layers.flatMap (fun z => (stageAt (32 * z.1) 32).getD []))) s t)))) ∧
    (∀ u : TStep, LouvresOk m → m.closeReady p = some u → m.stepSplits p u.step = [] → m.ckState p = ckIdle → m.inHier p = false → (m.hier p).orphan = false →
      Does (.stepBoundary part) s (fun t => others t ∧ t.m.tclosed p = stepAdd (m.tclosed p) 1 ∧
        t.m.fld R.COL_TSUMCFG_HEAD [p] = (m.fld R.COL_TSUMCFG_HEAD [p] + 1) % 2 ^ 32 ∧ ∀ y ∈ (t.m.train p).steps, y.step ≠ u.step))

/-- Requests of a serving partition, their fetches and the atlas (08_serving.md, R328, R332 to R339, R346, R353 to R360). A request of an
enabled serving partition that is ACTIVE or DRAINING leaves the front of its window when its row runs. ADMIT that passes R337 begins its
prompt fetch and otherwise is refused and counted; the fetch's end makes the entry or refuses it, and no fetch succeeds while the host port is
down. CANCEL ends an ADMITTED entry CANCELLED, waits on a later live one, and answers otherwise with an event. RETIRE frees an ended entry,
RELEASE a handle, MIGRATE moves a decoding entry towards its target; what they may not do is refused with its code. The overlay requests
begin a fetch or end a current version. ATLAS_REGISTER makes an EMPTY slot READY with the next version,
ATLAS_DROP empties one that is unused, each with its code where it may not. -/
def Obligations.ServingRequests : Prop :=
  ∀ (s : State),
    let m := s.m
    let frame (t : State) : Prop := OuterKept s t ∧ BlocksKept [5] s t
    (∀ (part : PartId) (d : Desc) (at_ : Nat), m.accepts = true → m.shut (part.val + 1) = false → m.flag R.GZT_PCFG_ENABLE [part.val + 1] = true →
      m.pstate (part.val + 1) = psActive ∨ m.pstate (part.val + 1) = psDraining → m.part.tearing.contains (part.val + 1) = false → m.admFront (part.val + 1) = some (d, at_) →
      (m.adm (part.val + 1)).poison.contains ((m.adm (part.val + 1)).disp % 1024) = false → rqOk d = true → m.prState (part.val + 1) ≠ prPromoting →
      let p := part.val + 1
      let e := rqEntry d
      let v := d.w4.toNat
      let taken (t : State) : Prop := (t.m.adm p).disp = ((m.adm p).disp + 1) % 2 ^ 32 ∧ frame t ∧ MemKept s t
      let refused (t : State) : Prop := taken t ∧ t.m.gzt.ents = m.gzt.ents ∧ t.m.fld R.GZT_PSTAT_REFUSED [p] = min (m.fld R.GZT_PSTAT_REFUSED [p] + 1) (2 ^ 16 - 1)
      let answered (r : List Byte) (t : State) : Prop := taken t ∧ ∃ k, (m.now, k, r) ∈ Tbl.get [] t.m.gzt.events p
      let denied (code : Nat) : State → Prop := answered (eventBytes d.w0.toNat 0xFFFF ekRefused code 0 0 0 0)
      (rqOp d = 1 →
        (∀ code, m.admitCheck p d at_ = .error code → Does (.admitReq part) s refused) ∧
        (∀ i x, m.admitCheck p d at_ = .ok (i, x) → Does (.admitReq part) s (fun t => taken t ∧ t.m.ent p i = GEnt.init ∧
          t.m.fetchesOf p = m.fetchesOf p ++ [⟨i, d.w2.toNat, x⟩]))) ∧
      (rqOp d = 2 →
        (m.named p d = none → Does (.cancel part) s (answered (eventBytes d.w0.toNat e ekCancel gcNotFound 0 0 0 0))) ∧
        (∀ x, m.named p d = some x →
          (x.st = gsAdmitted → Does (.cancel part) s (fun t => taken t ∧ (t.m.ent p e).st = gsCancelled ∧ (t.m.ent p e).endc = gcCancelled ∧ (t.m.ent p e).units = [] ∧
            answered (eventBytes x.tag e ekCancel gcOk 0 0 0 0) t)) ∧
          (x.st ≠ gsAdmitted → gsLive x.st = true → Does (.cancel part) s (fun t => taken t ∧ t.m.ent p e = { x with cancels := x.cancels ++ [at_] })) ∧
          (gsLive x.st = false → Does (.cancel part) s (answered (eventBytes x.tag e ekCancel gcAlreadyDone x.st 0 0 0))))) ∧
      (rqOp d = 3 →
        (m.named p d = none → Does (.retire part) s (fun t => denied gcNotFound t ∧ t.m.gzt.ents = m.gzt.ents)) ∧
        (∀ x, m.named p d = some x → gsLive x.st = false → Does (.retire part) s (fun t => taken t ∧ t.m.ent p e = GEnt.init)) ∧
        (∀ x, m.named p d = some x → gsLive x.st = true → Does (.retire part) s (fun t => denied gcNotFound t ∧ t.m.gzt.ents = m.gzt.ents))) ∧
      (rqOp d = 4 → ∀ h, Tbl.get none m.gzt.handles (p * 4096 + v % 65536 % 4096) = some h → v % 65536 < 4096 → h.serial = v / 65536 →
        Does (.handleRelease part) s (fun t => answered (eventBytes d.w0.toNat 0xFFFF ekReleased gcOk 0 0 0 0) t ∧
          Tbl.get none t.m.gzt.handles (p * 4096 + v % 4096) = none)) ∧
      (rqOp d = 4 → (∀ h, Tbl.get none m.gzt.handles (p * 4096 + v % 65536 % 4096) = some h → ¬ (v % 65536 < 4096 ∧ h.serial = v / 65536)) →
        Does (.handleRelease part) s (answered (eventBytes d.w0.toNat 0xFFFF ekReleased gcNotFound 0 0 0 0))) ∧
      (rqOp d = 5 → (m.named p d = none → Does (.migrate part) s (denied gcNotFound)) ∧ ∀ x, m.named p d = some x →
        let may : Prop := x.st = gsDecode ∧ m.pipePart (rqPipe d) = p ∧ m.takesEntry (rqPipe d) x = true
        (may → Does (.migrate part) s (fun t => taken t ∧ t.m.ent p e = { x with st := gsMigrating, target := rqPipe d + 1 })) ∧
        (¬ may → Does (.migrate part) s (fun t => denied gcPipeline t ∧ t.m.gzt.ents = m.gzt.ents))) ∧
      (rqOp d = 6 → rqOverlay d ≠ 0xFFFF → rqCount d ≠ 0 → rqCount d % 64 = 0 → m.modelOk p (rqModel d) = true →
        (m.ovlsOf p).length + (m.ovlFetchesOf p).length < m.fld R.GZT_PQUOTA_OVL_VERS [p] →
        ((m.ovlsOf p).filter (fun o => o.id == rqOverlay d)).length + ((m.ovlFetchesOf p).filter (fun o => o.id == rqOverlay d)).length < 4 →
        ∀ u, m.unitRun p (ceilDiv (rqCount d) (max 1 (m.kvUnitBytes p))) = some u → Does (.ovlLoad part) s (fun t => taken t ∧
          t.m.ovlFetchesOf p = m.ovlFetchesOf p ++ [⟨d.w0.toNat, rqOverlay d, rqModel d, d.w2.toNat, rqCount d,
            (List.range (ceilDiv (rqCount d) (max 1 (m.kvUnitBytes p)))).map (fun i => u + i)⟩])) ∧
      (rqOp d = 7 → ∀ o, m.ovlCurrent p (rqOverlay d) (rqModel d) = some o → Does (.ovlDrop part) s (fun t => answered (eventBytes d.w0.toNat 0xFFFF ekOverlay gcOk o.version (rqOverlay d) 0 0) t ∧
        o ∉ t.m.ovlsOf p))) ∧
    (∀ (part : PartId), m.shut (part.val + 1) = false →
      let p := part.val + 1
      (∀ f l, m.fetchesOf p = f :: l →
        Does (.promptFetchDone part .fails) s (fun t => frame t ∧ MemKept s t ∧ t.m.fetchesOf p = l ∧ t.m.gzt.ents = m.gzt.ents ∧
          t.m.fld R.GZT_PSTAT_REFUSED [p] = min (m.fld R.GZT_PSTAT_REFUSED [p] + 1) (2 ^ 16 - 1)) ∧
        ∀ ep, (m.portUp p = false → Does (.promptFetchDone part (.good ep)) s (fun t => t = s)) ∧
        (m.portUp p = true → Does (.promptFetchDone part (.good ep)) s (fun t => frame t ∧ t.m.fetchesOf p = l ∧ (t.m.ent p f.idx).tag = f.ent.tag ∧ (t.m.ent p f.idx).st = f.ent.st ∧
          (t.m.ent p f.idx).tLast = m.now ∧ (t.m.ent p f.idx).order = m.gzt.order))) ∧
      (∀ f l, m.ovlFetchesOf p = f :: l →
        Does (.overlayFetchDone part .fails) s (fun t => frame t ∧ MemKept s t ∧ t.m.ovlFetchesOf p = l ∧ t.m.ovlsOf p = m.ovlsOf p) ∧
        ∀ ep, (m.portUp p = false → Does (.overlayFetchDone part (.good ep)) s (fun t => t = s)) ∧
        (m.portUp p = true → Does (.overlayFetchDone part (.good ep)) s (fun t => frame t ∧ t.m.ovlFetchesOf p = l ∧
          (⟨f.id, f.model, Tbl.get 0 m.gzt.ovlTop (p * 65536 + f.id) + 1, f.units, true⟩ : OvlVer) ∈ t.m.ovlsOf p)))) ∧
    (∀ (o : OwnerId) (i : Fin 64), m.accepts = true →
      let only (t : State) : Prop := OnlyRegs [R.GZT_ATLAS_STATE.addr [i], R.GZT_ATLAS_DESC_WORD.addr [i, 0]] s t
      let good := m.atlasAt i 0 1 = o ∧ 1 ≤ m.atlasVocab i ∧ m.atlasVocab i ≤ 2 ^ 20 ∧ 64 ≤ m.atlasCtx i ∧ m.atlasCtx i % 64 = 0 ∧ m.atlasCtx i ≤ 2 ^ 20 ∧
        1 ≤ m.atlasAt i 18 2 ∧ m.atlasAt i 18 2 ≤ 24 ∧ m.atlasAt i 24 40 = 0
      let is (st code : Nat) (t : State) : Prop := t.m.fld R.GZT_ATLAS_STATE [i] = st ∧ t.m.fld R.GZT_ATLAS_CODE [i] = code ∧ only t
      (m.atlasMay o i = false → Does (.atlasRegister o i) s (fun t => t = s) ∧ Does (.atlasDrop o i) s (fun t => t = s)) ∧
      (m.atlasMay o i = true →
        (m.fld R.GZT_ATLAS_STATE [i] ≠ 0 → Does (.atlasRegister o i) s (is (m.fld R.GZT_ATLAS_STATE [i]) gcSlotBusy)) ∧
        (m.fld R.GZT_ATLAS_STATE [i] = 0 → good → Does (.atlasRegister o i) s (fun t => is 1 gcOk t ∧ t.m.atlasVer i = if m.atlasVer i = 0xFFFF then 1 else m.atlasVer i + 1)) ∧
        (m.fld R.GZT_ATLAS_STATE [i] = 0 → ¬ good → Does (.atlasRegister o i) s (is 0 gcBadModel)) ∧
        (m.fld R.GZT_ATLAS_STATE [i] = 1 → m.atlasUsed i = false → Does (.atlasDrop o i) s (is 0 gcOk)) ∧
        (m.fld R.GZT_ATLAS_STATE [i] ≠ 1 ∨ m.atlasUsed i = true → Does (.atlasDrop o i) s (is (m.fld R.GZT_ATLAS_STATE [i]) gcSlotBusy))))

/-- Pipelines, samplers, seals and the output ring (08_serving.md, R326, R334, R340 to R345, R347, R349, R350, R366). ENABLE of a DISABLED
pipeline that may run makes it IDLE at step 0, or leaves code 1; DISABLE drains it and disables it at once with nothing bound. Where every
entry of the partition decodes, a step opens with a decode row for each ready entry of its group, in order, and runs stage 0. A logit shard
joins its row at a sampler, waits for a slot, or is discarded; a complete row is sampled into its step, or marked where it carries poison;
SEAL ends a step that has all it expects, moves STEP and queues its batch. A batch goes to the ring with HEAD moved by what was written, or
waits for room; event records likewise, as many as fit. TAIL follows a write within HEAD; an ended entry past LINGER becomes FREE. -/
def Obligations.ServingSteps : Prop :=
  ∀ s : State,
    let m := s.m
    (∀ n : PipeId, m.pipePart n ≤ 32 →
      let p := m.pipePart n
      let frame (t : State) : Prop := OuterKept s t ∧ MemKept s t ∧ BlocksKept [5] s t
      let fit : Prop := 1 ≤ (m.plStages n).length ∧ (m.plStages n).length ≤ 24 ∧ m.conf.cfg.shared p = false ∧ m.fld R.GZT_PIPECTL_SAMPLERS [n] ≠ 0 ∧
        (∀ st ∈ m.plStages n, ∃ e, m.conf.cfg.stage st = some e ∧ leAt e 3 1 = 3 ∧ m.conf.cfg.stagePart st = p) ∧
        (∀ k : Nat, k < 32 → k ≠ n → m.plState k ≠ plDisabled → ∀ st ∈ m.plStages k, st ∉ m.plStages n)
      (m.accepts = true → m.plState n ≠ plDisabled → Does (.pipelineEnable n) s (fun t => t = s)) ∧
      (m.accepts = true → m.plState n = plDisabled → ¬ fit → Does (.pipelineEnable n) s (fun t => t.m.fld R.GZT_PIPESTAT_CODE [n] = 1 ∧ t.m.plState n = plDisabled ∧
        t.m.fld R.GZT_PIPECTL_ENABLE [n] = 0 ∧ OnlyRegs [R.GZT_PIPESTAT_CODE.addr [n], R.GZT_PIPECTL_ENABLE.addr [n]] s t)) ∧
      (m.accepts = true → m.plState n = plDisabled → fit → Does (.pipelineEnable n) s (fun t => t.m.plState n = plIdle ∧ t.m.fld R.GZT_PIPESTAT_CODE [n] = 0 ∧
        t.m.fld R.GZT_PIPECTL_ENABLE [n] = 1 ∧ t.m.fld R.GZT_PIPESTAT_STEP [n] = 0 ∧ t.m.pipe n = Pipe.init ∧ frame t)) ∧
      (m.accepts = true → m.plOn n = true → (m.pipe n).opened ≠ [] → Does (.pipelineDisable n) s (fun t => t.m.plState n = plDraining ∧ t.m.pipe n = m.pipe n ∧
        t.m.fld R.GZT_PIPECTL_ENABLE [n] = 0 ∧ frame t)) ∧
      (m.accepts = true → m.plOn n = true → (m.pipe n).opened = [] → m.plBound n = [] → Does (.pipelineDisable n) s (fun t => t.m.plState n = plDisabled ∧
        t.m.pipe n = Pipe.init ∧ frame t)) ∧
      (let j := (m.pipe n).next % m.plGroups n
       let rows := sortBy decodeBefore ((m.entsOf p).filter (fun y => y.2.pipe == n.val && y.2.group == j))
       m.mayOpen n = true → m.prState p ≠ prPromoting → (∀ y ∈ m.entsOf p, y.2.st = gsDecode) → rows ≠ [] →
        rows.length ≤ m.fld R.GZT_PIPECFG_MAX_ROWS [n] → (∀ y ∈ rows, m.maskReady p y.2 y.2.length = true) → Does (.stepOpen n) s (fun t => OuterKept s t ∧
          (t.m.pipe n).next = (m.pipe n).next + 1 ∧ (∀ q ∈ m.conf.cfg.stagePanes (m.fld R.GZT_PIPECTL_FIRST_STAGE [n]), t.m.sstate q 0 = ssRun) ∧
          (t.m.pipe n).opened = (m.pipe n).opened ++
            [⟨(m.pipe n).next, j, m.now, rows.map (fun y => y.2.decodeRow y.1), (m.pipe n).retry.contains j, false⟩] ∧
          ∀ a, a < 0x2000000 → a / 2 ^ 20 ∉ [5, 15] → Regs.word t.m.regs a = Regs.word s.m.regs a)) ∧
      (∀ st, m.sealable n = some st → m.running = true → m.pstate p ≠ psNone → m.shut p = false → Does (.sealStep n) s (fun t => OuterKept s t ∧
        (∀ y ∈ (t.m.pipe n).opened, y.n ≠ st.n) ∧ t.m.fld R.GZT_PIPESTAT_STEP [n] = st.n % 2 ^ 32 ∧
        ∃ b, t.m.batchesOf p = m.batchesOf p ++ [b] ∧ b.step = st.n % 2 ^ 32 ∧ b.pipe = n.val ∧ b.retried = st.retry))) ∧
    (∀ (rt : RouteId) (d : DieId) (e : List Byte) (x : Xfer), m.conf.cfg.route rt = some e → m.xfersOf rt = x :: (m.xfersOf rt).drop 1 →
      routeDst e = isl 2 d → m.running = true → m.core.stopped.contains (isl 2 d) = false → m.shut (leAt e 3 1) = false → x.pane < 384 →
      m.routeTested e = false → m.routeDead e = false → x.more = false → m.tokenFull (leAt e 3 1) x = false →
      let n := leAt x.bytes 28 1
      let mine (r : SmpRow) : Bool := r.pipe == n && r.row.step == leAt x.bytes 0 4 && r.row.seqId == leAt x.bytes 4 4 && r.row.pos == leAt x.bytes 8 4
      let meant : Prop := n < 32 ∧ leAt x.bytes 30 1 = 4 ∧ m.pipePart n = leAt e 3 1 ∧ bitAt (m.fld R.GZT_PIPECTL_SAMPLERS [n]) d = true ∧
        (m.expected n (leAt x.bytes 0 4) (leAt x.bytes 4 4) (leAt x.bytes 8 4)).isSome = true ∧ ∀ k : Nat, k < 8 → k ≠ d → ∀ r ∈ m.smp k, mine r = false
      let fate := placeShard (((m.smp d).filter mine).map (fun r => r.row)) (m.smp d).length 8 (m.atlasVocab (m.fld R.GZT_PIPESTAT_MODEL [n])) false x.bytes x.poisoned
      let gone (t : State) : Prop := t.m.xfersOf rt = (m.xfersOf rt).drop 1 ∧ MemKept s t ∧ OuterKept s t ∧ ∀ o : Nat, o ≠ x.pane → t.m.pane o = m.pane o
      (∀ l, meant → fate = .joins l → Does (.samplerShard rt) s (fun t => gone t ∧ RegsKept s t ∧
        t.m.smp d = (m.smp d).filter (fun r => !mine r) ++ l.map (fun r => ⟨n, r⟩))) ∧
      (meant → fate = .waits → Does (.samplerShard rt) s (fun t => t = s)) ∧
      (¬ meant ∨ fate = .invalid → Does (.samplerShard rt) s (fun t => gone t ∧ t.m.smp d = m.smp d ∧
        t.m.fld R.SMP_COUNT_DISCARDS [d] = min (m.fld R.SMP_COUNT_DISCARDS [d] + 1) 65535 ∧ RegsKeptBut [R.SMP_COUNT_DISCARDS.addr [d]] s t))) ∧
    (∀ (d : DieId) (r : SmpRow) (st : SStep) (w : SRow), (m.smp d).find? (fun r => r.row.complete && !m.shut (m.pipePart r.pipe)) = some r → m.running = true →
      m.core.stopped.contains (isl 2 d) = false → m.expected r.pipe r.row.step r.row.seqId r.row.pos = some (st, w) →
      let p := m.pipePart r.pipe
      let x := m.ent p r.row.seqId
      let mb := if x.gmask = 0 then [] else m.loadAt p (BitVec.ofNat 64 (x.gmask + 64)) (ceilDiv (m.atlasVocab x.model) 512 * 64)
      let o := sampleRow x.profile (BitVec.ofNat 64 x.seed) r.row.pos (fun t => x.gmask == 0 || bitAt ((mb.getD (t / 8) 0).toNat) (t % 8))
        (m.lookBack p r.row.seqId) r.row.values.flatten
      Does (.sampleRow d) s (fun t => t.m.smp d = (m.smp d).filter (fun y => y != r) ∧ t.m.fld R.SMP_COUNT_ROWS [d] = min (m.fld R.SMP_COUNT_ROWS [d] + 1) (2 ^ 32 - 1) ∧
        (t.m.pipe r.pipe).opened = (m.pipe r.pipe).opened.map (fun y => if y.n = st.n then
          { y with rows := y.rows.map (fun z => if z.idx = w.idx then
            (if r.row.poisoned then { w with poisoned := true } else { w with sampled := o.1, tok := o.2.1, lp := o.2.2 }) else z) } else y) ∧
        RegsKeptBut [R.SMP_COUNT_ROWS.addr [d]] s t ∧ MemKept s t ∧ OuterKept s t)) ∧
    (∀ (part : PartId), m.running = true → m.shut (part.val + 1) = false →
      let p := part.val + 1
      let head := m.fld R.GZT_POUT_HEAD_HEAD [p]
      let wrote (n pad : Nat) (t : State) : Prop := t.m.fld R.GZT_POUT_HEAD_HEAD [p] = (head + pad + n) % 2 ^ 64 ∧ RegsKeptBut [R.GZT_POUT_HEAD_HEAD.addr [p]] s t ∧
        OuterKept s t ∧ ∀ k, k < m.partHostKey p 0 → readByte t.m.mem k = readByte s.m.mem k
      (∀ b l, m.batchesOf p = b :: l → m.mirrored p b.mark = true →
        (m.ringPlan p b.size = none → Does (.outputBatchWrite part) s (fun t => t.m.batchesOf p = { b with waited := true } :: l ∧ RegsKept s t ∧ MemKept s t ∧ OuterKept s t)) ∧
        (∀ pad, m.ringPlan p b.size = some pad → pad = 0 ∨ 64 ≤ pad → Does (.outputBatchWrite part) s (fun t => t.m.batchesOf p = l ∧ wrote b.size pad t))) ∧
      (let waiting := Tbl.get [] m.gzt.events p
       let now := m.eventsNow p
       (now = [] → Does (.eventBatchWrite part) s (fun t => t = s)) ∧
       (∀ pad, now ≠ [] → m.ringPlan p (eventBatch now).size = some pad → pad = 0 ∨ 64 ≤ pad → Does (.eventBatchWrite part) s (fun t =>
         Tbl.get [] t.m.gzt.events p = waiting.drop now.length ∧ wrote (eventBatch now).size pad t)) ∧
       (∀ pad, waiting ≠ [] → waiting.length ≤ 65535 → m.pairOn p = false → m.ringPlan p (eventBatch waiting).size = some pad → pad = 0 ∨ 64 ≤ pad →
         Does (.eventBatchWrite part) s (fun t => Tbl.get [] t.m.gzt.events p = [] ∧ wrote (eventBatch waiting).size pad t)))) ∧
    (∀ (part : PartId) (v : Word), m.accepts = true →
      let old := m.fld R.GZT_POUT_TAIL_TAIL [part.val + 1]
      let room := (m.fld R.GZT_POUT_HEAD_HEAD [part.val + 1] + 2 ^ 64 - old) % 2 ^ 64
      ((v.toNat + 2 ^ 64 - old) % 2 ^ 64 ≤ room → Does (.outputRingTailWrite part v) s (fun t => t.m.fld R.GZT_POUT_TAIL_TAIL [part.val + 1] = v.toNat ∧
        OnlyRegs [R.GZT_POUT_TAIL_TAIL.addr [part.val + 1]] s t)) ∧
      (room < (v.toNat + 2 ^ 64 - old) % 2 ^ 64 → Does (.outputRingTailWrite part v) s (fun t => t = s))) ∧
    (∀ g : EntryId,
      let x := Tbl.get GEnt.init m.gzt.ents g
      let p := m.entPart g
      p ≠ 0 → m.shut p = false → x.st ∈ [gsDone, gsCancelled, gsFailed] → m.prState p ≠ prPromoting → m.fld R.GZT_PCFG_LINGER [p] ≠ 0 →
      x.endAt + m.fld R.GZT_PCFG_LINGER [p] * 10000 ≤ m.now → Does (.lingerExpiry g) s (fun t => Tbl.get GEnt.init t.m.gzt.ents g = GEnt.init ∧
        (∀ h : Nat, h ≠ g → Tbl.get GEnt.init t.m.gzt.ents h = Tbl.get GEnt.init m.gzt.ents h) ∧ BlocksKept [5] s t ∧ MemKept s t ∧ OuterKept s t))

/-- Lines, rows, channels and stacks of HBM (09_memory_tiers.md, R373 to R376, R379, R380, R382, R383, R385, R387, R388). A pass of the
scrub takes its lines one by one: it counts a corrected line and changes no byte, and marks a pin corrected in 256 lines of a second, which
makes the channel DEGRADED; a line it cannot correct is counted, poisoned and its row queued for map-out, which uses a spare row, that the
Porter records, or retires the frame. The 64th such line of a second, or a failed training, makes the channel FAILED, and its partitions FAULTED. A reading sets TEMP
and MAX_TEMP and raises LEVEL at once to its own; 105 degrees puts the stack in self-refresh and its partitions become FAULTED. After 1 ms
below its bound LEVEL falls by one. A throttled stack computes its predicted delay and reports it to the manager. RESUME answers TOO_HOT,
BUSY or 0 and ends the self-refresh. -/
def Obligations.MemoryChannelsAndStacks : Prop :=
  ∀ s : State,
    let m := s.m
    let quiet (l : List Nat) (t : State) : Prop := OuterKept s t ∧ MemKept s t ∧ BlocksKept l s t ∧ t.m.core = m.core
    (m.running = true → m.stopping = false → Does (.patrolScrub []) s (fun t => t = s)) ∧
    (∀ (h : LineErr) (l : List LineErr) (t : State), exec (.patrolScrub [h]) s = .next t → t.m.running = true → t.m.stopping = false →
      m.running = true → m.stopping = false → exec (.patrolScrub (h :: l)) s = exec (.patrolScrub l) t) ∧
    (∀ h : LineErr,
      let g := h.frame.val % 512
      let k := frameKey h.frame (h.line.val * 64)
      m.running = true → m.stopping = false → m.chanLive g = true → m.frameGone h.frame = false → m.poison.contains (k / 64) = false →
      (h.pins ≠ [] → (∀ i ∈ h.pins, ((Tbl.get [] m.tier.pinHits (g * 128 + i.val)).length < 200)) → h.pins.length ≤ 2 →
        Does (.patrolScrub [h]) s (fun t => quiet [8, 15, 17] t ∧ t.m.fld R.MEM_CHAN_CORR [g] = min (m.fld R.MEM_CHAN_CORR [g] + 1) (2 ^ 16 - 1) ∧
          t.m.fld R.MEM_CHAN_STATE [g] = m.fld R.MEM_CHAN_STATE [g] ∧ t.m.poison = m.poison)) ∧
      (∀ i : Fin 72, h.pins = [i] → 255 ≤ ((Tbl.get [] m.tier.pinHits (g * 128 + i.val)).filter (fun at' => decide (m.now < at' + second))).length →
        bitAt (Tbl.get 0 m.tier.failedPins g) i.val = false → popCount 72 (Tbl.get 0 m.tier.failedPins g + 2 ^ i.val) ≤ 2 →
        Does (.patrolScrub [h]) s (fun t => quiet [8, 15, 17] t ∧ t.m.fld R.MEM_CHAN_STATE [g] = 2 ∧
          t.m.fld R.MEM_CHAN_PINS [g] = popCount 72 (Tbl.get 0 m.tier.failedPins g + 2 ^ i.val))) ∧
      (h.pins = [] → 63 ≤ ((Tbl.get [] m.tier.uncorrHits g).filter (fun at' => decide (m.now < at' + second))).length →
        m.ownersWhere (fun f => f % 512 == g) = [] → (∀ e ∈ m.tier.frameOwner, e.1 % 512 ≠ g) →
        Does (.patrolScrub [h]) s (fun t => t.m.fld R.MEM_CHAN_STATE [g] = 3 ∧ t.m.poison.contains (k / 64) = true)) ∧
      (h.pins = [] → Tbl.get 0 m.tier.frameOwner h.frame ≤ 32 → (Tbl.get [] m.tier.uncorrHits g).length < 63 →
        Does (.patrolScrub [h]) s (fun t => quiet [8, 15, 17] t ∧ t.m.fld R.MEM_CHAN_UNCORR [g] = min (m.fld R.MEM_CHAN_UNCORR [g] + 1) (2 ^ 16 - 1) ∧
          t.m.poison.contains (k / 64) = true ∧ t.m.tier.rowMoves = m.tier.rowMoves ++ [lineNo h.frame h.line] ∧
          t.m.fld R.MEM_CHAN_STATE [g] = m.fld R.MEM_CHAN_STATE [g]))) ∧
    (∀ (f : Fin 524288) (l : Fin 32768), lineNo f l ∈ m.tier.rowMoves → Tbl.get 0 m.tier.frameOwner f ≤ 32 ∨ 64 ≤ Tbl.get 0 m.tier.frameOwner f →
      Does (.rowMapOutDone f l true) s (fun t => t.nv = { s.nv with rows := insertNat (lineNo f l) s.nv.rows } ∧ t.ext = s.ext ∧ MemKept s t ∧ BlocksKept [17] s t ∧
        t.m.core = m.core ∧ lineNo f l ∉ t.m.tier.rowMoves ∧ t.m.tier.retired = m.tier.retired) ∧
      Does (.rowMapOutDone f l false) s (fun t => quiet [8, 17] t ∧ lineNo f l ∉ t.m.tier.rowMoves ∧ f.val ∈ t.m.tier.retired ∧
        t.m.fld R.MEM_STATUS_FRAMES_RETIRED [] = t.m.tier.retired.length % 2 ^ 20)) ∧
    (∀ g : ChanId, m.running = true → m.chanLive g = true → (∀ e ∈ m.tier.frameOwner, e.1 % 512 = g.val → e.2 < 64) →
      Does (.channelTrainingTimeout g) s (fun t => t.m.fld R.MEM_CHAN_STATE [g] = 3 ∧ OuterKept s t ∧
        ∀ p ∈ m.ownersWhere (fun f => f % 512 == g.val), m.pstate p = psActive → t.m.pstate p = psFaulted)) ∧
    (∀ g : ChanId, m.running = true → m.chanLive g = false → Does (.channelTrainingTimeout g) s (fun t => t = s)) ∧
    (∀ g : ChanId, m.running = true → m.chanLive g = true → m.ownersWhere (fun f => f % 512 == g.val) = [] →
      (∀ e ∈ m.tier.frameOwner, e.1 % 512 ≠ g.val) →
      Does (.channelTrainingTimeout g) s (fun t => quiet [0, 8] t ∧ t.m.fld R.MEM_CHAN_STATE [g] = 3 ∧
        ∀ h : Nat, h < 512 → h ≠ g → t.m.fld R.MEM_CHAN_STATE [h] = m.fld R.MEM_CHAN_STATE [h])) ∧
    (∀ (k : StackId) (x : BitVec 12),
      let c := x.toInt
      let whole := max (-128) (min 127 (c / 10))
      let stk (up : Nat) (t : State) : Prop := t.m.fld R.MEM_STACK_TEMP [k] = wrapInt 8 whole ∧ t.m.fld R.MEM_STACK_LEVEL [k] = up ∧
        t.m.fld R.MEM_STACK_MAX_TEMP [k] = wrapInt 8 (max (signed 8 (m.fld R.MEM_STACK_MAX_TEMP [k])) whole) ∧ Tbl.get 0 t.m.tier.readings k = c
      (c < 1050 → Does (.stackTempReading k x) s (fun t => stk (max (m.fld R.MEM_STACK_LEVEL [k]) (levelOf c)) t ∧ quiet [8] t ∧
        t.m.fld R.MEM_STACK_SHUTDOWN [k] = m.fld R.MEM_STACK_SHUTDOWN [k])) ∧
      (1050 ≤ c → m.ownersWhere (fun f => f % 512 / 32 == k.val) = [] → Does (.stackTempReading k x) s (fun t => stk 7 t ∧ quiet [8] t ∧
        t.m.fld R.MEM_STACK_SHUTDOWN [k] = 1)) ∧
      (1050 ≤ c → m.flag R.MEM_STACK_SHUTDOWN [k] = false → Does (.stackTempReading k x) s (fun t => t.m.fld R.MEM_STACK_SHUTDOWN [k] = 1 ∧ OuterKept s t ∧
        ∀ p ∈ m.ownersWhere (fun f => f % 512 / 32 == k.val), m.pstate p = psActive → t.m.pstate p = psFaulted))) ∧
    (∀ k : StackId,
      let since := Tbl.get 0 m.tier.coolSince k
      (since ≠ 0 → since + 10 ^ 6 ≤ m.now + 1 → Does (.stackLevelFall k) s (fun t => t.m.fld R.MEM_STACK_LEVEL [k] = m.fld R.MEM_STACK_LEVEL [k] - 1 ∧ quiet [8] t ∧
        RegsKeptBut [R.MEM_STACK_LEVEL.addr [k]] s t)) ∧
      (since = 0 ∨ m.now + 1 < since + 10 ^ 6 → Does (.stackLevelFall k) s (fun t => t = s)) ∧
      (∀ (part : PartId) (q : Nat), m.running = true →
        let p := part.val + 1
        let l := m.fld R.MEM_STACK_LEVEL [k]
        let e := min (2 ^ 32 - 1) (Mach.delayOf l q)
        (l = 0 → Does (.predictedDelayReport k part q) s (fun t => t = s)) ∧
        (l ≠ 0 → l ≤ 6 → m.fld R.COL_CSTAT_INFLIGHT [p] ≠ 0 → (m.ownersWhere (fun f => f % 512 / 32 == k.val)).contains p = true →
          let mgr := if m.fld R.COL_CCFG_MANAGER [p] = 0xFFFF then m.member p 0 0 else m.fld R.COL_CCFG_MANAGER [p]
          (mgr ≠ m.moduleId → Does (.predictedDelayReport k part q) s (fun t => t.m.fld R.MEM_STACK_PRED_US [k] = e ∧ OuterKept s t ∧ MemKept s t)) ∧
          (mgr = m.moduleId → Does (.predictedDelayReport k part q) s (fun t => quiet [8, 13] t ∧
            t.m.fld R.MEM_STACK_PRED_US [k] = e ∧ t.m.fld R.COL_CDELAY_STACK [p] = k ∧ t.m.fld R.COL_CDELAY_LEVEL [p] = l ∧ t.m.fld R.COL_CDELAY_PRED_US [p] = e)))) ∧
      (m.accepts = true →
        let answer (c : Nat) (t : State) : Prop := t.m.fld R.MEM_STACKCMD_CODE [] = c ∧ quiet [8] t
        (m.flag R.MEM_STACK_SHUTDOWN [k] = false → Does (.stackResume k) s (fun t => answer 0 t ∧ OnlyRegs [R.MEM_STACKCMD_CODE.addr []] s t)) ∧
        (m.flag R.MEM_STACK_SHUTDOWN [k] = true → 950 ≤ Tbl.get 0 m.tier.readings k → Does (.stackResume k) s (fun t => answer 2 t ∧ OnlyRegs [R.MEM_STACKCMD_CODE.addr []] s t)) ∧
        (m.flag R.MEM_STACK_SHUTDOWN [k] = true → Tbl.get 0 m.tier.readings k < 950 → (∃ p ∈ setBits 33 (Tbl.get 0 m.tier.atShutdown k), m.pstate p ≠ psTornDown) →
          Does (.stackResume k) s (fun t => answer 1 t ∧ OnlyRegs [R.MEM_STACKCMD_CODE.addr []] s t)) ∧
        (m.flag R.MEM_STACK_SHUTDOWN [k] = true → Tbl.get 0 m.tier.readings k < 950 → (∀ p ∈ setBits 33 (Tbl.get 0 m.tier.atShutdown k), m.pstate p = psTornDown) → (∀ e ∈ m.tier.frameOwner, e.2 < 64) →
          Does (.stackResume k) s (fun t => answer 0 t ∧ t.m.fld R.MEM_STACK_SHUTDOWN [k] = 0))))

/-- The far tier and golden copies (09_memory_tiers.md, R407 to R410). While its port is UP, poison of a device marks the line; a timeout is
counted and reads as poison to the copy that asked; a violation is counted and the sixteenth within a second takes the port DOWN, as a
removal does, and every partition with pages behind the port becomes FAULTED. REGISTER of a golden copy, from the far tier or a host's
memory and with digests or without, answers BAD_REGION, BAD_SOURCE or BUSY, or registers it; DEREGISTER drops it. -/
def Obligations.FarTierAndGoldenCopies : Prop :=
  ∀ s : State,
    let m := s.m
    let quiet (l : List Nat) (t : State) : Prop := OuterKept s t ∧ MemKept s t ∧ BlocksKept l s t
    let same (t : State) : Prop := t = s
    (∀ (x : PortId) (line : BitVec 36) (pane : PaneId) (i : Fin 4),
      let k := m.farLine x line.toNat
      let timedOut (t : State) : Prop := quiet [11, 15, 17] t ∧ t.m.fld R.FAR_PORT_TIMEOUTS [x] = min (m.fld R.FAR_PORT_TIMEOUTS [x] + 1) (2 ^ 16 - 1) ∧
        t.m.fld R.FAR_PORT_STATE [x] = 1
      (m.fld R.FAR_PORT_STATE [x] ≠ 1 → Does (.farDevicePoison x line) s same ∧ Does (.farTimeout x line pane i) s same) ∧
      (m.fld R.FAR_PORT_STATE [x] = 1 → Tbl.get 0 m.tier.farOwner (k % 2 ^ 72 / 2 ^ 21) ≤ 32 →
        Does (.farDevicePoison x line) s (fun t => quiet [15, 17] t ∧ t.m.poison.contains (k / 64) = true ∧ t.m.core = m.core) ∧
        ((m.pane pane).cruns[i.val]? = none → Does (.farTimeout x line pane i) s (fun t => timedOut t ∧ t.m.core = m.core)) ∧
        (∀ r : Run, (m.pane pane).cruns[i.val]? = some r → Does (.farTimeout x line pane i) s (fun t => timedOut t ∧
          t.m.pane pane = { m.pane pane with cruns := (m.pane pane).cruns.set i { r with vals := r.vals ++ [k / 64] } } ∧
          ∀ q : Nat, q ≠ pane → t.m.pane q = m.pane q)))) ∧
    (∀ x : PortId,
      let recent := ((Tbl.get [] m.tier.farViol x).filter (fun at' => decide (m.now < at' + second))).length
      let down (t : State) : Prop := t.m.fld R.FAR_PORT_STATE [x] = 2 ∧ OuterKept s t ∧
        ∀ p : Nat, 1 ≤ p → p ≤ 32 → (∃ e ∈ m.tier.farOwner, e.2 = p ∧ (m.flag R.FAR_CTL_INTERLEAVE [] = true ∨ e.1 / 2 ^ 21 = x.val)) → m.pstate p = psActive →
          t.m.pstate p = psFaulted
      (m.fld R.FAR_PORT_STATE [x] ≠ 1 → Does (.farSurpriseRemoval x) s same ∧ Does (.farViolation x) s same) ∧
      (m.fld R.FAR_PORT_STATE [x] = 1 →
        Does (.farSurpriseRemoval x) s down ∧
        (m.tier.farOwner = [] → Does (.farSurpriseRemoval x) s (fun t => OnlyRegs [R.FAR_PORT_STATE.addr [x]] s t)) ∧
        (15 ≤ recent → Does (.farViolation x) s down) ∧
        (recent < 15 → Does (.farViolation x) s (fun t => quiet [11, 15, 17] t ∧
          t.m.fld R.FAR_PORT_VIOLATIONS [x] = min (m.fld R.FAR_PORT_VIOLATIONS [x] + 1) (2 ^ 16 - 1) ∧ t.m.fld R.FAR_PORT_STATE [x] = 1)))) ∧
    (∀ r : RegionId, m.accepts = true →
      let n := m.fld R.MEM_GOLD_CTL_PAGES [r]
      let src := m.fld R.MEM_GOLD_CTL_SRC [r]
      let inside (off len : Nat) : Prop := (src = 0 → off + len ≤ m.fld R.FAR_PQUOTA_PAGES [0] * 2 ^ 21) ∧ src ≤ 2 ∧ (src ≠ 0 → off + len ≤ 2 ^ 64)
      let placed : Prop := inside (m.fld R.MEM_GOLD_ADDR_ADDR [r] * 4096) (n * 2 ^ 21) ∧
        (m.flag R.MEM_GOLD_CTL_DIGEST_EN [r] = true → inside (m.fld R.MEM_GOLD_DIG_ADDR [r] * 64) (n * 32))
      let mending := m.fix.regions.any (fun x => x.region == r.val)
      let only (t : State) : Prop := OnlyRegs [R.MEM_GOLD_CTL_STATE.addr [r]] s t
      let code (c : Nat) (t : State) : Prop := t.m.fld R.MEM_GOLD_CTL_CODE [r] = c ∧ t.m.fld R.MEM_GOLD_CTL_STATE [r] = m.fld R.MEM_GOLD_CTL_STATE [r] ∧ only t
      (m.fld R.PTN_SREG_STATE [r] = 0 ∨ m.fld R.PTN_SREG_PAGES [r] ≠ n → Does (.goldenRegister r) s (code 1)) ∧
      (m.fld R.PTN_SREG_STATE [r] ≠ 0 → m.fld R.PTN_SREG_PAGES [r] = n →
        (¬ placed → Does (.goldenRegister r) s (code 2)) ∧
        (placed → mending = true → Does (.goldenRegister r) s (code 3)) ∧
        (placed → mending = false → Does (.goldenRegister r) s (fun t => t.m.fld R.MEM_GOLD_CTL_STATE [r] = 1 ∧ t.m.fld R.MEM_GOLD_CTL_CODE [r] = 0 ∧ only t))) ∧
      Does (.goldenDeregister r) s (fun t => t.m.fld R.MEM_GOLD_CTL_STATE [r] = 0 ∧ t.m.fld R.MEM_GOLD_CTL_CODE [r] = 0 ∧ only t))

/-- States of a link (10_meridian_links.md, R412 to R414, R423 to R425, R430). ENABLE takes a DOWN link to TRAIN and DISABLE takes any to DOWN
with its replay cleared; RELEASE takes a QUARANTINED one, WIDEN a DEGRADED one with 16 good lanes, RETRAIN and a lost lock an UP or
DEGRADED one, the retry timer an enabled DOWN one to TRAIN. Trained lanes take it to NEGOTIATE with 16, 12 or 8 active; agreement to UP or
DEGRADED with the partner's credits; on a link in use a NEG that contradicts what it agreed on is a violation; a timeout, a refusal or no common version to DOWN with its code. A failed lane is marked and a spare
takes its place, or the link retrains. -/
def Obligations.LinkControl : Prop :=
  ∀ (s : State) (n : LinkId),
    let m := s.m
    let l := m.link n
    let is (st code : Nat) (t : State) : Prop := t.m.lstate n = st ∧ t.m.fld R.MRD_LSTATE_CODE [n] = code
    let frame (t : State) : Prop := OuterKept s t ∧ MemKept s t ∧ BlocksKept [12, 14, 15, 17] s t ∧ t.m.core = m.core ∧ ∀ k : Nat, k < 10 → k ≠ n → t.m.lstate k = m.lstate k
    let trains (t : State) : Prop := is lkTrain 0 t ∧ frame t ∧ (t.m.link n).cls = l.cls
    let same (t : State) : Prop := t = s
    let noRuns := ∀ p : Nat, (m.coll p).runs = []
    let retry : Prop := m.running = true ∧ m.lstate n = lkDown ∧ m.linkTested n = false ∧ l.enabled = true ∧ l.since + 10 ^ 8 ≤ m.now
    (m.accepts = true →
      let factory := m.flag R.CFG_RUN_FACTORY []
      (m.lstate n = lkDown → factory = false → m.linkTested n = false → Does (.linkEnable n) s (fun t => trains t ∧ (t.m.link n).enabled = true)) ∧
      (m.lstate n = lkDown → factory = false → m.linkTested n = true → Does (.linkEnable n) s (fun t => n.val ∈ t.m.pwr.enables ∧ RegsKept s t ∧ frame t)) ∧
      (m.lstate n ≠ lkDown ∨ factory = true → Does (.linkEnable n) s same) ∧
      (noRuns → Does (.linkDisable n) s (fun t => is lkDown 0 t ∧ t.m.fld R.MRD_LSTATE_WIDTH [n] = 0 ∧ (t.m.link n).enabled = false ∧ (t.m.link n).cls = [] ∧ frame t)) ∧
      (noRuns → m.lstate n = lkQuarantined → Does (.linkRelease n) s (fun t => is lkTrain 0 t ∧ t.m.fld R.MRD_LVIOL_WINDOW [n] = 0 ∧ t.m.fld R.MRD_LVIOL_TOTAL [n] = 0 ∧
        (t.m.link n).viols = [] ∧ frame t)) ∧
      (m.lstate n ≠ lkQuarantined → Does (.linkRelease n) s same) ∧
      (m.lstate n = lkDegraded → 16 ≤ popCount 18 l.good → Does (.widen n) s trains) ∧
      (m.lstate n ≠ lkDegraded ∨ popCount 18 l.good < 16 → Does (.widen n) s same) ∧
      (m.linkUp n = true → Does (.retrain n) s trains) ∧ (m.linkUp n = false → Does (.retrain n) s same)) ∧
    (m.linkUp n = true → Does (.lockLossTimeout n) s trains) ∧ (m.linkUp n = false → Does (.lockLossTimeout n) s same) ∧
    (retry → Does (.linkRetryTimer n) s trains) ∧ (¬ retry → Does (.linkRetryTimer n) s same) ∧
    (∀ locked : BitVec 18,
      let good := setBits 18 locked.toNat
      let w := if 16 ≤ good.length then 16 else if 12 ≤ good.length then 12 else 8
      (m.lstate n = lkTrain → 8 ≤ good.length → Does (.laneTrainingDone n locked) s (fun t => is lkNegotiate 0 t ∧ t.m.fld R.MRD_LSTATE_WIDTH [n] = w ∧
        (t.m.link n).lanes = good.take w ∧ t.m.fld R.MRD_LSTATE_LANES_ACTIVE [n] = ((good.take w).map (fun i => 2 ^ i)).sum ∧ frame t)) ∧
      (m.lstate n = lkDegraded → Does (.laneTrainingDone n locked) s (fun t => (t.m.link n).good = (good.map (fun i => 2 ^ i)).sum ∧ (t.m.link n).lanes = l.lanes ∧
        RegsKept s t ∧ frame t)) ∧
      (m.lstate n ≠ lkDegraded → m.lstate n ≠ lkTrain ∨ good.length < 8 → Does (.laneTrainingDone n locked) s same)) ∧
    (m.lstate n = lkTrain → l.since + 5 * 10 ^ 7 ≤ m.now → Does (.laneTrainingTimeout n) s (fun t => is lkDown 1 t ∧ frame t)) ∧
    (m.lstate n ≠ lkTrain ∨ m.now < l.since + 5 * 10 ^ 7 → Does (.laneTrainingTimeout n) s same) ∧
    (m.lstate n = lkNegotiate → l.since + 10 ^ 6 ≤ m.now → Does (.negTimeout n) s (fun t => is lkDown 4 t ∧ frame t)) ∧
    (m.lstate n ≠ lkNegotiate ∨ m.now < l.since + 10 ^ 6 → Does (.negTimeout n) s same) ∧
    (∀ (md fabric : BitVec 16) (serial : Word) (slots : List (BitVec 16)) (lo hi : Fin 16),
      let v := min (m.fld R.MRD_ID_VER_MAX []) hi
      let differs : Prop := fabric.toNat ≠ m.fld R.MRD_LPEER_FABRIC [n] ∨ v ≠ m.fld R.MRD_LSTATE_VERSION [n] ∨ v < lo
      (m.linkUp n = true → ¬ differs → Does (.negMsg n md fabric serial slots lo hi) s same) ∧
      (m.linkUp n = true → differs → ((l.viols.filter (fun at' => decide (m.now < at' + second))).length + 1 <
          if m.fld R.MRD_LCFG_VIOL_LIMIT [n] = 0 then 16 else m.fld R.MRD_LCFG_VIOL_LIMIT [n]) →
        Does (.negMsg n md fabric serial slots lo hi) s (fun t => t.m.fld R.MRD_LVIOL_LAST_CODE [n] = 6 ∧ t.m.lstate n = m.lstate n ∧ frame t)) ∧
      (m.linkUp n = false → m.lstate n ≠ lkNegotiate → Does (.negMsg n md fabric serial slots lo hi) s same) ∧
      (m.lstate n = lkNegotiate → l.lastSerial = 0 ∨ l.lastSerial = serial.toNat + 1 ∨ noRuns →
      let refused := m.moduleId = 0xFFFF ∨ 4095 < m.moduleId ∨ 4095 < md.toNat ∨ fabric.toNat ≠ m.fld R.MRD_ID_FABRIC [] ∨ md.toNat = m.moduleId ∨
        ∃ k : Nat, k < 10 ∧ k ≠ n ∧ (m.link k).known = true ∧ m.fld R.MRD_LPEER_MODULE [k] = md.toNat ∧ m.fld R.MRD_LSERIAL_SERIAL [k] ≠ serial.toNat
      (refused → Does (.negMsg n md fabric serial slots lo hi) s (fun t => is lkDown 3 t ∧ frame t)) ∧
      (¬ refused →
        (v < lo ∨ v < m.fld R.MRD_ID_VER_MIN [] → Does (.negMsg n md fabric serial slots lo hi) s (fun t => is lkDown 2 t ∧ frame t)) ∧
        (lo ≤ v → m.fld R.MRD_ID_VER_MIN [] ≤ v → Does (.negMsg n md fabric serial slots lo hi) s (fun t =>
          is (if m.fld R.MRD_LSTATE_WIDTH [n] = 16 then lkUp else lkDegraded) 0 t ∧ t.m.fld R.MRD_LPEER_MODULE [n] = md.toNat ∧ t.m.fld R.MRD_LPEER_NEIGHBOUR [n] = 1 ∧
          t.m.fld R.MRD_LSERIAL_SERIAL [n] = serial.toNat ∧ frame t ∧
          ∀ c : Nat, c < 6 → (m.linkCls n c).unacked = [] → (m.linkCls n c).txq = [] → (t.m.linkCls n c).credits = (slots.map (fun x => x.toNat)).getD c 0))))) ∧
    (∀ i : Fin 18,
      (m.linkUp n = false → Does (.laneFailed n i) s same) ∧
      (m.linkUp n = false ∨ l.lanes.length ≤ i.val → Does (.laneSwap n i) s (fun t => RegsKept s t ∧ MemKept s t ∧ (t.m.link n).lanes = l.lanes)) ∧
      (m.linkUp n = true →
      let marked (t : State) : Prop := bitAt (t.m.fld R.MRD_LSTATE_LANES_FAILED [n]) i = true ∧ frame t
      (l.lanes.contains i.val = false → Does (.laneFailed n i) s (fun t => marked t ∧ t.m.lstate n = m.lstate n ∧ (t.m.link n).lanes = l.lanes)) ∧
      (l.lanes.contains i.val = true →
        (∀ sp, (m.markLane n i).spareLane n = some sp → Does (.laneFailed n i) s (fun t => marked t ∧ t.m.lstate n = m.lstate n ∧
          (t.m.link n).lanes = l.lanes.set (l.lanes.idxOf i.val) sp)) ∧
        ((m.markLane n i).spareLane n = none → Does (.laneFailed n i) s (fun t => marked t ∧ is lkTrain 0 t))) ∧
      (i.val < l.lanes.length →
        let old := l.lanes.getD i.val 0
        (∀ sp, (m.markLane n old).spareLane n = some sp → Does (.laneSwap n i) s (fun t => t.m.lstate n = m.lstate n ∧ (t.m.link n).lanes = l.lanes.set i sp ∧ frame t)) ∧
        ((m.markLane n old).spareLane n = none → Does (.laneSwap n i) s (fun t => is lkTrain 0 t ∧ frame t)))))

/-- Flits, replay, violations and link messages (10_meridian_links.md, R416 to R420, R426, R428 to R430, R442). A flit on a link that is neither
up nor negotiating has no effect; one with a byte in an uncorrectable codeword is lost, and the codeword counted. Of the good ones a null flit and one out of order leave the class as it
was; one in order without a credit, or that continues no message, is a violation; a whole one-flit message for this module advances SEQ and
waits for its unit. A NAK acknowledges the flits before it and the others leave again; a replay timeout resends and counts, and the eighth
replay of a flit retrains. A VIOLATION message is kept on the link (log entry 90); the violation at the limit quarantines it. HELLO leaves on every link that is
up; a received one is kept, retrains for another partner, and is a violation for another fabric; three missed ones clear NEIGHBOUR. A
DELAY_REPORT is kept for its job's partition, or counted UNCLAIMED. -/
def Obligations.LinkTraffic : Prop :=
  ∀ (s : State) (n : LinkId),
    let m := s.m
    let frame (t : State) : Prop := OuterKept s t ∧ MemKept s t ∧ BlocksKept [12, 14, 15, 17] s t ∧ t.m.core = m.core
    let same (t : State) : Prop := t = s
    let seen := ((m.link n).viols.filter (fun at' => decide (m.now < at' + second))).length
    let limit := if m.fld R.MRD_LCFG_VIOL_LIMIT [n] = 0 then 16 else m.fld R.MRD_LCFG_VIOL_LIMIT [n]
    let violated (code : Nat) (t : State) : Prop := frame t ∧ t.m.fld R.MRD_LVIOL_LAST_CODE [n] = code ∧
      t.m.fld R.MRD_LVIOL_TOTAL [n] = min (m.fld R.MRD_LVIOL_TOTAL [n] + 1) (2 ^ 16 - 1) ∧ t.m.lstate n = m.lstate n
    (∀ bytes : List Byte, bytes.length = 256 →
      let h := leAt bytes 0 8
      let c := hdClass h
      let x := m.linkCls n c
      let pay := (bytes.drop 8).take (min 240 (hdLen h))
      (∀ (cont : Bool) (cws : List (Option (BitVec 8))), cws.length + b2n cont ≤ 2 → cont = true ∨ cws ≠ [] →
      let lost : Prop := (cont = true ∧ (m.link n).cwBad = true) ∨ none ∈ cws
      (m.linkUp n = false → m.lstate n ≠ lkNegotiate → Does (.flitReceive n bytes ⟨cont, cws⟩) s same) ∧
      (m.linkUp n = true → lost → Does (.flitReceive n bytes ⟨cont, cws⟩) s (fun t => frame t ∧
        t.m.fld R.MRD_LERR_UNCORR_CW [n] = min (m.fld R.MRD_LERR_UNCORR_CW [n] + cws.count none) (2 ^ 16 - 1) ∧ t.m.lstate n = m.lstate n ∧
        (c ≠ clControl → (t.m.linkCls n c).rxSeq = x.rxSeq ∧ (t.m.linkCls n c).waiting = x.waiting))) ∧
      (¬ lost → m.linkUp n = true → leAt bytes 248 8 = (crc64 (bytes.take 248)).toNat → bits h 44 42 = c → c ≤ 5 → bits h 41 30 = x.txSeq →
        bits h 29 24 = 0 → x.unacked = [] → x.txq = [] → x.credits ≤ clSlots c →
        let corrected (t : State) : Prop := t.m.fld R.MRD_LERR_CORR_SYM [n] = min (m.fld R.MRD_LERR_CORR_SYM [n] + (cws.map (fun y => (y.map (fun k => k.toNat)).getD 0)).sum) (2 ^ 32 - 1)
        (bitAt h 60 = true → Does (.flitReceive n bytes ⟨cont, cws⟩) s (fun t => frame t ∧ corrected t ∧ t.m.linkCls n c = x ∧ t.m.lstate n = m.lstate n)) ∧
        (bitAt h 60 = false → hdSeq h ≠ x.rxSeq → x.rxSeq < 4096 → Does (.flitReceive n bytes ⟨cont, cws⟩) s (fun t => frame t ∧ corrected t ∧
          (t.m.linkCls n c).rxSeq = x.rxSeq ∧ (t.m.linkCls n c).waiting = x.waiting ∧ t.m.lstate n = m.lstate n)) ∧
        (bitAt h 60 = false → hdSeq h = x.rxSeq → x.rxSeq < 4096 → seen + 1 < limit →
          (x.rxCredit = 0 → Does (.flitReceive n bytes ⟨cont, cws⟩) s (violated 2)) ∧
          (x.rxCredit ≠ 0 → m.stopping = false → bitAt h 59 = false → x.rxOpen = false → Does (.flitReceive n bytes ⟨cont, cws⟩) s (violated 1))) ∧
        (bitAt h 60 = false → hdSeq h = x.rxSeq → x.rxSeq < 4096 → x.rxCredit ≠ 0 → m.stopping = false → bitAt h 59 = true → bitAt h 58 = true →
          x.rxOpen = false → x.rx = [] → hdLen h ≤ 240 → hdDst h = m.moduleId → m.moduleId ≤ 4095 → mtClass (leAt pay 4 1) = some c →
          pay.length = 16 + leAt pay 8 4 → leAt pay 0 2 ≤ 4095 →
          Does (.flitReceive n bytes ⟨cont, cws⟩) s (fun t => frame t ∧ corrected t ∧ (t.m.linkCls n c).rxSeq = (x.rxSeq + 1) % 4096 ∧
            (t.m.linkCls n c).waiting = x.waiting + 1 ∧ (t.m.linkCls n c).seqs = x.seqs ++ [x.rxSeq] ∧ t.m.lstate n = m.lstate n))))) ∧
    (∀ c : Fin 6,
      let x := m.linkCls n c
      let again (l : List Flit) (t : State) : Prop := t.m.fld R.MRD_LERR_REPLAYS [n] = min (m.fld R.MRD_LERR_REPLAYS [n] + 1) (2 ^ 16 - 1) ∧
        (t.m.linkCls n c).unacked = l.map (fun f => { f with tries := f.tries + 1 }) ∧ ((∃ f ∈ l, 7 ≤ f.tries) → t.m.lstate n = lkTrain) ∧
        ((∀ f ∈ l, f.tries < 7) → t.m.lstate n = m.lstate n)
      (∀ (sq : BitVec 12) (f : Flit) (q : List Flit), m.linkUp n = true → x.unacked = f :: q →
        let k := (sq.toNat + 4096 - f.seqNo) % 4096
        (q.length + 1 < k → seen + 1 < limit → Does (.nakMsg n c sq) s (violated 5)) ∧
        (k = q.length + 1 → x.txq = [] → Does (.nakMsg n c sq) s (fun t => frame t ∧ (t.m.linkCls n c).unacked = [] ∧ RegsKept s t)) ∧
        (k ≤ q.length → x.txq = [] → Does (.nakMsg n c sq) s (fun t => frame t ∧ again (x.unacked.drop k) t))) ∧
      (m.linkUp n = false ∨ x.unacked = [] ∨ m.now < x.ackAt + 10000 → Does (.replayTimeout n c) s same) ∧
      (m.linkUp n = true → x.unacked ≠ [] → x.ackAt + 10000 ≤ m.now →
        Does (.replayTimeout n c) s (fun t => frame t ∧ again x.unacked t))) ∧
    (∀ (code cls : Byte) (sq : BitVec 12), Does (.violationMsg n code cls sq) s (fun t => frame t ∧ (t.m.link n).told = some (code.toNat, cls.toNat, sq.toNat) ∧
      Regs.word t.m.regs (R.MRD_LVIOL_LAST_CODE.addr [n]) = Regs.word m.regs (R.MRD_LVIOL_LAST_CODE.addr [n]) ∧ t.m.lstate n = m.lstate n)) ∧
    (m.running = false → Does .helloTimer s same) ∧
    (m.running = true → m.linkUp n = true →
      let x := m.linkCls n clControl
      x.txq = [] → x.txOpen = 0 → x.credits ≠ 0 → x.unacked.length < 64 → Does .helloTimer s (fun t => frame t ∧ RegsKept s t ∧
        (t.m.linkCls n clControl).txSeq = (x.txSeq + 1) % 4096 ∧ (t.m.linkCls n clControl).credits = x.credits - 1 ∧
        (t.m.linkCls n clControl).unacked.length = x.unacked.length + 1)) ∧
    (∀ (md fabric : BitVec 16) (serial : Word) (feed peer : Fin 16) (dist : Byte),
      let partner : Prop := md.toNat = m.fld R.MRD_LPEER_MODULE [n] ∧ serial.toNat = m.fld R.MRD_LSERIAL_SERIAL [n]
      (m.linkUp n = false → Does (.helloMsg n md fabric serial feed peer dist) s (fun t => frame t ∧ RegsKept s t)) ∧
      (m.linkUp n = true →
        (¬ partner → Does (.helloMsg n md fabric serial feed peer dist) s (fun t => frame t ∧ t.m.lstate n = lkTrain)) ∧
        (partner → fabric.toNat = m.fld R.MRD_LPEER_FABRIC [n] →
          Does (.helloMsg n md fabric serial feed peer dist) s (fun t => frame t ∧ t.m.fld R.MRD_LPEER_FEED_ID [n] = feed ∧ t.m.fld R.MRD_LPEER_LINK [n] = peer ∧
            t.m.fld R.MRD_LPEER_DISTANCE [n] = dist.toNat ∧ t.m.fld R.MRD_LPEER_NEIGHBOUR [n] = 1 ∧ (t.m.link n).helloAt = m.now ∧ (t.m.link n).missed = 0)) ∧
        (partner → fabric.toNat ≠ m.fld R.MRD_LPEER_FABRIC [n] → seen + 1 < limit → Does (.helloMsg n md fabric serial feed peer dist) s (violated 6)) ∧
        (partner → fabric.toNat ≠ m.fld R.MRD_LPEER_FABRIC [n] → limit ≤ seen + 1 → (∀ p : Nat, (m.coll p).runs = []) →
          Does (.helloMsg n md fabric serial feed peer dist) s (fun t => frame t ∧ t.m.lstate n = lkQuarantined ∧ t.m.fld R.MRD_LSTATE_CODE [n] = 5 ∧
            t.m.fld R.MRD_LPEER_NEIGHBOUR [n] = 0 ∧ (t.m.link n).cls = [])))) ∧
    (let due : Prop := m.linkUp n = true ∧ m.flag R.MRD_LPEER_NEIGHBOUR [n] = true ∧ (m.link n).helloAt + 3150000 ≤ m.now;
      (due → Does (.helloMissed n) s (fun t => frame t ∧ t.m.fld R.MRD_LPEER_NEIGHBOUR [n] = 0 ∧ t.m.lstate n = m.lstate n)) ∧
      (¬ due → Does (.helloMissed n) s same)) ∧
    (∀ (src : ModuleId) (job : BitVec 16) (k : Fin 16) (l : Fin 8) (us : BitVec 32) (time : Word),
      let p := m.jobPart job.toNat
      (m.jobShut job.toNat = true → Does (.delayReport n src job k l us time) s same) ∧
      (p = 0 → Does (.delayReport n src job k l us time) s (fun t => OuterKept s t ∧ MemKept s t ∧
        t.m.fld R.MRD_STAT_UNCLAIMED [] = min (m.fld R.MRD_STAT_UNCLAIMED [] + 1) (2 ^ 16 - 1) ∧ RegsKeptBut [R.MRD_STAT_UNCLAIMED.addr []] s t)) ∧
      (p ≠ 0 → m.jobShut job.toNat = false →
        Does (.delayReport n src job k l us time) s (fun t => OuterKept s t ∧ MemKept s t ∧ t.m.fld R.COL_CDELAY_MODULE [p] = src.toNat ∧ t.m.fld R.COL_CDELAY_STACK [p] = k ∧
          t.m.fld R.COL_CDELAY_LEVEL [p] = l ∧ t.m.fld R.COL_CDELAY_PRED_US [p] = us.toNat ∧ t.m.fld R.COL_CDELAY_T_TIME [p] = time.toNat ∧
          RegsKeptBut [R.COL_CDELAY_STACK.addr [p], R.COL_CDELAY_T_TIME.addr [p]] s t)))

/-- Synchronisation and setting of the Graticule (10_meridian_links.md, R432, 13_counters_trace_and_time.md, R509 to R514). A child asks its
parent for an exchange and keeps the time it left; a parent answers on a link that is up; an answer to the exchange that is out gives
the path delay and OFFSET: within 10 us it is slewed and counts towards SYNCED, ahead of it time steps forward, behind it the clock holds over with code 1. A
SYNCED child without an exchange for 10 ms holds over. Becoming the root makes an aligned clock SYNCED; ceasing to be it makes it FREE, or
ACQUIRING where a link offers a parent. GRT_SET moves a free root's time forward only. -/
def Obligations.TimeOfTheModule : Prop :=
  ∀ s : State,
    let m := s.m
    let frame (t : State) : Prop := OuterKept s t ∧ MemKept s t ∧ t.m.core = m.core
    let grt (t : State) : Prop := frame t ∧ BlocksKept [14] s t
    (m.running = false ∨ m.isRoot = true ∨ m.srv.parent = 0 → Does .syncTimer s (fun t => t = s)) ∧
    (∀ n : LinkId, m.running = true → m.isRoot = false → m.srv.parent = n.val + 1 → Does .syncTimer s (fun t => frame t ∧ RegsKept s t ∧ t.m.now = m.now ∧
      Tbl.get 0 t.m.srv.syncT1 n = m.now * 16 + 1)) ∧
    (∀ (n : LinkId) (t1 : Word), m.linkUp n = false → Does (.syncReq n t1) s (fun t => frame t ∧ RegsKept s t ∧ t.m.now = m.now)) ∧
    (∀ (n : LinkId) (t1 : Word), m.linkUp n = true →
      let x := m.linkCls n clTime
      x.txq = [] → x.txOpen = 0 → x.credits ≠ 0 → x.unacked.length < 16 → Does (.syncReq n t1) s (fun t => frame t ∧ RegsKept s t ∧
        (t.m.linkCls n clTime).unacked.length = x.unacked.length + 1 ∧ (t.m.linkCls n clTime).credits = x.credits - 1)) ∧
    (∀ (n : LinkId) (t1 t2 t3 : Word),
      let off := halfInt (((t2.toNat : Int) - t1.toNat) - (((m.now * 16 : Nat) : Int) - t3.toNat))
      (m.srv.parent ≠ n.val + 1 ∨ Tbl.get 0 m.srv.syncT1 n ≠ t1.toNat + 1 → Does (.syncResp n t1 t2 t3) s (fun t => frame t ∧ RegsKept s t ∧ t.m.now = m.now)) ∧
      (m.srv.parent = n.val + 1 → Tbl.get 0 m.srv.syncT1 n = t1.toNat + 1 →
        let heard (t : State) : Prop := grt t ∧ t.m.fld R.GRT_STATUS_OFFSET [] = wrapInt 32 off ∧ t.m.srv.lastExch = t.m.now ∧ Tbl.get 0 t.m.srv.syncT1 n = 0 ∧
          t.m.srv.pathDelay = halfInt ((((m.now * 16 : Nat) : Int) - t1.toNat) - ((t3.toNat : Int) - t2.toNat))
        (160000 < off → Does (.syncResp n t1 t2 t3) s (fun t => heard t ∧ t.m.now = (m.now + (off / 16).toNat) % 2 ^ 64 ∧ t.m.srv.slew = 0)) ∧
        (off < -160000 → Does (.syncResp n t1 t2 t3) s (fun t => heard t ∧ t.m.now = m.now ∧ (m.gtState = gtFree → t.m.gtState = gtFree) ∧
          (m.gtState ∈ [gtAcquiring, gtSynced, gtHoldover] → t.m.gtState = gtHoldover ∧ t.m.fld R.GRT_STATUS_CODE [] = 1))) ∧
        (-160000 ≤ off → off ≤ 160000 → Does (.syncResp n t1 t2 t3) s (fun t => heard t ∧ t.m.now = m.now ∧ t.m.srv.slew = off ∧
          t.m.srv.good = (if -128 ≤ off ∧ off ≤ 128 then m.srv.good + 1 else 0) ∧
          (-128 ≤ off → off ≤ 128 → (m.gtState = gtAcquiring ∧ 7 ≤ m.srv.good) ∨ m.gtState = gtHoldover →
            t.m.gtState = gtSynced ∧ t.m.fld R.GRT_STATUS_ALIGN_NS [] = m.alignNs))))) ∧
    (m.gtState = gtSynced → m.isRoot = false → m.srv.lastExch + 10 ^ 7 ≤ m.now → Does .syncHoldoverTimeout s (fun t => t.m.gtState = gtHoldover ∧
      OnlyRegs [R.GRT_STATUS_STATE.addr []] s t)) ∧
    (m.gtState ≠ gtSynced ∨ m.isRoot = true ∨ m.now < m.srv.lastExch + 10 ^ 7 → Does .syncHoldoverTimeout s (fun t => t = s)) ∧
    (m.accepts = true →
      let written (t : State) : Prop := t.m.now = m.now ∧ frame t ∧ BlocksKept [12, 14] s t
      (m.isRoot = false → Does (.timeRootWrite true) s (fun t => t.m.isRoot = true ∧ t.m.fld R.GRT_STATUS_DISTANCE [] = 0 ∧ t.m.srv.slew = 0 ∧ t.m.srv.parent = 0 ∧
        written t ∧
        (m.gtState ≠ gtFree ∨ (∃ k : Nat, k < 10 ∧ m.lstate k = lkUp) → t.m.gtState = gtSynced ∧ t.m.fld R.GRT_STATUS_ALIGN_NS [] = 2) ∧
        (m.gtState = gtFree → (∀ k : Nat, k < 10 → m.lstate k ≠ lkUp) → t.m.gtState = gtFree))) ∧
      (m.isRoot = true → Does (.timeRootWrite true) s (fun t => t.m.isRoot = true ∧ t.m.gtState = m.gtState ∧ written t)) ∧
      (m.isRoot = false → Does (.timeRootWrite false) s (fun t => t.m.isRoot = false ∧ t.m.gtState = m.gtState ∧ written t)) ∧
      (m.isRoot = true → m.srv.parent = 0 → Does (.timeRootWrite false) s (fun t => t.m.isRoot = false ∧ t.m.fld R.GRT_STATUS_ALIGN_NS [] = 255 ∧ written t ∧
        (m.bestParent = none → t.m.gtState = gtFree ∧ t.m.distance = 0xFF) ∧
        (∀ k, m.bestParent = some k → t.m.gtState = gtAcquiring ∧ t.m.srv.parent = k + 1 ∧ t.m.distance = min 0xFF (m.fld R.MRD_LPEER_DISTANCE [k] + 1)))) ∧
      (∀ v : Word,
        (m.isRoot = false ∨ m.gtState ≠ gtFree → Does (.grtSet v) s (fun t => t = s)) ∧
        (m.isRoot = true → m.gtState = gtFree → v.toNat ≤ m.now → Does (.grtSet v) s (fun t => t.m.fld R.GRT_STATUS_CODE [] = 2 ∧ OnlyRegs [R.GRT_STATUS_CODE.addr []] s t)) ∧
        (m.isRoot = true → m.gtState = gtFree → m.now < v.toNat → Does (.grtSet v) s (fun t => t.m = { m with now := v.toNat } ∧ OuterKept s t))))

/-- Entries of the collective ring, and their deadlines (07_student_training.md, R317, 10_meridian_links.md, R435 to R439, R443, R447). Each
of the nine operations takes only the entry at the front that is its own or has a reserved OP, in a partition that runs. An entry that
fails its check leaves with the code in RESULT. One on a package axis ends OK with its data moved or reduced: the last member written holds
what R438, R439 and R443 give it. SEND and RECV of a package axis that name each other
meet, and end with PEER_MISMATCH where their counts differ. On a link
axis RECV waits; SEND and BARRIER send their first message; the owner of a share of a reduction grants the parts of the other ranks places
in its staging in ascending rank, and one that owns nothing waits for the owners; the other operations move this rank's own block and grant
the blocks of its sources. A collective older than the timeout ends with TIMEOUT; a due deadline fixes the counted set. -/
def Obligations.CollectiveEntries : Prop :=
  ∀ (s : State) (part : PartId),
    let m := s.m
    let p := part.val + 1
    let x := m.coll p
    let inflight := [R.COL_CSTAT_INFLIGHT.addr [p]]
    let resAt (slot : Nat) : Word := mkAddr 1 (m.fld R.COL_CRING_BASE [p] * 64 + slot * 64 + 56)
    let res (slot code : Nat) (t : State) : Prop := ∀ key, m.segs p none true (resAt slot) 4 = some [(key, 4)] → m.gone key = false → t.m.loadLe key 4 = code
    (∀ (c : Instr) (op : Nat), (c, op) ∈ [(Instr.allReduce part, coAllReduce), (Instr.reduceScatter part, coReduceScatter), (Instr.allGather part, coAllGather),
        (Instr.broadcast part, coBroadcast), (Instr.reduce part, coReduce), (Instr.allToAll part, coAllToAll), (Instr.send part, coSend), (Instr.recv part, coRecv),
        (Instr.collectiveBarrier part, coBarrier)] →
      (m.running = false ∨ m.held p = true ∨ (m.pstate p ≠ psActive ∧ (m.pstate p ≠ psDraining ∨ x.drain ≤ 1)) ∨ x.fifo = [] → Does c s (fun t => t = s)) ∧
      (∀ (slot : Nat) (e : List Byte) (l : List (Nat × List Byte)) (d : Coll), x.fifo = (slot, e) :: l → d.ent = e → d.axis = leAt e 8 1 →
        (ceOp e ≠ op → 1 ≤ ceOp e → ceOp e ≤ 9 → Does c s (fun t => t = s)) ∧
        (m.running = true → m.held p = false → m.pstate p = psActive ∨ (m.pstate p = psDraining ∧ 1 < x.drain) → ceOp e = 0 ∨ 9 < ceOp e →
          Does c s (fun t => (t.m.coll p).fifo = l ∧ (t.m.coll p).runs = x.runs ∧ res slot crBadEntry t ∧ OuterKept s t ∧ RegsKeptBut inflight s t ∧
            MemKeptButSegs (m.segs p none true (resAt slot) 4) s t)) ∧
        (m.running = true → m.held p = false → m.pstate p = psActive ∨ (m.pstate p = psDraining ∧ 1 < x.drain) → ceOp e = op →
          let k := Tbl.get 0 x.counts d.axis
          let big := m.axisSize p d.axis
          let me := m.axisRank p d.axis
          let taken (t : State) : Prop := (t.m.coll p).fifo = l ∧ Tbl.get 0 (t.m.coll p).counts d.axis = k + 1 ∧ OuterKept s t
          let started (t : State) : Prop := taken t ∧ RegsKeptBut inflight s t ∧ MemKept s t ∧ ∃ r, (t.m.coll p).runs = x.runs ++ [r] ∧ r.ent = e ∧ r.axis = d.axis ∧ r.k = k ∧
            r.slot = slot ∧ r.start = m.now
          (m.collCheck p d ≠ crOk → Does c s (fun t => taken t ∧ (t.m.coll p).runs = x.runs ∧ res slot (m.collCheck p d) t ∧ RegsKeptBut inflight s t ∧
            MemKeptButSegs (m.segs p none true (resAt slot) 4) s t)) ∧
          (m.collCheck p d = crOk → m.axisLinked p d.axis = false → op ≠ coSend → op ≠ coRecv → (∀ o ∈ x.runs, o.axis = d.axis → o.k ≠ k) →
            let read (lo hi r : Nat) : List Byte × Bool := m.collRead p (m.collPlace p d r).1 d.unit lo hi
            let sum := collSum d.dtype ((List.range big).map (fun r => collElems d.dtype (read 0 d.count r).1))
            let sh := m.share p d (big - 1)
            let blk := m.blockUnits p d
            let last : Nat × Nat × List Byte :=
              if op = coReduce then (d.peer, 0, collBytes d.dtype (sum.take d.count))
              else if op = coAllReduce then (big - 1, 0, collBytes d.dtype (sum.take d.count))
              else if op = coReduceScatter then (big - 1, 0, collBytes d.dtype ((sum.drop sh.1).take (sh.2 - sh.1)))
              else if op = coAllGather then (big - 1, (big - 1) * blk * d.unit, (read 0 blk (big - 1)).1)
              else if op = coBroadcast then (big - 1, 0, (read 0 blk d.peer).1)
              else (big - 1, (big - 1) * blk * d.unit, (read ((big - 1) * blk) ((big - 1 + 1) * blk) (big - 1)).1)
            Does c s (fun t => taken t ∧ (t.m.coll p).runs = x.runs ∧ res slot crOk t ∧ BlocksKept [13, 15, 17] s t ∧
              (op ≠ coBarrier → ∀ key, m.segs p none true (adPlus (m.collPlace p d last.1).2 last.2.1) last.2.2.length =
                  some [(key, last.2.2.length)] → m.gone key = false →
                ∀ i < last.2.2.length, (∀ g, m.segs p none true (resAt slot) 4 = some g → ∀ q ∈ g, key + i < q.1 ∨ q.1 + q.2 ≤ key + i) →
                  readByte t.m.mem (key + i) = last.2.2.getD i 0) ∧
              (op = coBarrier → MemKeptButSegs (m.segs p none true (resAt slot) 4) s t))) ∧
          (m.collCheck p d = crOk → m.axisLinked p d.axis = false → op = coSend ∨ op = coRecv →
            let meets (o : Coll) : Prop := o.axis = d.axis ∧ o.op = (if op = coSend then coRecv else coSend) ∧ o.peer ≠ d.peer ∧ o.dies = d.dies
            ((∀ o ∈ x.runs, ¬ meets o) → Does c s started) ∧
            (∀ o : Coll, x.runs = [o] → meets o → o.k ≠ k → o.count ≠ d.count →
              Does c s (fun t => taken t ∧ (t.m.coll p).runs = [] ∧ res (if op = coSend then o.slot else slot) crPeerMismatch t ∧ RegsKeptBut inflight s t)) ∧
            (∀ o : Coll, x.runs = [o] → meets o → o.k ≠ k → o.count = d.count →
              let snd := if op = coSend then d else o
              let rcv := if op = coSend then o else d
              let bs := (m.collRead p (m.collPlace p snd rcv.peer).1 snd.unit 0 snd.count).1
              Does c s (fun t => taken t ∧ (t.m.coll p).runs = [] ∧ BlocksKept [13, 15, 17] s t ∧
                ∀ key, m.segs p none true (adPlus (m.collPlace p rcv snd.peer).2 0) bs.length = some [(key, bs.length)] → m.gone key = false → ∀ i < bs.length,
                  (∀ z ∈ [slot, o.slot], ∀ g, m.segs p none true (resAt z) 4 = some g → ∀ q ∈ g, key + i < q.1 ∨ q.1 + q.2 ≤ key + i) →
                  readByte t.m.mem (key + i) = bs.getD i 0))) ∧
          (m.collCheck p d = crOk → m.axisLinked p d.axis = true → x.early = [] → x.runs = [] →
            let reached (w : Mach) (r : Nat) : Prop := w.jobOf p ≠ 0 ∧
              ((w.routeLink (w.member p d.axis r) w.moduleId (w.jobOf p) k).isSome = true ∨ (w.routeWaits (w.member p d.axis r)).isSome = true)
            (op = coRecv → Does c s started) ∧
            (op = coSend → d.peer ≠ me → reached m d.peer → Does c s started) ∧
            (op = coBarrier → me = 0 ∨ reached m 0 → Does c s started) ∧
            (op = coAllReduce ∨ op = coReduceScatter ∨ op = coReduce → (∃ o ∈ m.collOwners p d, o ≠ me) →
              let sh := m.share p d me
              let n := (sh.2 - sh.1) * d.unit
              (sh.1 = sh.2 → Does c s started) ∧
              (sh.1 < sh.2 → (big - 1) * n ≤ m.stageSize p → (∀ r < big, r ≠ me → reached m r) → Does c s (fun t => started t ∧ ∃ r, (t.m.coll p).runs = [r] ∧
                r.parts = (((List.range big).filter (fun q => q != me)).zipIdx).map (fun q =>
                  { rank := q.1, off := q.2 * n, len := n, got := 0, here := false, poisoned := false })))) ∧
            (op = coAllGather ∨ op = coBroadcast ∨ op = coAllToAll →
              let own := m.collRead p (adPlus d.src (m.blockOut p d me)) d.unit 0 (m.blockUnits p d)
              let w := if op = coBroadcast ∧ me ≠ d.peer then m else m.collWrite p d.dst (m.blockIn p d me) own.1 own.2
              (∀ r ∈ m.collSources p d, reached w r) → Does c s (fun t => taken t ∧ RegsKeptBut inflight s t ∧ (∀ a, readByte t.m.mem a = readByte w.mem a) ∧
                ∃ r, (t.m.coll p).runs = [r] ∧ r.ent = e ∧ r.axis = d.axis ∧ r.k = k ∧ r.slot = slot ∧ r.start = m.now)))))) ∧
    (m.shut p = true → Does (.collectiveTimeout part) s (fun t => t = s) ∧ Does (.stragglerDeadline part) s (fun t => t = s)) ∧
    (m.shut p = false → ∀ c : Coll,
      let ms := m.fld R.COL_CCFG_TIMEOUT_MS [p]
      let lim := (if ms = 0 then 1000 else ms) * 10 ^ 6
      let me := m.axisRank p c.axis
      let big := m.axisSize p c.axis
      (x.runs = [c] → m.now < c.start + lim → Does (.collectiveTimeout part) s (fun t => t = s)) ∧
      (x.runs = [c] → c.start + lim ≤ m.now → Does (.collectiveTimeout part) s (fun t => (t.m.coll p).runs = [] ∧ res c.slot crTimeout t ∧ RegsKeptBut inflight s t ∧
        OuterKept s t ∧ MemKeptButSegs (m.segs p none true (resAt c.slot) 4) s t)) ∧
      let need := if m.fld R.COL_TDEADLINE_QUORUM [p] = 0 then big else m.fld R.COL_TDEADLINE_QUORUM [p]
      let due : Prop := c.verdict = none ∧ c.deadline ≠ 0 ∧ c.deadline ≤ m.now + 1 ∧ m.pstate p ≠ psPaused ∧ need ≤ c.dones.length
      (x.runs = [c] → ¬ due → Does (.stragglerDeadline part) s (fun t => t = s)) ∧
      (x.runs = [c] → due → c.reduces = true → c.grad = true → c.doneSent = true → me < big → me ∉ m.collOwners p c → (∃ o ∈ m.collOwners p c, o ∉ c.results) →
        m.jobOf p ≠ 0 → (∀ r < big, r ≠ me → (m.routeLink (m.member p c.axis r) m.moduleId (m.jobOf p) c.k).isSome = true ∨ (m.routeWaits (m.member p c.axis r)).isSome = true) →
        let counted := (List.range big).filter (fun r => c.dones.contains r)
        let stale := (List.range big).filter (fun r => x.lateDones.contains (c.bucket, stepSub c.step 1, r))
        Does (.stragglerDeadline part) s (fun t => OuterKept s t ∧ MemKept s t ∧ RegsKeptBut inflight s t ∧
          ∃ d, (t.m.coll p).runs = [d] ∧ d.verdict = some (counted, stale, counted.length + stale.length) ∧ d.ent = c.ent ∧ d.deadline = 0)))

/-- Messages of collectives and bulk transfers (07_student_training.md, R316 to R319, 09_memory_tiers.md, R378, 10_meridian_links.md,
R418, R426, R431, R438 to R441, R443 to R446). A message of a job that no partition here has is counted UNCLAIMED; one from a module that
is not the member of its rank is violation 7, as is a SHARE, DONE or RESULT of a collective already ended; one for a collective not yet
started is kept. GRANT sends this rank's part or block once; ACK and DONE are noted, the last ACK sends DONE, the first DONE fixes the
deadline and the last one the counted set; SET makes an owner sum the counted parts in ascending rank; RESULT and SHARE put data in place;
BARRIER counts and releases; SEND_RTS, SEND_CTS and SEND_DATA carry a SEND. Data come in as many messages as they need; a part or a share is whole
with the last of them (R417). What follows is stated while staging allows no further GRANT. What comes after the counted set is late, and is kept for the
next step under FOLD. A mismatch, an ABORT, UNREACHABLE or a missing route ends the collective with its code. A BULK part of the sender is
kept, and a reply of the buddy goes to the shadow. -/
def Obligations.CollectiveMessages : Prop :=
  ∀ (s : State) (h : CollHead) (c : Coll),
    let m := s.m
    let p := m.jobPart h.job.toNat
    let x := m.coll p
    let me := m.axisRank p h.axis
    let rank := h.rank.val
    let big := m.axisSize p h.axis
    let resAt (slot : Nat) : Word := mkAddr 1 (m.fld R.COL_CRING_BASE [p] * 64 + slot * 64 + 56)
    let res (code : Nat) (t : State) : Prop := (∀ key, m.segs p none true (resAt c.slot) 4 = some [(key, 4)] → m.gone key = false → t.m.loadLe key 4 = code) ∧
      (t.m.coll p).runs = [] ∧ OuterKept s t
    let outside (k : Nat) : Prop := ∀ g, m.segs p none true (resAt c.slot) 4 = some g → ∀ q ∈ g, k < q.1 ∨ q.1 + q.2 ≤ k
    let small (t : State) : Prop := OuterKept s t ∧ RegsKeptBut [R.COL_CSTAT_INFLIGHT.addr [p]] s t
    let routeIn (w : Mach) (r tag : Nat) : Prop := w.jobOf p ≠ 0 ∧
      ((w.routeLink (w.member p h.axis r) w.moduleId (w.jobOf p) tag).isSome = true ∨ (w.routeWaits (w.member p h.axis r)).isSome = true)
    let route (r tag : Nat) : Prop := routeIn m r tag
    let seen := ((m.link h.link).viols.filter (fun at' => decide (m.now < at' + second))).length
    let limit := if m.fld R.MRD_LCFG_VIOL_LIMIT [h.link] = 0 then 16 else m.fld R.MRD_LCFG_VIOL_LIMIT [h.link]
    let violated (t : State) : Prop := OuterKept s t ∧ MemKept s t ∧ BlocksKept [12, 15, 17] s t ∧ t.m.fld R.MRD_LVIOL_LAST_CODE [h.link] = 7 ∧
      t.m.fld R.MRD_LVIOL_TOTAL [h.link] = min (m.fld R.MRD_LVIOL_TOTAL [h.link] + 1) (2 ^ 16 - 1) ∧ t.m.coll p = x
    let fold (step : Nat) : Prop := m.fld R.COL_TCTL_STRAGGLER [p] = 1 ∧ step ∉ x.overs
    (∀ (op dtype : Byte) (count n nth : BitVec 32) (bytes : List Byte) (ps answer : Bool) (counted stale : List (Fin 4096)) (setN : BitVec 16) (figs : List CollFig) (dst : Word),
      let all : List (Instr × Nat) := [(.shareMsg h op dtype count bytes ps, cmShare), (.grantMsg h, cmGrant), (.ackMsg h, cmAck), (.doneMsg h, cmDone),
        (.setMsg h counted stale setN, cmSet), (.resultMsg h figs bytes ps, cmResult), (.abortMsg h, cmAbort), (.barrierMsg h answer, cmBarrier),
        (.sendRts h nth count dtype, cmRts), (.sendCts h n dst, cmCts), (.sendData h bytes ps, cmData)]
      (m.jobShut h.job.toNat = true → ∀ i ∈ all, Does i.1 s (fun t => t = s)) ∧
      (m.jobShut h.job.toNat = false →
        (p = 0 → ∀ i ∈ all, Does i.1 s (fun t => OuterKept s t ∧ MemKept s t ∧ RegsKeptBut [R.MRD_STAT_UNCLAIMED.addr []] s t ∧
          t.m.fld R.MRD_STAT_UNCLAIMED [] = min (m.fld R.MRD_STAT_UNCLAIMED [] + 1) (2 ^ 16 - 1))) ∧
        (p ≠ 0 → m.member p h.axis rank ≠ h.src.toNat ∨ big ≤ rank ∨ m.axisLinked p h.axis = false → seen + 1 < limit → ∀ i ∈ all, Does i.1 s violated) ∧
        (p ≠ 0 → m.member p h.axis rank = h.src.toNat → rank < big → m.axisLinked p h.axis = true →
          (x.runs = [] → ∀ i ∈ all, Tbl.get 0 x.counts h.axis ≤ h.k.toNat ∨ i.2 = cmRts → Does i.1 s (fun t => small t ∧ MemKept s t ∧
            ∃ g, (t.m.coll p).early = x.early ++ [g] ∧ g.kind = i.2 ∧ g.axis = h.axis.val ∧ g.k = h.k.toNat ∧ g.rank = rank)) ∧
          (x.runs = [] → h.k.toNat < Tbl.get 0 x.counts h.axis →
            (x.lates = [] → x.dueDones = [] → ∀ i ∈ all,
              (i.2 ∈ [cmShare, cmDone, cmResult] → seen + 1 < limit → Does i.1 s violated) ∧
              (i.2 ∉ [cmShare, cmDone, cmResult, cmRts] → Does i.1 s (fun t => small t ∧ MemKept s t ∧ t.m.coll p = x))) ∧
            (∀ l : CLate, l.axis = h.axis.val → l.k = h.k.toNat → rank ∈ l.ranks →
              (x.dueDones = [l] → Does (.doneMsg h) s (fun t => small t ∧ MemKept s t ∧
                (fold l.step → (t.m.coll p).lateDones = x.lateDones ++ [(l.bucket, l.step, rank)]) ∧ (¬ fold l.step → (t.m.coll p).lateDones = x.lateDones))) ∧
              (x.lates = [l] → Does (.shareMsg h op dtype count bytes ps) s (fun t => small t ∧ MemKept s t ∧
                let whole := Tbl.get [] l.got rank ++ bytes
                (whole.length < l.len → (t.m.coll p).stale = x.stale ∧ (t.m.coll p).lates = [{ l with got := Tbl.set [] l.got rank whole }]) ∧
                (l.len ≤ whole.length → fold l.step →
                  (t.m.coll p).stale = x.stale ++ [{ bucket := l.bucket, step := l.step, rank := rank, bytes := whole, poisoned := ps }]) ∧
                (l.len ≤ whole.length → ¬ fold l.step → (t.m.coll p).stale = x.stale))))) ∧
          (x.runs = [c] → c.axis = h.axis → rank ≠ me → (m.grantAll p).2 = [] →
            let becomes (d : Coll) (t : State) : Prop := small t ∧ (t.m.coll p).runs = [d]
            let noted (d : Coll) (t : State) : Prop := becomes d t ∧ MemKept s t
            let fails (code : Nat) (t : State) : Prop := res code t ∧ small t ∧ MemKeptButSegs (m.segs p none true (resAt c.slot) 4) s t
            let ends (t : State) : Prop := res crOk t ∧ BlocksKept [13, 15, 17] s t
            let endsQuietly (t : State) : Prop := ends t ∧ MemKeptButSegs (m.segs p none true (resAt c.slot) 4) s t
            let waits : Prop := ∃ o ∈ m.collOwners p c, o ≠ me ∧ o ∉ c.acked
            let moves : Prop := c.op = coAllGather ∨ c.op = coBroadcast ∨ c.op = coAllToAll
            let told : Prop := c.op = coAllReduce ∨ (c.reduces = true ∧ c.grad = true)
            let starved (l : List Nat) : Prop := ∃ o ∈ m.collOwners p c, o ∉ l
            let everyRoute : Prop := ∀ r < big, r ≠ me → route r c.k
            let sh := m.share p c rank
            let tells (r kind tag : Nat) (nums : List Nat) (bytes : List Byte) (t : State) : Prop :=
              Sends p (t.m.member p h.axis r) kind tag (leBytes 1 h.axis ++ leBytes 2 me ++ nums.flatMap (leBytes 8) ++ bytes.take dataMax) s t
            let had := Tbl.get 0 c.got rank
            let have' := had + bytes.length
            let given := if c.reduces then m.collRead p c.src c.unit sh.1 sh.2 else m.collRead p (adPlus c.src (m.blockOut p c rank)) c.unit 0 (m.blockUnits p c)
            (c.k = h.k.toNat →
              ((c.reduces = true ∧ c.doneSent = false ∧ waits) ∨ (moves ∧ ∃ r ∈ m.collSources p c, r ∉ c.results) →
                (rank ∈ c.granted → Does (.grantMsg h) s (noted c)) ∧
                (rank ∉ c.granted → route rank c.k → Does (.grantMsg h) s (fun t => noted { c with granted := c.granted ++ [rank] } t ∧
                  tells rank cmShare c.k [c.op, c.dtype, c.count] given.1 t)) ∧
                (rank ∉ c.granted → ¬ route rank c.k → Does (.grantMsg h) s (fails crRouteMissing))) ∧
              (c.reduces = true → c.doneSent = false → c.verdict = none →
                let acks := insertNat rank c.acked
                ((∃ o ∈ m.collOwners p c, o ≠ me ∧ o ≠ rank ∧ o ∉ c.acked) → Does (.ackMsg h) s (noted { c with acked := acks })) ∧
                ((∀ o ∈ m.collOwners p c, o = me ∨ o = rank ∨ o ∈ c.acked) →
                  (me ≠ 0 → route 0 c.k → Does (.ackMsg h) s (fun t => noted { c with acked := acks, doneSent := true } t ∧ tells 0 cmDone c.k [] [] t)) ∧
                  (me = 0 → 0 ∉ c.dones → c.deadline = 0 → m.collTimed p c = false → (insertNat 0 c.dones).length ≠ big →
                    Does (.ackMsg h) s (noted { c with acked := acks, doneSent := true, dones := insertNat 0 c.dones })))) ∧
              (moves →
                ((∃ r ∈ m.collSources p c, r ∉ c.results) ∨ (∃ r ∈ m.collTargets p c, r ≠ rank ∧ r ∉ c.acked) →
                  Does (.ackMsg h) s (noted { c with acked := insertNat rank c.acked })) ∧
                ((∀ r ∈ m.collSources p c, r ∈ c.results) → (∀ r ∈ m.collTargets p c, r = rank ∨ r ∈ c.acked) → Does (.ackMsg h) s endsQuietly)) ∧
              (c.reduces = true → c.doneSent = true ∨ waits → c.verdict = none → c.deadline = 0 → rank ∉ c.dones →
                let dones := insertNat rank c.dones
                (dones.length ≠ big → m.collTimed p c = false ∨ c.dones ≠ [] → Does (.doneMsg h) s (noted { c with dones := dones })) ∧
                (dones.length ≠ big → m.collTimed p c = true → c.dones = [] →
                  Does (.doneMsg h) s (noted { c with dones := dones, deadline := m.now + m.fld R.COL_TDEADLINE_DEADLINE_US [p] * 1000 + 1 })) ∧
                (dones.length = big → c.dones ≠ [] → c.doneSent = true → told → me < big → me ∉ m.collOwners p c → starved c.results → everyRoute →
                  let these := (List.range big).filter (fun r => dones.contains r)
                  let old := if c.grad then (List.range big).filter (fun r => x.lateDones.contains (c.bucket, stepSub c.step 1, r)) else []
                  Does (.doneMsg h) s (fun t => noted { c with dones := dones, verdict := some (these, old, these.length + old.length) } t ∧
                    ∀ r < big, r ≠ me → tells r cmSet c.k [these.length + old.length] (rankMap big these ++ rankMap big old) t))) ∧
              (c.verdict.isSome = true → c.doneSent = true → told → starved c.results → Does (.doneMsg h) s (fun t => noted c t ∧
                (fold c.step → (t.m.coll p).lateDones = x.lateDones ++ [(c.bucket, c.step, rank)]) ∧ (¬ fold c.step → (t.m.coll p).lateDones = x.lateDones))) ∧
              (c.reduces = true → c.doneSent = true → c.verdict = none →
                let said : List Nat := mapRanks big (rankMap big (counted.map (fun r => r.val)))
                let verdict := some (said, mapRanks big (rankMap big (stale.map (fun r => r.val))), setN.toNat)
                let mine := m.share p c me
                let data (r : Nat) : List (List Byte) := if r = me then [(m.collRead p c.src c.unit mine.1 mine.2).1]
                  else (c.parts.filter (fun q => q.rank == r)).map (fun q => (m.collRead p (m.stageAddr p q.off) 1 0 q.len).1)
                let bs := collBytes c.dtype (collSum c.dtype (((List.range big).flatMap (fun r => if said.contains r then data r else [])).map (collElems c.dtype)))
                (me ∉ m.collOwners p c → told → starved c.results → Does (.setMsg h counted stale setN) s (noted { c with verdict := verdict })) ∧
                (me ∉ m.collOwners p c → ¬ told → Does (.setMsg h counted stale setN) s endsQuietly) ∧
                (me ∈ m.collOwners p c → me < big → ¬ told →
                  Does (.setMsg h counted [] setN) s (fun t => ends t ∧ ∀ key, m.segs p none true (adPlus c.dst 0) bs.length = some [(key, bs.length)] → m.gone key = false →
                    ∀ i < bs.length, outside (key + i) → readByte t.m.mem (key + i) = bs.getD i 0)) ∧
                (c.op = coAllReduce → c.grad = false → me ∈ m.collOwners p c → me < big → me ∉ c.results → Tbl.get 0 c.got me = 0 → (mine.2 - mine.1) * c.unit ≤ bs.length →
                  starved (me :: c.results) → everyRoute →
                  (∀ (r : Nat) (f : Bool), r < big → r ≠ me → routeIn (m.collWrite p c.dst (mine.1 * c.unit) (bs.take ((mine.2 - mine.1) * c.unit)) f) r c.k) →
                  Does (.setMsg h counted [] setN) s (fun t => small t ∧ (∃ d, (t.m.coll p).runs = [d] ∧ d.results = insertNat me c.results) ∧
                    ∀ key, let b := bs.take ((mine.2 - mine.1) * c.unit)
                      m.segs p none true (adPlus c.dst (mine.1 * c.unit)) b.length = some [(key, b.length)] → m.gone key = false →
                      ∀ i < b.length, readByte t.m.mem (key + i) = b.getD i 0))) ∧
              (told → c.doneSent = true → c.verdict.isSome = true → rank ∉ c.results →
                let n := if c.op = coAllReduce then (sh.2 - sh.1) * c.unit else 0
                let w := if n = 0 then m else m.collWrite p c.dst (sh.1 * c.unit + had) (bytes.take (n - had)) ps
                let fs := figsOf rank (figs.flatMap (fun f => [f.entry.toNat, f.gsq.toNat, f.nonfinite.toNat]))
                let c' := { c with got := Tbl.set 0 c.got rank have', results := if n ≤ have' then insertNat rank c.results else c.results, poisoned := c.poisoned || ps, figs := c.figs ++ fs }
                (starved c'.results → Does (.resultMsg h figs bytes ps) s (fun t => becomes c' t ∧ ∀ k, readByte t.m.mem k = readByte w.mem k)) ∧
                (¬ starved c'.results → Does (.resultMsg h figs bytes ps) s (fun t => ends t ∧ ∀ k, outside k → readByte t.m.mem k = readByte w.mem k))) ∧
              (op.toNat ≠ c.op ∨ dtype.toNat ≠ c.dtype ∨ count.toNat ≠ c.count → Does (.shareMsg h op dtype count bytes ps) s (fails crPeerMismatch)) ∧
              (op.toNat = c.op → dtype.toNat = c.dtype → count.toNat = c.count →
                (∀ q, c.reduces = true → c.parts.find? (fun z => z.rank == rank && !z.here) = some q →
                  let w := m.collWrite p (m.stageAddr p q.off) q.got (bytes.take (q.len - q.got)) ps
                  let q' := { q with got := q.got + bytes.length, poisoned := q.poisoned || ps, here := decide (q.len ≤ q.got + bytes.length) }
                  ((c.doneSent = true ∨ waits) ∧ c.verdict = none ∨ c.doneSent = true ∧ c.verdict.isSome = true ∧ told ∧ starved c.results ∧ q'.here = false → routeIn w rank c.k →
                    Does (.shareMsg h op dtype count bytes ps) s (fun t =>
                      becomes { c with parts := c.parts.map (fun r => if r.rank = rank then q' else r) } t ∧ (q'.here = true → tells rank cmAck c.k [] [] t) ∧
                      ∀ k, readByte t.m.mem k = readByte w.mem k)) ∧
                  (c.doneSent = true → c.verdict.isSome = true → told → starved c.results → q'.here = true → routeIn w rank c.k →
                    Does (.shareMsg h op dtype count bytes ps) s (fun t => becomes { c with parts := c.parts.filter (fun r => r.rank != rank) } t ∧ tells rank cmAck c.k [] [] t ∧
                      (∀ k, readByte t.m.mem k = readByte w.mem k) ∧
                      (fold c.step → (t.m.coll p).stale = x.stale ++ [{ bucket := c.bucket, step := c.step, rank := rank, bytes := (w.collRead p (m.stageAddr p q.off) 1 0 q.len).1, poisoned := q'.poisoned }])))) ∧
                (moves →
                  let n := m.blockUnits p c * c.unit
                  let w := m.collWrite p c.dst (m.blockIn p c rank + had) (bytes.take (n - had)) ps
                  let c' := { c with got := Tbl.set 0 c.got rank have', results := if n ≤ have' then insertNat rank c.results else c.results, poisoned := c.poisoned || ps }
                  (((∃ r ∈ m.collSources p c, r ∉ c'.results) ∨ ∃ r ∈ m.collTargets p c, r ∉ c.acked) → routeIn w rank c.k →
                    Does (.shareMsg h op dtype count bytes ps) s (fun t => becomes c' t ∧ (n ≤ have' → tells rank cmAck c.k [] [] t) ∧
                      ∀ k, readByte t.m.mem k = readByte w.mem k)) ∧
                  ((∀ r ∈ m.collSources p c, r ∈ c'.results) → (∀ r ∈ m.collTargets p c, r ∈ c.acked) →
                    Does (.shareMsg h op dtype count bytes ps) s (fun t => ends t ∧ ∀ k, outside k → readByte t.m.mem k = readByte w.mem k)))) ∧
              Does (.abortMsg h) s (fails crAborted) ∧
              Does (.barrierMsg h true) s endsQuietly ∧
              (c.op = coBarrier → (insertNat rank c.heard).length ≠ big → Does (.barrierMsg h false) s (noted { c with heard := insertNat rank c.heard })) ∧
              (c.op = coBarrier → (insertNat rank c.heard).length = big → Does (.barrierMsg h false) s (fun t => endsQuietly t ∧ ∀ r < big, r ≠ me → tells r cmBarrier c.k [1] [] t)) ∧
              (c.op = coSend → (route rank n.toNat → Does (.sendCts h n dst) s (fun t => endsQuietly t ∧ tells rank cmData n.toNat [] (m.collRead p c.src c.unit 0 c.count).1 t)) ∧
                (¬ route rank n.toNat → Does (.sendCts h n dst) s (fails crRouteMissing))) ∧
              (c.op = coRecv →
                let all := c.count * c.unit
                let w := m.collWrite p c.dst had (bytes.take (all - had)) ps
                (all ≤ have' → Does (.sendData h bytes ps) s (fun t => ends t ∧ ∀ k, outside k → readByte t.m.mem k = readByte w.mem k)) ∧
                (have' < all → Does (.sendData h bytes ps) s (fun t => becomes { c with got := Tbl.set 0 c.got rank have', poisoned := c.poisoned || ps } t ∧
                  ∀ k, readByte t.m.mem k = readByte w.mem k)))) ∧
            (c.op = coRecv → c.peer = rank → c.nth = nth.toNat → c.granted = [] →
              (count.toNat = c.count → dtype.toNat = c.dtype → route rank h.k.toNat → Does (.sendRts h nth count dtype) s (fun t => noted { c with granted := [rank] } t ∧
                tells rank cmCts h.k.toNat [c.k, c.dst.toNat] [] t)) ∧
              (count.toNat ≠ c.count ∨ dtype.toNat ≠ c.dtype → Does (.sendRts h nth count dtype) s (fails crPeerMismatch))))))) ∧
    (∀ mtype : Byte,
      (m.jobShut h.job.toNat = true → Does (.unreachableMsg h.link h.src h.job mtype h.k) s (fun t => t = s)) ∧
      (m.jobShut h.job.toNat = false →
        (p = 0 ∨ mtype.toNat < 0x20 ∨ 0x2A < mtype.toNat → Does (.unreachableMsg h.link h.src h.job mtype h.k) s (fun t => OuterKept s t ∧ RegsKept s t ∧ MemKept s t ∧
          t.m.coll p = x)) ∧
        (p ≠ 0 → 0x20 ≤ mtype.toNat → mtype.toNat ≤ 0x2A → x.runs = [c] → c.k = h.k.toNat → m.axisLinked p c.axis = true →
          (∃ r < m.axisSize p c.axis, m.member p c.axis r = h.src.toNat) → Does (.unreachableMsg h.link h.src h.job mtype h.k) s (fun t => res crRouteMissing t ∧
            RegsKeptBut [R.COL_CSTAT_INFLIGHT.addr [p]] s t ∧ MemKeptButSegs (m.segs p none true (resAt c.slot) 4) s t)))) ∧
    (∀ (body : BulkBody) (slot : Fin 2) (o total : BitVec 48) (bs : List Byte) (ps : Bool), m.jobShut h.job.toNat = false →
      let k := m.ckpt p
      let quiet (t : State) : Prop := OuterKept s t ∧ MemKept s t ∧ RegsKept s t
      let landsAt (g : Option (List (Nat × Nat))) (t : State) : Prop := OuterKept s t ∧ RegsKept s t ∧ MemKeptButSegs g s t ∧
        ∀ key, g = some [(key, bs.length)] → m.gone key = false → t.m.load key bs.length = bs
      (p = 0 → Does (.bulk h.link h.src h.job body ps) s (fun t => OuterKept s t ∧ MemKept s t ∧ RegsKeptBut [R.MRD_STAT_UNCLAIMED.addr []] s t ∧
        t.m.fld R.MRD_STAT_UNCLAIMED [] = min (m.fld R.MRD_STAT_UNCLAIMED [] + 1) (2 ^ 16 - 1))) ∧
      (p ≠ 0 →
        (m.fld R.CKP_RECV_SENDER [p] ≠ h.src.toNat → Does (.bulk h.link h.src h.job (.part slot o bs) ps) s quiet) ∧
        (m.fld R.CKP_RECV_SENDER [p] = h.src.toNat →
          Does (.bulk h.link h.src h.job (.part slot o bs) ps) s (landsAt (m.spotSegs p true (onward (m.ckKept p slot) o.toNat) bs.length))) ∧
        (∀ (owner : ModuleId) (byStep : Bool) (step : BitVec 32), Does (.bulk h.link h.src h.job (.fetch owner byStep slot step) ps) s quiet) ∧
        (k.why = 0 → m.exporting p = false → Does (.bulk h.link h.src h.job (.reply o total bs) ps) s quiet) ∧
        (k.why = 1 → m.ckState p = ckRestoring → h.src.toNat = m.fld R.CKP_CTL_BUDDY [p] →
          Does (.bulk h.link h.src h.job (.reply o 0 bs) ps) s (fun t => OuterKept s t ∧ MemKept s t ∧ t.m.ckState p = ckIdle ∧ t.m.fld R.CKP_STATUS_CODE [p] = ckBadSlot) ∧
          (total ≠ 0 → k.got + bs.length < total.toNat → (m.spotSegs p true (onward (m.ckShadow p) o.toNat) bs.length).isSome = true →
            Does (.bulk h.link h.src h.job (.reply o total bs) ps) s (fun t => landsAt (m.spotSegs p true (onward (m.ckShadow p) o.toNat) bs.length) t ∧
              t.m.ckpt p = { k with total := total.toNat + 1, got := k.got + bs.length })))))

/-- States of a partition from ACTIVATE to teardown (12_partitions_and_slices.md, R485, R487 to R490, 09_memory_tiers.md, R394, R399, R404,
14_shutter_and_scanout.md, R544, R559, 17_bringup_and_module.md, R642). ACTIVATE takes a DEFINED or TORN_DOWN partition to LOADING; a load
that succeeds gives it one frame for each of its pages, each reading zero, and one that fails gives it nothing. LOADING_DONE ends in
ACTIVE with its counters at 0, or in DEFINED with the code. PAUSE, RESUME, DRAIN and DRAIN_QUIET move between ACTIVE, PAUSED and DRAINING.
TEARDOWN stops its work, its training, its conduits and its job; when it is done the partition owns nothing and its slices read zero. A command in a state that does
not take it leaves code 1 and changes nothing else. -/
def Obligations.PartitionLifecycle : Prop :=
  ∀ (s : State) (part : PartId),
    let m := s.m
    let p := part.val + 1
    let st := m.pstate p
    let same (t : State) : Prop := t = s
    let bad (t : State) : Prop := OnlyRegs [R.PTN_PSTATE_CODE.addr [p]] s t ∧ t.m.fld R.PTN_PSTATE_CODE [p] = 1 ∧ t.m.pstate p = st
    let goes (q : Nat) (t : State) : Prop := OuterKept s t ∧ t.m.pstate p = q ∧ t.m.fld R.PTN_PTIME_TIME [p] = m.now % 2 ^ 64
    (m.accepts = true →
      (m.shut p = true ∨ (st ≠ psDefined ∧ st ≠ psTornDown) → Does (.activate part) s bad) ∧
      (m.shut p = false → st = psDefined ∨ st = psTornDown →
        (m.margining = true → Does (.activate part) s (fun t => OuterKept s t ∧ RegsKept s t ∧ MemKept s t ∧ p ∈ t.m.pwr.acts)) ∧
        (m.margining = false → Does (.activate part) s (fun t => goes psLoading t ∧ t.m.fld R.PTN_PSTATE_CODE [p] = 0 ∧ t.m.fld R.PTN_PSTATE_FAULT_CAUSE [p] = 0 ∧
          ∃ code, Tbl.get 0 t.m.part.loading p = code + 1 ∧
            (code = 0 → ∀ v < m.conf.cfg.hbmPages p, ∃ e, t.m.pageOf p v = some e ∧ Tbl.get 0 t.m.tier.frameOwner e.frame = p ∧
              ∀ k < 2 ^ 21, readByte t.m.mem (frameKey e.frame k) = 0) ∧
            (code ≠ 0 → t.m.slicesOf p = [] ∧ t.m.framesOf p = [] ∧ t.m.farOf p = []))) ∧
        (m.margining = false → m.fld R.FAR_PQUOTA_PAGES [p] ≠ 0 → (∀ x ∈ m.farPorts p, m.farUp x = false) →
          Does (.activate part) s (fun t => goes psLoading t ∧ Tbl.get 0 t.m.part.loading p = 3 ∧ MemKept s t)))) ∧
    (m.running = false ∨ Tbl.get 0 m.part.loading p = 0 → Does (.loadingDone part) s same) ∧
    (m.running = true → ∀ code : Nat, Tbl.get 0 m.part.loading p = code + 1 →
      (code = 0 → Does (.loadingDone part) s (fun t => goes psActive t ∧ Tbl.get 0 t.m.part.loading p = 0 ∧ (∀ k < 16, Tbl.get 0 t.m.part.meters (p * 16 + k) = 0) ∧
        (m.conf.cfg.shared p = false → MemKept s t ∧ BlocksKept [2, 18] s t))) ∧
      (code ≠ 0 → Does (.loadingDone part) s (fun t => goes psDefined t ∧ t.m.fld R.PTN_PSTATE_CODE [p] = code % 256 ∧ MemKept s t ∧ BlocksKept [2, 18] s t))) ∧
    (m.accepts = true →
      (st ≠ psActive ∨ m.shut p = true → Does (.pause part) s bad ∧ Does (.drain part) s bad) ∧
      (st = psActive → m.shut p = false →
        Does (.pause part) s (fun t => goes psPaused t ∧ MemKept s t ∧ BlocksKept [2, 5, 15, 17, 18] s t) ∧
        Does (.drain part) s (fun t => goes psDraining t ∧ ∀ h < 4, Tbl.get 0 t.m.part.drainAt (p * 4 + h) = m.fld R.HTC_CREDIT_NEXT [p, h] + 1)) ∧
      ((st ≠ psPaused ∧ st ≠ psDraining) ∨ m.shut p = true → Does (.partitionResume part) s bad) ∧
      (st = psPaused ∨ st = psDraining → m.shut p = false → Does (.partitionResume part) s (fun t => goes psActive t ∧ (t.m.coll p).drain = 0 ∧
        (∀ h < 4, Tbl.get 0 t.m.part.drainAt (p * 4 + h) = 0) ∧ (m.conf.cfg.shared p = false → MemKept s t ∧ BlocksKept [2, 13, 18] s t)))) ∧
    (st ≠ psDraining ∨ m.drained p = false ∨ m.running = false → Does (.drainQuiet part) s same) ∧
    (st = psDraining → m.drained p = true → m.running = true → Does (.drainQuiet part) s (fun t => goes psPaused t ∧ MemKept s t ∧ BlocksKept [2, 18] s t)) ∧
    (m.accepts = true →
      (st = psDefined ∨ st = psTornDown ∨ st = psNone ∨ m.part.tearing.contains p = true → Does (.teardown part) s bad) ∧
      (st ≠ psDefined → st ≠ psTornDown → st ≠ psNone → m.part.tearing.contains p = false →
        (m.tearWaits p = true → Does (.teardown part) s (fun t => OuterKept s t ∧ RegsKept s t ∧ MemKept s t ∧ p ∈ t.m.sht.tears)) ∧
        (m.tearWaits p = false → Does (.teardown part) s (fun t => OuterKept s t ∧ p ∈ t.m.part.tearing ∧ Tbl.get 0 t.m.part.loading p = 0 ∧ t.m.jobOf p = 0 ∧
          t.m.held p = true ∧ t.m.tstate p = tsStopped ∧ ∀ c : Nat, c < 64 → m.cdPart c = p → t.m.cdState c = cdClosed)))) ∧
    (m.running = false ∨ m.part.tearing.contains p = false → Does (.teardownDone part) s same) ∧
    (m.running = true → m.part.tearing.contains p = true → Does (.teardownDone part) s (fun t => goes psTornDown t ∧ p ∉ t.m.part.tearing ∧ t.m.held p = false ∧
      t.m.slicesOf p = [] ∧ t.m.framesOf p = [] ∧ t.m.farOf p = [] ∧ (∀ v < 2 ^ 24, t.m.pageOf p v = none) ∧
      (∀ sl ∈ m.slicesOf p, ∀ k < 2 ^ 22, readByte t.m.mem (sliceKey sl k) = 0)))

/-- Time slices, shared regions and metering snapshots (12_partitions_and_slices.md, R494 to R497, R501 to R503, R505, R506). A slice that
ends with no other member ready begins again; otherwise the switch is pending until no non-preemptible command runs, then the next member
is restored and its slice begins, shortened by its debt. A command past twice its bound faults its partition with cause 2. FILL gives a
region its frames or leaves code 2; FILL_DONE copies the source and records its digest, or zeroes and returns the frames with code 3;
DELETE returns them where no mapping and no golden copy stands in the way. MSNAP latches every counter of its viewer at one time. -/
def Obligations.SlicesRegionsAndMetering : Prop :=
  ∀ s : State,
    let m := s.m
    let same (t : State) : Prop := t = s
    (∀ g : GroupId,
      let p := m.fld R.PTN_GROUP_CURRENT [g]
      let sw := Tbl.get 0 m.part.switching g
      let stays : Prop := g.val ∉ m.part.left ∧ p ∉ m.part.tearing
      let begins (q : Nat) (t : State) : Prop := OuterKept s t ∧ t.m.fld R.PTN_GROUP_CURRENT [g] = q % 64 ∧ Tbl.get 0 t.m.part.switching g = 0 ∧
        Tbl.get 0 t.m.part.sliceEnd g = m.now + (m.sliceTicks q - Tbl.get 0 m.part.debt q) ∧ Tbl.get 0 t.m.part.debt q = 0
      (p = 0 ∨ sw ≠ 0 ∨ m.groupShut g = true ∨ m.running = false ∨ (m.now < Tbl.get 0 m.part.sliceEnd g ∧ m.inRotation p = true) → Does (.sliceEnd g) s same) ∧
      (p ≠ 0 → sw = 0 → m.groupShut g = false → m.running = true → Tbl.get 0 m.part.sliceEnd g ≤ m.now ∨ m.inRotation p = false →
        (m.inRotation p = true → m.afterMember g p = [p] → Does (.sliceEnd g) s (fun t => begins p t ∧ MemKept s t ∧ BlocksKept [2] s t)) ∧
        (m.inRotation p = false ∨ m.afterMember g p ≠ [p] →
          let pending (t : State) : Prop := OuterKept s t ∧ Tbl.get 0 t.m.part.switching g = max 1 m.now ∧ Tbl.get 0 t.m.part.overrun g = max 1 m.now
          Does (.sliceEnd g) s pending ∧
          ((∀ a ∈ m.groupPanes g, (m.pane a).cruns = []) → Does (.sliceEnd g) s (fun t => pending t ∧ MemKept s t ∧
            RegsKeptBut ((m.groupPanes g).map (fun a => R.PNE_QUEUE_MATRIX.addr [a])) s t)))) ∧
      (sw = 0 ∨ m.groupBusy g = true ∨ m.groupShut g = true ∨ m.running = false → Does (.sliceSwitch g) s same) ∧
      (sw ≠ 0 → m.groupBusy g = false → m.groupShut g = false → m.running = true →
        (m.afterMember g p = [] → Does (.sliceSwitch g) s (fun t => OuterKept s t ∧ t.m.fld R.PTN_GROUP_CURRENT [g] = 0 ∧ Tbl.get 0 t.m.part.switching g = 0 ∧
          ∀ a ∈ m.groupPanes g, t.m.pane a = Pane.init)) ∧
        (let spent := Tbl.get 0 m.part.debt p + (Tbl.get 0 m.part.overrun g - sw);
          m.afterMember g p = [p] → stays → 1 ≤ p → p ≤ 32 → spent < m.sliceTicks p → Does (.sliceSwitch g) s (fun t => OuterKept s t ∧ t.m.fld R.PTN_GROUP_CURRENT [g] = p ∧
            Tbl.get 0 t.m.part.switching g = 0 ∧ Tbl.get 0 t.m.part.sliceEnd g = m.now + (m.sliceTicks p - spent) ∧ Tbl.get 0 t.m.part.debt p = 0)) ∧
        (∀ (q : Nat) (l : List Nat), m.afterMember g p = q :: l → q ≠ p → 1 ≤ q → q ≤ 32 → p ≤ 32 → Tbl.get 0 m.part.debt q < m.sliceTicks q →
          Does (.sliceSwitch g) s (fun t => begins q t ∧ (∀ a ∈ m.groupPanes g, t.m.pane a = (Tbl.get none m.part.saved (q * 512 + a)).getD (m.conf.cfg.freshPane a q)) ∧
            t.m.fld R.PTN_PSLICE_DEBT_US [q] = 0 ∧ g.val ∉ t.m.part.left ∧
            (p ≠ 0 → ¬ stays → Tbl.get 0 t.m.part.debt p = 0 ∧ ∀ a ∈ m.groupPanes g, Tbl.get none t.m.part.saved (p * 512 + a) = Tbl.get none m.part.saved (p * 512 + a)) ∧
            (p ≠ 0 → stays → m.pstate p = psActive ∨ m.pstate p = psDraining ∨ m.pstate p = psPaused →
              Tbl.get 0 t.m.part.debt p = Tbl.get 0 m.part.debt p + (Tbl.get 0 m.part.overrun g - sw) ∧
              ∀ a ∈ m.groupPanes g, (Tbl.get none t.m.part.saved (p * 512 + a)).isSome = true))))) ∧
    (∀ (q : PaneId) (e : EngineId),
      let runs := if e = .matrix then (m.pane q).mdrain.toList ++ (m.pane q).mrun.toList ++ (m.pane q).split else if e = .vector then (m.pane q).vrun.toList else []
      let isOver (r : Run) : Bool := decide (2 * r.bound * 1000 ≤ r.ran)
      ((∀ r ∈ runs, isOver r = false) ∨ m.core.stopped.contains q.val = true ∨ m.running = false → Does (.sliceWatchdog q e) s same) ∧
      (∀ r : Run, runs.find? isOver = some r → m.core.stopped.contains q.val = false → m.running = true → 1 ≤ r.cmd.part → r.cmd.part ≤ 32 → m.pstate r.cmd.part = psActive →
        Does (.sliceWatchdog q e) s (fun t => OuterKept s t ∧ t.m.pstate r.cmd.part = psFaulted ∧ t.m.fld R.PTN_PSTATE_FAULT_CAUSE [r.cmd.part] = 2))) ∧
    (∀ r : RegionId,
      let st := m.fld R.PTN_SREG_STATE [r]
      let n := m.fld R.PTN_SREG_PAGES [r]
      let stks := if m.fld R.PTN_SREG_STACKS [r] = 0 then 0xFFFF else m.fld R.PTN_SREG_STACKS [r]
      let frames := m.regionFrames r
      let code (k : Nat) (t : State) : Prop := OuterKept s t ∧ t.m.fld R.PTN_SREG_CODE [r] = k
      let refused (k : Nat) (t : State) : Prop := code k t ∧ MemKept s t ∧ t.m.regionFrames r = frames ∧ t.m.fld R.PTN_SREG_STATE [r] = st
      let gone (t : State) : Prop := OuterKept s t ∧ t.m.fld R.PTN_SREG_STATE [r] = 0 ∧ t.m.regionFrames r = [] ∧ (∀ f ∈ frames, Tbl.get 0 t.m.tier.frameOwner f = 0) ∧
        Tbl.get 0 t.m.tier.keys (64 + r) = 0
      (m.accepts = true →
        (st ≠ 0 → Does (.fill r) s (refused 1)) ∧
        (st = 0 →
          let got := Mach.takePages (64 + r) (fun _ => stks) n m 0 0 []
          (got.2.1 ≠ 0 → Does (.fill r) s (refused 2)) ∧
          (n ≠ 0 → (∀ f, m.frameFree f = false) → Does (.fill r) s (refused 2)) ∧
          let waits : Prop := m.margining = true ∧ m.pwr.margin = 1 ∧ ∃ f ∈ got.2.2, f % 512 = m.pwr.target
          (got.2.1 = 0 → waits → Does (.fill r) s (fun t => OuterKept s t ∧ RegsKept s t ∧ MemKept s t ∧ r.val ∈ t.m.pwr.fills)) ∧
          (got.2.1 = 0 → ¬ waits → Does (.fill r) s (fun t => code 0 t ∧ t.m.fld R.PTN_SREG_STATE [r] = 1 ∧ MemKept s t ∧ (t.m.regionFrames r).length = n ∧
            (∀ f ∈ t.m.regionFrames r, Tbl.get 0 t.m.tier.frameOwner f = 64 + r ∧ m.frameFree f = true) ∧ r.val ∈ t.m.part.filling ∧
            Tbl.get 0 t.m.tier.keys (64 + r) = m.tier.keyGen + 1))) ∧
        (st = 0 → Does (.deleteRegion r) s same) ∧
        (st = 1 → Does (.deleteRegion r) s (refused 1)) ∧
        (st = 2 ∨ st = 3 →
          let busy := (m.mappers r).any (fun p => m.pstate p != psNone && m.pstate p != psDefined && m.pstate p != psTornDown) = true ∨ m.fld R.MEM_GOLD_CTL_STATE [r] = 1
          (busy → Does (.deleteRegion r) s (refused 1)) ∧ (¬ busy → Does (.deleteRegion r) s (fun t => gone t ∧ code 0 t ∧ MemKept s t)))) ∧
      (∀ how : FetchEnd, m.running = false ∨ m.part.filling.contains r.val = false → Does (.fillDone r how) s same) ∧
      (m.running = true → m.part.filling.contains r.val = true →
        let src := m.provSegs (m.fld R.PTN_SREG_SRC [r]) (m.fld R.PTN_SREG_ADDR_ADDR [r] * 4096) (frames.length * 2 ^ 21)
        (∀ ep : List (Nat × Nat), src.isSome = true → Does (.fillDone r (.good ep)) s (fun t => OuterKept s t ∧ t.m.fld R.PTN_SREG_STATE [r] = 2 ∧ r.val ∉ t.m.part.filling ∧ t.m.regionFrames r = frames ∧
          Tbl.get 0 t.m.sec.regionSm3 r = sm3 (frames.flatMap (fun f => t.m.load (frameKey f 0) (2 ^ 21))))) ∧
        (∀ f k : Nat, frames = [f] → m.fld R.PTN_SREG_SRC [r] ≠ 0 → src = some [(k, 2 ^ 21)] → m.gone (frameKey f 0) = false → Memory.wf m.mem = true →
          (∀ ep : List (Nat × Nat), Does (.fillDone r (.good ep)) s (fun t => ∀ i < 2 ^ 21, readByte t.m.mem (frameKey f 0 + i) = readByte m.mem (k + i))) ∧
          ∀ i : Nat, i < 2 ^ 15 → Does (.fillDone r (.good [(i, 1)])) s (fun t => t.m.poisonedAt (frameKey f 0 + 64 * i) 1 = true)) ∧
        (∀ how : FetchEnd, how = .fails ∨ src = none → Does (.fillDone r how) s (fun t => gone t ∧ code 3 t ∧ ∀ f ∈ frames, ∀ i < 2 ^ 21, readByte t.m.mem (frameKey f 0 + i) = 0)))) ∧
    (∀ (part : PartId) (tenant : Bool), m.accepts = true →
      let p := part.val + 1
      let live := R.PTN_PANE_TICKS_COUNT.addr [p]
      let base := if tenant then 2 ^ 28 + p * 2 ^ 26 + 0x401000 else live
      Does (.msnap part tenant) s (fun t => t = { s with m := { m with regs := t.m.regs } } ∧
        (∀ (k : Nat) (f : Fld), meterReg[k]? = some f → Regs.word t.m.regs (base + (f.addr [p] - live)) = BitVec.ofNat 64 (Tbl.get 0 m.part.meters (p * 16 + k))) ∧
        Regs.word t.m.regs (base + 0x80) = BitVec.ofNat 64 m.now))

/-- Counter samples and trace (13_counters_trace_and_time.md, R516 to R518, R523 to R528). At the end of an interval of an enabled counter
buffer the record goes to its slot, SEQ counts it, and the counts begin again; a late one is merged into the next and counted SKIPPED. ARM
takes an IDLE trace with a good region to ARMED with its counts at 0, or leaves code 1 or 2. A TRIGGER of source 0, or the time of source
1, takes an ARMED trace to TRIGGERED at the present time; DISARM ends it and empties its ports. A record leaves its port for the ring
before the trigger and for the post-trigger region after it, which may fill and stop the trace; one after the end is counted. -/
def Obligations.CountersAndTrace : Prop :=
  ∀ (s : State) (o : OwnerId),
    let m := s.m
    let same (t : State) : Prop := t = s
    let frame (t : State) : Prop := OuterKept s t ∧ BlocksKept [15] s t ∧ t.m.core = m.core
    let iv := m.fld R.SRV_CCFG_INTERVAL_US [o] * 1000
    let due := m.running = true ∧ m.flag R.SRV_CCFG_ENABLE [o] = true ∧ iv ≠ 0 ∧ m.now % iv = 0
    let n := Tbl.get 0 m.srv.seqs o
    (∀ late : Bool, ¬ due → Does (.counterSample o late) s same) ∧
    (due → Does (.counterSample o true) s (fun t => frame t ∧ MemKept s t ∧ Tbl.get 0 t.m.srv.merged o = Tbl.get 0 m.srv.merged o + 1 ∧
      t.m.fld R.SRV_CSTAT_SKIPPED [o] = min (m.fld R.SRV_CSTAT_SKIPPED [o] + 1) (2 ^ 16 - 1) ∧ Tbl.get 0 t.m.srv.seqs o = n)) ∧
    (due → Does (.counterSample o false) s (fun t => frame t ∧ t.m.fld R.SRV_CSTAT_SEQ [o] = (n + 1) % 2 ^ 32 ∧ Tbl.get 0 t.m.srv.seqs o = n + 1 ∧
      Tbl.get 0 t.m.srv.merged o = 0 ∧ o.val ∉ t.m.srv.partials ∧
      ∀ key : Nat,
        let bs := m.sampleRecord o
        let slot := n % max 1 (m.fld R.SRV_CCFG_SLOTS [o]) * sampleBytes (m.sampleIslands o).length
        (∀ i : Nat, 32 * i < bs.length → m.bufKey o (m.fld R.SRV_CBUF_SPACE [o]) (m.fld R.SRV_CBUF_BASE [o]) (slot + 32 * i) = some (key + 32 * i) ∧
          m.gone (key + 32 * i) = false) →
        t.m.load key bs.length = bs ∧ MemKeptBut key bs.length s t)) ∧
    (let st := m.fld R.SRV_TSTAT_STATE [o]
     let pre := m.fld R.SRV_TREGION_PRE [o] * 65536
     let next := m.fld R.SRV_TSTAT_PRE_NEXT [o]
     let posts := m.fld R.SRV_TSTAT_POST_COUNT [o]
     let coded (k : Nat) (t : State) : Prop := OnlyRegs [R.SRV_TSTAT_CODE.addr [o]] s t ∧ t.m.fld R.SRV_TSTAT_CODE [o] = k ∧ t.m.fld R.SRV_TSTAT_STATE [o] = st
     let emptied (t : State) : Prop := frame t ∧ MemKept s t ∧ ∀ pane < 512, t.m.tracePort o pane = []
     let fires (t : State) : Prop := frame t ∧ MemKept s t ∧ t.m.fld R.SRV_TSTAT_STATE [o] = 2 ∧ t.m.fld R.SRV_TTRIGT_TRIG_TIME [o] = m.now % 2 ^ 64 ∧
       RegsKeptBut [R.SRV_TSTAT_STATE.addr [o], R.SRV_TTRIGT_TRIG_TIME.addr [o]] s t
     (m.accepts = true →
       (st ≠ 0 → Does (.traceArm o) s (coded 1)) ∧
       (st = 0 → m.traceRegionOk o = false → Does (.traceArm o) s (coded 2)) ∧
       (st = 0 → m.traceRegionOk o = true → Does (.traceArm o) s (fun t => emptied t ∧ t.m.fld R.SRV_TSTAT_STATE [o] = 1 ∧ t.m.fld R.SRV_TSTAT_CODE [o] = 0 ∧
         t.m.fld R.SRV_TSTAT_PRE_NEXT [o] = 0 ∧ t.m.fld R.SRV_TSTAT_POST_COUNT [o] = 0 ∧ t.m.fld R.SRV_TSTAT_WRAPPED [o] = 0 ∧ t.m.fld R.SRV_TSTAT_TRACE_FULL [o] = 0 ∧
         t.m.fld R.SRV_TLOST_LOST_POST [o] = 0 ∧ t.m.fld R.SRV_TLOST_DROPPED [o] = 0)) ∧
       (m.fld R.SRV_TTRIG_SOURCE [o] ≠ 0 ∨ st ≠ 1 → Does (.traceTrigger o) s same) ∧
       (m.fld R.SRV_TTRIG_SOURCE [o] = 0 → st = 1 → Does (.traceTrigger o) s fires) ∧
       (st = 0 → Does (.traceDisarm o) s same) ∧
       (st ≠ 0 → Does (.traceDisarm o) s (fun t => emptied t ∧ t.m.fld R.SRV_TSTAT_STATE [o] = 0 ∧ RegsKeptBut [R.SRV_TSTAT_STATE.addr [o]] s t ∧
         t.m.fld R.SRV_TSTAT_PRE_NEXT [o] = next ∧ t.m.fld R.SRV_TSTAT_POST_COUNT [o] = posts))) ∧
     (m.running = false ∨ m.fld R.SRV_TTRIG_SOURCE [o] ≠ 1 ∨ m.now < m.fld R.SRV_TTIME_TIME [o] ∨ st ≠ 1 → Does (.traceTimeTrigger o) s same) ∧
     (m.running = true → m.fld R.SRV_TTRIG_SOURCE [o] = 1 → m.fld R.SRV_TTIME_TIME [o] ≤ m.now → st = 1 → Does (.traceTimeTrigger o) s fires) ∧
     (∀ pane : PaneId,
       (m.tracePort o pane = [] ∨ m.running = false ∨ st = 0 → Does (.traceRecordWrite o pane) s same) ∧
       (∀ (b : List Byte) (l : List (List Byte)), m.tracePort o pane = b :: l → m.running = true → b.length = 32 →
         let stored (slot : Nat) (t : State) : Prop := ∀ key, m.traceKey o (slot * 32) = some key → m.gone key = false → t.m.load key 32 = b ∧ MemKeptBut key 32 s t
         let ring (t : State) : Prop := frame t ∧ t.m.tracePort o pane = l ∧ stored next t ∧ t.m.fld R.SRV_TSTAT_PRE_NEXT [o] = (next + 1) % pre % 2 ^ 29 ∧
           (next + 1 = pre → t.m.fld R.SRV_TSTAT_WRAPPED [o] = 1) ∧ t.m.fld R.SRV_TSTAT_STATE [o] = st
         let late := leAt b 0 8 < m.fld R.SRV_TTRIGT_TRIG_TIME [o]
         let there := ((m.traceKey o (next * 32)).map (fun key => m.loadLe key 8)).getD 0
         let lost : Prop := m.flag R.SRV_TSTAT_WRAPPED [o] = true ∧ Tbl.get 0 m.srv.ringOldest o < there + 1
         (st = 1 → Does (.traceRecordWrite o pane) s ring) ∧
         (st = 2 → late → lost → Does (.traceRecordWrite o pane) s (fun t => frame t ∧ MemKept s t ∧ t.m.tracePort o pane = l ∧
           t.m.fld R.SRV_TLOST_DROPPED [o] = min (m.fld R.SRV_TLOST_DROPPED [o] + 1) (2 ^ 32 - 1))) ∧
         (st = 2 → late → ¬ lost → Does (.traceRecordWrite o pane) s ring) ∧
         (st = 2 → ¬ late → Does (.traceRecordWrite o pane) s (fun t => frame t ∧ t.m.tracePort o pane = l ∧ stored (pre + posts) t ∧
           t.m.fld R.SRV_TSTAT_POST_COUNT [o] = (posts + 1) % 2 ^ 29 ∧
           (pre + posts + 1 = m.fld R.SRV_TREGION_SIZE [o] * 65536 → t.m.fld R.SRV_TSTAT_STATE [o] = 3 ∧ t.m.fld R.SRV_TSTAT_TRACE_FULL [o] = 1) ∧
           (pre + posts + 1 ≠ m.fld R.SRV_TREGION_SIZE [o] * 65536 → t.m.fld R.SRV_TSTAT_STATE [o] = 2))) ∧
         (st = 3 → Does (.traceRecordWrite o pane) s (fun t => frame t ∧ MemKept s t ∧ t.m.tracePort o pane = l ∧
           t.m.fld R.SRV_TLOST_LOST_POST [o] = min (m.fld R.SRV_TLOST_LOST_POST [o] + 1) (2 ^ 32 - 1))))))

/-- The Shutter from a stop to its reopening (10_meridian_links.md, R433, 14_shutter_and_scanout.md, R538 to R544, R550 to R552, R555 to
R558). STOP with too short a LEAD leaves code 2, one without a destination outside DEPLOYED code 5; one of a PARTITION that names none is
rejected, with code 3 by the model's choice (log entry 52). In OPEN it becomes PENDING with its T_stop; an earlier one replaces a pending
one, and at equal times the wider scope stands. At T_stop the partitions of its scope are held and their copies stop at the next 64 KiB;
once every island has stopped T_CUT is fixed and scan-out starts, or the stop waits in STOPPED where no image is written. When the images
are complete, with DONE and their signature, the state is SCANNED, as it is when ABORT_SCAN ends them. REOPEN of the stop in force takes
effect at T_open: the islands run again and only FAULTED partitions stay held. A request from a link is taken once. -/
def Obligations.ShutterStopAndReopen : Prop :=
  ∀ s : State,
    let m := s.m
    let st := m.shtState
    let status := [R.SHT_STATUS_STATE.addr []]
    let same (t : State) : Prop := t = s
    let quiet (t : State) : Prop := OuterKept s t ∧ MemKept s t ∧ t.m.core = m.core ∧ t.m.part = m.part
    let coded (k : Nat) (t : State) : Prop := quiet t ∧ RegsKeptBut status s t ∧ t.m.fld R.SHT_STATUS_CODE [] = k ∧ t.m.shtState = st
    let ignored (t : State) : Prop := quiet t ∧ RegsKeptBut status s t ∧ t.m.shtState = st ∧
      t.m.fld R.SHT_STATUS_IGNORED [] = min (m.fld R.SHT_STATUS_IGNORED [] + 1) (2 ^ 16 - 1)
    let queueRegs (ps : List Nat) : List Nat := ps.flatMap (fun p => (m.conf.cfg.panes p).map (fun q => R.PNE_QUEUE_MATRIX.addr [q]))
    let uncopied (ps : List Nat) : Prop := ∀ p ∈ ps, ∀ q ∈ m.conf.cfg.panes p, (m.pane q).cruns = []
    let onlyQueues (ps l : List Nat) (t : State) : Prop := MemKept s t ∧ RegsKeptBut (l ++ queueRegs ps) s t
    let destSet := (m.fld R.SHT_DEST_SPACE [] = 3 ∨ m.fld R.SHT_DEST_SPACE [] = 8 ∨ m.fld R.SHT_DEST_SPACE [] = 9) ∧ m.fld R.SHT_DESTLEN_MIB [] ≠ 0
    (∀ (scope : Fin 4) (noscan : Bool) (lead : BitVec 24) (part : Byte) (job : BitVec 16), m.accepts = true →
      let least := if scope.val = scFabric ∨ scope.val = scJob then 2000 else 64
      let time := m.now + (if lead = 0 then least else lead.toNat)
      let pending (t : State) : Prop := quiet t ∧ BlocksKept [16] s t ∧ t.m.shtState = 1 ∧ t.m.fld R.SHT_STATUS_CODE [] = 0 ∧ t.m.fld R.SHT_STATUS_SCOPE [] = scope ∧
        t.m.fld R.SHT_STATUS_PARTITION [] = (if scope.val = scPartition then part.toNat else 0) ∧ t.m.fld R.SHT_TSTOP_TIME [] = time % 2 ^ 64 ∧
        t.m.fld R.SHT_REQ_ORIGIN [] = m.moduleId ∧ t.m.sht.noscan = noscan
      let stop := Instr.shutterStop scope noscan lead part job
      let nowhere : Prop := scope.val = scPartition ∧ (part = 0 ∨ 32 < part.toNat)
      let new := (scope.val, if scope.val = scPartition then part.toNat else 0, if scope.val = scJob then job.toNat else 0)
      let old := (m.fld R.SHT_STATUS_SCOPE [], m.fld R.SHT_STATUS_PARTITION [], m.sht.job)
      let stays (t : State) : Prop := quiet t ∧ RegsKept s t
      (lead ≠ 0 → lead.toNat < least → Does stop s (coded 2) ∧ Does (.shutterReopen scope lead part job) s (coded 2)) ∧
      (lead = 0 ∨ least ≤ lead.toNat →
        (nowhere → Does stop s (coded 3)) ∧
        (¬ nowhere → m.lc ≠ 2 → noscan = false → ¬ destSet → Does stop s (coded 5)) ∧
        (¬ nowhere → m.lc = 2 ∨ noscan = true ∨ destSet →
          (st = 0 → Does stop s pending) ∧
          (st = 1 → time < m.fld R.SHT_TSTOP_TIME [] → Does stop s pending) ∧
          (st = 1 → m.fld R.SHT_TSTOP_TIME [] < time → Does stop s stays) ∧
          (st = 1 → time = m.fld R.SHT_TSTOP_TIME [] → m.scopeCovers new old = true → m.scopeCovers old new = false → Does stop s pending) ∧
          (st = 1 → time = m.fld R.SHT_TSTOP_TIME [] → m.scopeCovers new old = false → m.scopeCovers old new = true → Does stop s stays) ∧
          (2 ≤ st → Does stop s ignored)) ∧
        (st = 0 ∨ st = 1 → Does (.shutterReopen scope lead part job) s (coded 4)) ∧
        (st = 4 → Does (.shutterReopen scope lead part job) s (coded 1)) ∧
        (st = 2 ∨ st = 6 → Does (.shutterReopen scope lead part job) s same) ∧
        (let fits := scope.val = m.fld R.SHT_STATUS_SCOPE [] ∧ (scope.val = scPartition → part.toNat = m.fld R.SHT_STATUS_PARTITION []) ∧
           (scope.val = scJob → job.toNat = m.sht.job)
         st = 3 ∨ st = 5 →
          (¬ fits → Does (.shutterReopen scope lead part job) s (coded 4)) ∧
          (fits → Does (.shutterReopen scope lead part job) s (fun t => quiet t ∧ BlocksKept [16] s t ∧ t.m.shtState = 6 ∧ t.m.fld R.SHT_STATUS_CODE [] = 0 ∧
            t.m.fld R.SHT_TOPEN_TIME [] = time % 2 ^ 64))))) ∧
    (m.running = false ∨ st ≠ 1 ∨ m.now < m.fld R.SHT_TSTOP_TIME [] → Does .tStopReached s same) ∧
    (m.running = true → st = 1 → m.fld R.SHT_TSTOP_TIME [] ≤ m.now →
      let ps := m.shutParts (m.fld R.SHT_STATUS_SCOPE []) (m.fld R.SHT_STATUS_PARTITION []) m.sht.job
      Does .tStopReached s (fun t => OuterKept s t ∧ t.m.shtState = 2 ∧ t.m.sht.parts = ps ∧ (∀ p ∈ ps, t.m.shut p = true) ∧
        (m.fld R.GRT_STATUS_STATE [] ≠ gtSynced → bitAt (t.m.fld R.SHT_STATUS_FLAGS []) 1 = true) ∧ (uncopied ps → onlyQueues ps status t))) ∧
    (let still := (∀ q ∈ m.shutIslands, 384 ≤ q ∨ m.paneStill q = true) ∧ ∀ p ∈ m.sht.parts, m.memberStill p = true
     (m.running = false ∨ st ≠ 2 ∨ ¬ still → Does .lastIslandStopped s same) ∧
     (m.running = true → st = 2 → still →
       (m.sht.noscan = true → m.sht.tears = [] → Does .lastIslandStopped s (fun t => OuterKept s t ∧ MemKept s t ∧ BlocksKept [16] s t ∧ t.m.shtState = 3 ∧
         t.m.fld R.SHT_TCUT_TIME [] = m.now % 2 ^ 64 ∧ t.m.core.stopped = m.shutIslands)) ∧
       (m.sht.noscan = false → Does .lastIslandStopped s (fun t => OuterKept s t ∧ BlocksKept [16] s t ∧ t.m.shtState = 4 ∧ t.m.fld R.SHT_TCUT_TIME [] = m.now % 2 ^ 64 ∧
         t.m.core.stopped = m.shutIslands)))) ∧
    (m.accepts = true → st ≠ 4 → Does .abortScan s same) ∧
    (m.accepts = true → st = 4 → Does .abortScan s (fun t => OuterKept s t ∧ t.m.shtState = 5 ∧ t.m.sht.tears = [])) ∧
    (m.accepts = true → st = 4 → m.sht.tears = [] → Does .abortScan s (fun t => quiet t ∧ RegsKeptBut status s t ∧ t.m.shtState = 5)) ∧
    (m.running = false ∨ st ≠ 4 → Does .scanImageDone s same) ∧
    (m.running = true → st = 4 → m.sht.tears = [] → Does .scanImageDone s (fun t => OuterKept s t ∧ RegsKeptBut status s t ∧ t.m.shtState = 5 ∧
      ∀ key n : Nat, m.lc ≠ 2 → m.scanDest 0 = some ([(key, n)], n) → m.gone key = false →
        let all := m.scanSections 0
        let l := scanFit n all.length all
        let image := m.scanImage s.nv 0 l (decide (l.length < all.length))
        image.length ≤ n → t.m.load key image.length = image ∧ MemKeptBut key image.length s t)) ∧
    (m.running = false ∨ st ≠ 6 ∨ m.now < m.fld R.SHT_TOPEN_TIME [] → Does .tOpenReached s same) ∧
    (m.running = true → st = 6 → m.fld R.SHT_TOPEN_TIME [] ≤ m.now → m.sht.flits = [] → Does .tOpenReached s (fun t => OuterKept s t ∧ t.m.shtState = 0 ∧
      t.m.core.stopped = [] ∧ t.m.sht.parts = [] ∧ ∀ p ∈ m.sht.parts, t.m.shut p = (m.shut p && m.pstate p == psFaulted))) ∧
    (∀ (n : LinkId) (body : List Byte),
      (m.running = false ∨ m.linkUp n = false → Does (.shutterReq n body) s same) ∧
      (m.running = true → m.linkUp n = true →
        (let limit := if m.fld R.MRD_LCFG_VIOL_LIMIT [n] = 0 then 16 else m.fld R.MRD_LCFG_VIOL_LIMIT [n];
         ShutReq.ofBody body = none → ((m.link n).viols.filter (fun at' => decide (m.now < at' + second))).length + 1 < limit → Does (.shutterReq n body) s (fun t => OuterKept s t ∧ MemKept s t ∧
          BlocksKept [12, 15, 17] s t ∧ t.m.fld R.MRD_LVIOL_LAST_CODE [n] = 3 ∧ t.m.lstate n = m.lstate n)) ∧
        (∀ r : ShutReq, ShutReq.ofBody body = some r →
          (r.key ∈ m.mrd.seenReq → Does (.shutterReq n body) s (fun t => quiet t ∧ RegsKept s t)) ∧
          (r.key ∉ m.mrd.seenReq → r.scope = scJob → m.jobPart r.job = 0 → Does (.shutterReq n body) s (fun t => quiet t ∧ RegsKept s t ∧ r.key ∈ t.m.mrd.seenReq)) ∧
          (r.key ∉ m.mrd.seenReq → r.scope = scFabric ∨ m.jobPart r.job ≠ 0 →
            (r.reopen = false → m.lc = 2 ∨ (m.lc ≠ 4 ∧ destSet) →
              let ps := m.shutParts r.scope 0 r.job
              let taken (k : Nat) (t : State) : Prop := OuterKept s t ∧ t.m.shtState = k ∧ r.key ∈ t.m.mrd.seenReq ∧
                t.m.fld R.SHT_TSTOP_TIME [] = r.time % 2 ^ 64 ∧ t.m.fld R.SHT_REQ_ORIGIN [] = r.origin % 2 ^ 16 ∧ t.m.fld R.SHT_REQ_REQ_ID [] = r.id % 2 ^ 32
              (st = 0 ∨ (st = 1 ∧ r.time < m.fld R.SHT_TSTOP_TIME []) →
                (m.now ≤ r.time → Does (.shutterReq n body) s (fun t => taken 1 t ∧ MemKept s t ∧ BlocksKept [16] s t)) ∧
                (r.time < m.now → Does (.shutterReq n body) s (fun t => taken 2 t ∧ bitAt (t.m.fld R.SHT_STATUS_FLAGS []) 0 = true ∧ (∀ p ∈ ps, t.m.shut p = true) ∧
                  (uncopied ps → MemKept s t ∧ ∀ a, a / 2 ^ 20 ≠ 16 → a ∉ queueRegs ps → Regs.word t.m.regs a = Regs.word m.regs a)))) ∧
              (2 ≤ st → Does (.shutterReq n body) s ignored)) ∧
            (r.reopen = true →
              (st = 0 ∨ st = 1 → Does (.shutterReq n body) s (coded 4)) ∧
              (st = 4 → Does (.shutterReq n body) s (coded 1)) ∧
              (st = 2 ∨ st = 6 → Does (.shutterReq n body) s (fun t => quiet t ∧ RegsKept s t)) ∧
              (st = 3 ∨ st = 5 →
                (m.reopenFits r = false → Does (.shutterReq n body) s (coded 4)) ∧
                (m.reopenFits r = true → Does (.shutterReq n body) s (fun t => quiet t ∧ BlocksKept [16] s t ∧ t.m.shtState = 6 ∧
                  t.m.fld R.SHT_STATUS_CODE [] = 0 ∧ t.m.fld R.SHT_TOPEN_TIME [] = r.time % 2 ^ 64))))))))

/-- Faults of units, failed panes and their repair (09_memory_tiers.md, R376, R394, 12_partitions_and_slices.md, R485,
15_faults_and_continuity.md, R566, R570 to R573, R576 to R578). A Porter, module-state or rail fault is FATAL: it leaves its cause and
every link is DOWN. A corrected Transom word is counted; one that cannot be corrected is counted and its line poisoned, as is a line of a
pane store, whose pane fails with the sixteenth line of a millisecond. A failed pane leaves service: its partition waits for a spare where
its stage may migrate and one is free, and is FAULTED otherwise. At the quiet point the spare takes the pane's number with a zeroed store
and the image's code, and a training that runs goes back to its checkpoint or is abandoned. The repair of a shared region's page fetches
its golden copy into its frame, or into another where its own is retired; without a copy or a frame the region FAILS. -/
def Obligations.FaultsAndRepair : Prop :=
  ∀ s : State,
    let m := s.m
    let same (t : State) : Prop := t = s
    (m.fld R.ERR_MSTATE_STATE [] ≠ 0 → ∀ e : FaultEvent, Does (.handlerStart e) s same) ∧
    (m.fld R.ERR_MSTATE_STATE [] = 0 →
      (∀ (e : FaultEvent) (code : Nat), (e = .porter ∧ code = ecPorter) ∨ (∃ d, e = .moduleRegion d ∧ code = ecModuleState) ∨ (∃ n, e = .rail n ∧ code = ecPower) →
        Does (.handlerStart e) s (fun t => OuterKept s t ∧ t.m.fld R.ERR_MSTATE_STATE [] = 1 ∧ t.m.fld R.ERR_MSTATE_CAUSE [] = code ∧ t.m.running = false ∧
          ∀ n : Nat, n < 10 → t.m.lstate n = lkDown)) ∧
      (∀ d : DieId, Does (.handlerStart (.transomCorrected d)) s (fun t => OnlyRegs [R.TRN_DIE_CORR.addr [d]] s t ∧
        t.m.fld R.TRN_DIE_CORR [d] = min (m.fld R.TRN_DIE_CORR [d] + 1) (2 ^ (R.TRN_DIE_CORR.hi + 1 - R.TRN_DIE_CORR.lo) - 1))) ∧
      (∀ (sl : Fin 2048) (l : Fin 65536), Tbl.get 0 m.tier.sliceOwner sl ≤ 32 → Does (.handlerStart (.transomLine sl l)) s (fun t => OuterKept s t ∧ MemKept s t ∧ t.m.core = m.core ∧ BlocksKept [10, 15, 17] s t ∧
        t.m.poisonedAt (sliceKey sl (l.val * 64)) 64 = true ∧
        t.m.fld R.TRN_DIE_UNCORR [sl.val / 256] = min (m.fld R.TRN_DIE_UNCORR [sl.val / 256] + 1) (2 ^ (R.TRN_DIE_UNCORR.hi + 1 - R.TRN_DIE_UNCORR.lo) - 1))) ∧
      (∀ (q : PaneId) (l : Fin 65536), m.paneOwner q ≤ 32 → ((Tbl.get [] m.tier.paneHits q).filter (fun t => decide (m.now < t + 10 ^ 6))).length < 15 →
        Does (.handlerStart (.paneLine q l)) s (fun t => OuterKept s t ∧ MemKept s t ∧ t.m.core = m.core ∧ BlocksKept [15, 17] s t ∧
          t.m.poisonedAt (paneKey q (l.val * 64)) 64 = true)) ∧
      (∀ (q : PaneId) (l : Fin 65536), 15 ≤ ((Tbl.get [] m.tier.paneHits q).filter (fun t => decide (m.now < t + 10 ^ 6))).length →
        q.val ∉ m.core.failed → m.flag R.PNE_ID_PRESENT [q] = true → Does (.handlerStart (.paneLine q l)) s (fun t => OuterKept s t ∧ q.val ∈ t.m.core.failed))) ∧
    (∀ q : PaneId,
      (m.running = false ∨ q.val ∈ m.core.failed ∨ m.flag R.PNE_ID_PRESENT [q] = false → Does (.paneFailure q) s same) ∧
      (m.running = true → q.val ∉ m.core.failed → m.flag R.PNE_ID_PRESENT [q] = true →
        Does (.paneFailure q) s (fun t => OuterKept s t ∧ q.val ∈ t.m.core.failed) ∧
        (∀ p : Nat, m.conf.cfg.holders q = [p] → 1 ≤ p → p ≤ 32 → m.pstate p = psActive →
          (m.conf.cfg.mayMigrate p q = false ∨ ((m.slotBad q).slotSync).fld R.PRT_PANE_MAP_SPARES [q.val / 48] = 0 → Does (.paneFailure q) s (fun t => t.m.pstate p = psFaulted ∧ t.m.fld R.PTN_PSTATE_FAULT_CAUSE [p] = 1)) ∧
          (m.conf.cfg.mayMigrate p q = true → m.fix.panes = [] → ((m.slotBad q).slotSync).fld R.PRT_PANE_MAP_SPARES [q.val / 48] ≠ 0 →
            Does (.paneFailure q) s (fun t => t.m.pstate p = psActive ∧ t.m.fix.panes = [(p, q.val)] ∧ t.m.held p = true))))) ∧
    (∀ part : PartId,
      let p := part.val + 1
      let first := ((m.handlersOf p).running.head?.map (fun h => h.2 == ecPaneRepaired)).getD false
      let mine := m.fix.panes.any (fun x => x.1 == p)
      (m.running = false ∨ m.shut p = true ∨ mine = false ∨ m.anyStarted p = true ∨ first = false → Does (.repairQuietPoint part) s same) ∧
      (m.running = true → m.shut p = false → m.anyStarted p = false → first = true → ∀ (q : PaneId) (slot : Nat), m.fix.panes = [(p, q.val)] → q.val ∈ m.core.failed →
        m.spareSlot q = some slot →
        let mended (t : State) : Prop := OuterKept s t ∧ q.val ∉ t.m.core.failed ∧ t.m.fld R.PNE_ID_SLOT [q] = slot % 64 ∧ t.m.flag R.PNE_ID_MIGRATED [q] = true ∧
          t.m.flag R.PNE_ID_PRESENT [q] = true ∧ t.m.fix.panes = [] ∧ (p, hdRepair) ∉ t.m.part.holds
        (∀ c : Nat, m.tstate p = tsRunning → m.ckptStep p = some c → (m.ckpt p).rollTo = 0 → Does (.repairQuietPoint part) s (fun t => mended t ∧
          (t.m.ckpt p).rollTo = c + 1 ∧ (p, hdRoll) ∈ t.m.part.holds)) ∧
        (m.tstate p = tsRunning → m.ckptStep p = none → Does (.repairQuietPoint part) s (fun t => mended t ∧ t.m.tstate p = tsStopped ∧
          t.m.fld R.COL_TSTATE_CODE [p] = tcAbandoned)) ∧
        (m.tstate p ≠ tsRunning → Does (.repairQuietPoint part) s mended) ∧
        (m.paneOwner q = p → m.conf.cfg.shared p = false → m.tstate p ≠ tsRunning → (∀ n : Nat, n < 32 → m.pipePart n ≠ p) →
          Does (.repairQuietPoint part) s (fun t => mended t ∧ t.m.pane q = m.conf.cfg.freshPane q p ∧ MemKeptBut (paneKey q 0) (2 ^ 22) s t ∧
            ∀ k < 2 ^ 22, readByte t.m.mem (paneKey q k) = 0)))) ∧
    (∀ good : Bool, m.running = false ∨ m.fix.regions = [] → Does (.sharedRegionRepairDone good) s same) ∧
    (∀ (x : RegionFix) (rest : List RegionFix), m.running = true → m.fix.regions = x :: rest → x.region < 64 →
      (m.tier.rowMoves.contains (lineNo x.frame x.line) = true → ∀ good : Bool, Does (.sharedRegionRepairDone good) s same) ∧
      (m.tier.rowMoves.contains (lineNo x.frame x.line) = false → m.tier.retired.contains x.frame = false → m.frameGone x.frame = false →
        Does (.sharedRegionRepairDone false) s (fun t => OuterKept s t ∧ t.m.fld R.PTN_SREG_STATE [x.region] = 3 ∧ ∀ y ∈ t.m.fix.regions, y.region ≠ x.region) ∧
        (m.goldenInto x.region x.page x.frame = none → Does (.sharedRegionRepairDone true) s (fun t => t.m.fld R.PTN_SREG_STATE [x.region] = 3)) ∧
        (∀ w : Mach, m.goldenInto x.region x.page x.frame = some w → Does (.sharedRegionRepairDone true) s (fun t => OuterKept s t ∧
          t.m.fix.regions = rest ∧ (∀ k, readByte t.m.mem k = readByte w.mem k) ∧ t.m.poison = w.poison ∧
          t.m.fld R.PTN_SREG_STATE [x.region] = m.fld R.PTN_SREG_STATE [x.region] ∧ t.m.regionFrames x.region = m.regionFrames x.region))) ∧
      (m.tier.rowMoves.contains (lineNo x.frame x.line) = false → m.tier.retired.contains x.frame = true ∨ m.frameGone x.frame = true →
        let a := m.repairFrame x.region x.frame
        (a.2 = none → ∀ good : Bool, Does (.sharedRegionRepairDone good) s (fun t => OuterKept s t ∧ t.m.fld R.PTN_SREG_STATE [x.region] = 3)) ∧
        (∀ (f : Nat) (w : Mach), a.2 = some f → f ≠ x.frame → a.1.goldenInto x.region x.page f = some w → Does (.sharedRegionRepairDone true) s (fun t => OuterKept s t ∧
          t.m.fix.regions = rest ∧ (∀ k, readByte t.m.mem k = readByte w.mem k) ∧ t.m.fld R.PTN_SREG_STATE [x.region] = m.fld R.PTN_SREG_STATE [x.region] ∧
          t.m.regionFrames x.region = (m.regionFrames x.region).set x.page f))))

/-- Hardware checkpoints and rollback (15_faults_and_continuity.md, R579 to R585, R587). CHECKPOINT_NOW asks for a checkpoint. A copy that met
no poison makes the shadow valid with its header, invalidates the next slot and starts the drain, and an export that reads that slot is
OVERTAKEN; poison leaves the shadow invalid with code 2. A drain that the destination took, this module's or the buddy's, makes that slot
valid and the last; otherwise code 3. RESTORE of a stopped window puts the content of a valid slot back, and of one that is not valid
leaves code 4. A rollback abandons the open steps and collectives, restores from the shadow or the slot that holds its step, and runs again
from the step after the checkpoint, or goes on to an older one asked for meanwhile; without such a slot the window is ABANDONED. The
rollback of a window that was stopped meanwhile is given up (the model's choice, log entry 24). -/
def Obligations.CheckpointsAndRollback : Prop :=
  ∀ (s : State) (part : PartId),
    let m := s.m
    let p := part.val + 1
    let x := m.ckpt p
    let c := x.step
    let same (t : State) : Prop := t = s
    let is (st code : Nat) (t : State) : Prop := OuterKept s t ∧ t.m.ckState p = st ∧ t.m.fld R.CKP_STATUS_CODE [p] = code
    let reg := [R.CKP_STATUS_STATE.addr [p]]
    let next := m.ckNext p
    let overtaken : Prop := m.exporting p = true ∧ x.expSlot = next
    (m.accepts = true → Does (.checkpointNow part) s (fun t => t = { s with m := m.setCkpt p { x with nowReq := true } } ∧ (t.m.ckpt p).nowReq = true)) ∧
    (m.ckState p ≠ ckCopying ∨ m.anyStarted p = true ∨ m.running = false ∨ m.shut p = true → Does (.checkpointCopyDone part) s same) ∧
    (m.ckState p = ckCopying → m.anyStarted p = false → m.running = true → m.shut p = false →
      let rs := m.ckRanges p
      let sh := m.ckShadow p
      let bad := (m.ckCopy p (laidOut rs 0) (onward sh 64) false).2
      (bad = true → Does (.checkpointCopyDone part) s (fun t => is ckIdle ckPoison t ∧ t.m.flag R.CKP_STATUS_SHADOW [p] = false ∧ (p, hdCkpt) ∉ t.m.part.holds)) ∧
      (bad = false → Does (.checkpointCopyDone part) s (fun t => is ckDraining 0 t ∧ t.m.flag R.CKP_STATUS_SHADOW [p] = true ∧ (p, hdCkpt) ∉ t.m.part.holds ∧
        (t.m.ckpt p).shadowStep = c ∧ bitAt (t.m.fld R.CKP_STATUS_VALID [p]) next = false ∧
        (overtaken → t.m.fld R.COL_TEXPORT_STATUS_STATE [p] = 3) ∧ (¬ overtaken → RegsKeptBut reg s t) ∧
        ∀ key, ¬ overtaken → m.spotSegs p true sh 64 = some [(key, 64)] → m.gone key = false →
          (m.fld R.CKP_CTL_DEST [p] ≠ 2 → ∀ g, m.spotSegs p true (onward (m.ckSlot p next) 56) 8 = some g → ∀ q ∈ g, key + 64 ≤ q.1 ∨ q.1 + q.2 ≤ key) →
          ∃ digest, t.m.load key 64 = ckHeader c (m.train p).table.length (laidBytes rs + (m.ckTail p).length) digest 0))) ∧
    (∀ good : Bool, m.ckState p ≠ ckDraining ∨ m.running = false ∨ m.shut p = true ∨ (good = true ∧ m.ckAway p = true) →
      Does (.checkpointDrainDone part good) s same) ∧
    (m.ckState p = ckDraining → m.running = true → m.shut p = false →
      let n := leAt (m.spotLoad p (m.ckShadow p) 64) 16 8
      Does (.checkpointDrainDone part false) s (fun t => is ckIdle ckDestError t ∧ MemKept s t ∧ BlocksKept [13, 15, 17] s t ∧
        t.m.fld R.CKP_STATUS_VALID [p] = m.fld R.CKP_STATUS_VALID [p] ∧ t.m.fld R.CKP_STATUS_LAST [p] = m.fld R.CKP_STATUS_LAST [p]) ∧
      let drained (t : State) : Prop := is ckIdle 0 t ∧ bitAt (t.m.fld R.CKP_STATUS_VALID [p]) next = true ∧ t.m.fld R.CKP_STATUS_LAST [p] = next ∧
        t.m.fld R.CKP_STATUS_LAST_STEP [p] = c % 2 ^ 32 ∧ Tbl.get 0 (t.m.ckpt p).slots next = c + 1 ∧ RegsKeptBut reg s t
      let buddyRoute := m.routeLink (m.fld R.CKP_CTL_BUDDY [p]) m.moduleId (m.jobOf p) 0xC5000000
      (m.fld R.CKP_CTL_DEST [p] = 2 → buddyRoute.isSome = true → Does (.checkpointDrainDone part true) s (fun t => drained t ∧ MemKept s t)) ∧
      ((m.fld R.CKP_CTL_DEST [p] = 2 ∧ buddyRoute = none) ∨ (m.fld R.CKP_CTL_DEST [p] ≠ 2 ∧ m.ckAway p = false ∧ m.spotSegs p true (m.ckSlot p next) (64 + n) = none) →
        Does (.checkpointDrainDone part true) s (fun t => is ckIdle ckDestError t ∧ MemKept s t)) ∧
      (m.fld R.CKP_CTL_DEST [p] ≠ 2 → m.ckAway p = false → (m.spotSegs p true (m.ckSlot p next) (64 + n)).isSome = true → Does (.checkpointDrainDone part true) s (fun t => drained t ∧
        ∀ key, m.spotSegs p true (m.ckSlot p next) 64 = some [(key, 64)] → m.gone key = false →
          t.m.load key 64 = (m.spotLoad p (m.ckShadow p) 64).take 56 ++ leBytes 8 m.now ∨ (m.spotLoad p (m.ckShadow p) 64).length ≠ 64))) ∧
    (∀ slot : Fin 2, m.accepts = true →
      (m.tstate p ≠ tsStopped ∨ m.ckState p ≠ ckIdle → Does (.checkpointRestore part slot) s same) ∧
      (m.tstate p = tsStopped → m.ckState p = ckIdle →
        (m.fld R.CKP_CTL_DEST [p] = 2 → Does (.checkpointRestore part slot) s (fun t => is ckRestoring 0 t ∧ (t.m.ckpt p).why = 1 ∧
          t.m.flag R.CKP_STATUS_SHADOW [p] = false ∧ (m.exporting p = false → MemKept s t ∧ RegsKeptBut reg s t) ∧
          (m.exporting p = true → m.exportRead p = false → t.m.fld R.COL_TEXPORT_STATUS_STATE [p] = 4))) ∧
        (m.ckAway p = true → Does (.checkpointRestore part slot) s (fun t => is ckIdle ckBadSlot t ∧ MemKept s t ∧ RegsKeptBut reg s t)) ∧
        (m.fld R.CKP_CTL_DEST [p] ≠ 2 → m.ckAway p = false →
          let r := m.ckRestore p (m.ckSlot p slot)
          (m.ckValid p (m.ckSlot p slot) = none → Does (.checkpointRestore part slot) s (fun t => is ckIdle ckBadSlot t ∧ MemKept s t ∧ RegsKeptBut reg s t)) ∧
          (m.ckValid p (m.ckSlot p slot) ≠ none → r.2.2 = false → Does (.checkpointRestore part slot) s (fun t => is ckIdle 0 t ∧
            ∀ k, readByte t.m.mem k = readByte r.1.mem k)) ∧
          (m.ckValid p (m.ckSlot p slot) ≠ none → r.2.2 = true → m.pstate p = psActive → Does (.checkpointRestore part slot) s (fun t => t.m.pstate p = psFaulted ∧
            t.m.fld R.PTN_PSTATE_FAULT_CAUSE [p] = 1))))) ∧
    (let waits := x.rollTo = 0 ∨ m.anyStarted p = true ∨ m.ckState p ≠ ckIdle ∨ m.running = false ∨ m.shut p = true ∨
       m.fix.panes.any (fun f => f.1 == p) = true
     let to_ := x.rollTo - 1
     let shadow := m.flag R.CKP_STATUS_SHADOW [p] = true ∧ x.shadowStep = to_
     m.accepts = true →
      (waits → Does (.rollback part) s same) ∧
      (¬ waits → m.tstate p = tsStopped → Does (.rollback part) s (fun t => OuterKept s t ∧ (t.m.ckpt p).rollTo = 0 ∧ (p, hdRoll) ∉ t.m.part.holds ∧
        (m.conf.cfg.shared p = false → MemKept s t))) ∧
      (¬ waits → m.tstate p ≠ tsStopped → shadow → Does (.rollback part) s (fun t => is ckRestoring 0 t ∧ (t.m.ckpt p).source = 0 ∧ (t.m.ckpt p).step = to_ ∧ (t.m.train p).steps = [] ∧
        (t.m.coll p).runs = [] ∧ (t.m.coll p).fifo = [])) ∧
      (∀ k : Nat, k < 2 → ¬ waits → m.tstate p ≠ tsStopped → ¬ shadow → bitAt (m.fld R.CKP_STATUS_VALID [p]) k = true → Tbl.get 0 x.slots k = to_ + 1 →
        (∀ j < k, bitAt (m.fld R.CKP_STATUS_VALID [p]) j = false ∨ Tbl.get 0 x.slots j ≠ to_ + 1) → Does (.rollback part) s (fun t => is ckRestoring 0 t ∧
          (t.m.ckpt p).source = k + 1 ∧ (t.m.ckpt p).step = to_ ∧ (t.m.train p).steps = [] ∧ (m.fld R.CKP_CTL_DEST [p] = 2 → (t.m.ckpt p).why = 2))) ∧
      (¬ waits → m.tstate p ≠ tsStopped → ¬ shadow → (∀ k < 2, bitAt (m.fld R.CKP_STATUS_VALID [p]) k = false ∨ Tbl.get 0 x.slots k ≠ to_ + 1) → Does (.rollback part) s (fun t => OuterKept s t ∧
        (t.m.ckpt p).rollTo = 0 ∧ t.m.tstate p = tsStopped ∧ t.m.fld R.COL_TSTATE_CODE [p] = tcAbandoned ∧ (p, hdRoll) ∉ t.m.part.holds))) ∧
    (let fetching : Prop := (x.why ≠ 0 ∧ (x.total = 0 ∨ x.got + 1 < x.total)) ∨ (x.source ≠ 0 ∧ x.why = 0 ∧ m.ckAway p = true)
     (x.rollTo = 0 ∨ m.ckState p ≠ ckRestoring ∨ fetching ∨ m.running = false ∨ m.shut p = true → Does (.rollbackRestoreDone part) s same) ∧
     (x.rollTo ≠ 0 → m.ckState p = ckRestoring → ¬ fetching → m.running = true → m.shut p = false →
      let w := if x.source = 0 ∨ x.why ≠ 0 then m.ckShadow p else m.ckSlot p (x.source - 1)
      let more : Prop := x.rollTo ≠ c + 1
      let y := { x with rollTo := if x.rollTo = c + 1 then 0 else x.rollTo, why := 0, total := 0, got := 0 }
      let poisoned := ((m.setCkpt p y).ckRestore p w).2.2
      (x.source ≠ 0 → m.ckValid p w ≠ some c → Does (.rollbackRestoreDone part) s (fun t => is ckIdle ckBadSlot t ∧ t.m.tstate p = tsStopped ∧
        (p, hdRoll) ∉ t.m.part.holds ∧ (m.conf.cfg.shared p = false → MemKept s t))) ∧
      (x.source = 0 ∨ m.ckValid p w = some c → poisoned = true → m.pstate p = psActive → Does (.rollbackRestoreDone part) s (fun t => t.m.pstate p = psFaulted ∧
        t.m.fld R.PTN_PSTATE_FAULT_CAUSE [p] = 1)) ∧
      (x.source = 0 ∨ m.ckValid p w = some c → poisoned = false → Does (.rollbackRestoreDone part) s (fun t => is ckIdle 0 t ∧
        t.m.fld R.COL_TSTATE_CLOSED [p] = c % 2 ^ 32 ∧ t.m.tstate p = tsRunning ∧ (t.m.train p).steps.map (fun z => z.step) = [stepAdd c 1, stepAdd c 2] ∧
        (more → (t.m.ckpt p).rollTo = x.rollTo) ∧ (¬ more → (t.m.ckpt p).rollTo = 0 ∧ (p, hdRoll) ∉ t.m.part.holds)))))

/-- The manager, workers and spares of a training hierarchy (10_meridian_links.md, R431, 15_faults_and_continuity.md, R588 to R591). A message
of a job that no partition here has is counted UNCLAIMED, and one that does not fit the receiver's role has no effect. A heartbeat is
noted; the timer sends one, a manager's to every member. The manager collects GATE and READY: the last GATE of a step sends the combined
verdict to every worker, the last READY releases the barrier, naming the checkpoint that is due after it. A worker keeps GATE_ALL, RELEASE
and the named checkpoint; ROLLBACK rewrites its member tables, holds it and asks for the step, RESUME lets it run. A spare told REPLACE
fetches the slot from the buddy, or takes over at once from a slot that it keeps itself, and then says JOINED. JOINED of the last spare
puts the spare into the roster and resumes every member. A module that fails is replaced by the first spare left, from a slot at a buddy
that can be reached; else the hierarchy stops with code 1 or 2. A worker that does not hear its manager is marked, to be held at its
boundary, and stops after MGR_TIMEOUT. -/
def Obligations.TrainingHierarchy : Prop :=
  ∀ (s : State) (h : HierHead),
    let m := s.m
    let job := h.job.toNat
    let p := m.jobPart job
    let x := m.hier p
    let src := h.src.toNat
    let step := h.step.toNat
    let arg := h.arg.toNat
    let role := m.hierRole p
    let same (t : State) : Prop := t = s
    let frame (t : State) : Prop := OuterKept s t ∧ MemKept s t
    let kept (t : State) : Prop := frame t ∧ RegsKept s t ∧ t.m.hiers = m.hiers ∧ t.m.part = m.part
    let stat (t : State) : Prop := frame t ∧ RegsKeptBut [R.HIER_STAT_STATE.addr [p]] s t ∧ t.m.part = m.part
    let workers := m.hierWorkers p
    let far := workers.filter (fun w => w != m.moduleId)
    let rewritten (old new : Nat) (t : State) : Prop := ∀ k, readByte t.m.mem k = readByte (m.rewriteMembers p old new).mem k
    let all := [Instr.hierHeartbeat h, .gate h, .gateAll h, .ready h, .hierRelease h, .hierCheckpoint h, .hierRollback h, .replace h, .joined h, .hierResume h, .hierFaulted h]
    (m.jobShut job = true → ∀ c ∈ all, Does c s same) ∧
    (m.jobShut job = false → p = 0 → ∀ c ∈ all, Does c s (fun t => frame t ∧ RegsKeptBut [R.MRD_STAT_UNCLAIMED.addr []] s t ∧
      t.m.fld R.MRD_STAT_UNCLAIMED [] = min (m.fld R.MRD_STAT_UNCLAIMED [] + 1) (2 ^ 16 - 1))) ∧
    (m.jobShut job = false → p ≠ 0 →
      (role = 0 → ∀ c ∈ all, Does c s kept) ∧
      (role ≠ 1 → ∀ c ∈ [Instr.gate h, .ready h, .joined h, .hierFaulted h], Does c s kept) ∧
      (role ≠ 2 ∨ src ≠ m.hierMgr p → ∀ c ∈ [Instr.gateAll h, .hierRelease h, .hierCheckpoint h, .hierRollback h, .hierResume h], Does c s kept) ∧
      (role ≠ 3 ∨ src ≠ m.hierMgr p → Does (.replace h) s kept) ∧
      (role = 1 → Does (.hierHeartbeat h) s (fun t => frame t ∧ RegsKept s t ∧ t.m.part = m.part ∧ Tbl.get 0 (t.m.hier p).heard src = m.now ∧
        Tbl.get 0 (t.m.hier p).homes src = arg % 2 ^ 18 + 1)) ∧
      (role ≠ 1 → src ≠ m.hierMgr p → Does (.hierHeartbeat h) s kept) ∧
      (role = 2 ∨ role = 3 → src = m.hierMgr p → Does (.hierHeartbeat h) s (fun t => OuterKept s t ∧ (t.m.hier p).mgrHeard = m.now ∧ (t.m.hier p).orphan = false ∧
        (x.orphan = true → x.rolling = 0 → (p, hdHier) ∉ t.m.part.holds) ∧ (x.orphan = false → stat t))) ∧
      (role = 1 →
        let saw := bitAt arg 0
        let others := x.gates.filter (fun g => !(g.1 == src && g.2.1 == step))
        let isOver := saw || others.any (fun g => g.2.1 == step && g.2.2)
        ((∃ w ∈ workers, w ≠ src ∧ ∀ g ∈ x.gates, g.1 = w → g.2.1 ≠ step) → Does (.gate h) s (fun t => stat t ∧ (t.m.hier p).gates = others ++ [(src, step, saw)] ∧
          (t.m.hier p).verdicts = x.verdicts)) ∧
        ((∀ w ∈ workers, w = src ∨ ∃ o, (w, step, o) ∈ others) → Does (.gate h) s (fun t => stat t ∧
          (t.m.hier p).verdicts = x.verdicts ++ [(step, 1 + b2n isOver)] ∧ (∀ g ∈ (t.m.hier p).gates, g.2.1 ≠ step) ∧ ∀ w ∈ far, HierSends p w 3 step (b2n isOver) s t)) ∧
        (let noted (t : State) : Prop := stat t ∧ (t.m.hier p).epoch = t.m.hierEpoch p ∧
           Tbl.get 0 (t.m.hier p).drained src = if arg < 2 ^ 32 then arg + 1 else Tbl.get 0 x.drained src
         ((∃ w ∈ workers, w ≠ src ∧ (w, step) ∉ x.readies) → Does (.ready h) s (fun t => noted t ∧ (src, step) ∈ (t.m.hier p).readies ∧ (t.m.hier p).releases = x.releases)) ∧
         ((∀ w ∈ workers, w = src ∨ (w, step) ∈ x.readies) → Does (.ready h) s (fun t => noted t ∧ (t.m.hier p).releases = x.releases ++ [step] ∧
           ∀ w ∈ far, HierSends p w 5 step 0 s t ∧ (m.hierDue p (stepAdd step 1) = true → HierSends p w 6 (stepAdd step 1) 0 s t)))) ∧
        ((∀ j ∈ x.joining, j.2 ≠ src) → Does (.joined h) s kept) ∧
        (∀ orig : Nat, x.joining = [(orig, src)] → Does (.joined h) s (fun t => OuterKept s t ∧ (t.m.hier p).joining = [] ∧ (t.m.hier p).lost = [] ∧ (t.m.hier p).rolled = false ∧
          t.m.fld R.HIER_STAT_STATE [p] = hiRunning ∧ (p, hdHier) ∉ t.m.part.holds ∧ (∀ d ∈ t.m.hierOthers p, HierSends p d 10 (x.epoch - 1) 0 s t) ∧
          ∀ (i : Nat) (key : Nat), (m.roster p)[i]? = some (orig, 2) → m.segs p none true (m.rosterAt p (4 * i)) 4 = some [(key, 4)] → m.gone key = false →
            (∀ j < (m.roster p).length, j ≠ i → ∀ g, m.segs p none true (m.rosterAt p (4 * j)) 4 = some g → ∀ q ∈ g, q.1 + q.2 ≤ key ∨ key + 4 ≤ q.1) →
            t.m.loadLe key 2 = src ∧ t.m.loadLe (key + 2) 2 = 2))) ∧
      (role = 2 → src = m.hierMgr p →
        Does (.gateAll h) s (fun t => stat t ∧ (t.m.hier p).verdicts = x.verdicts.filter (fun v => v.1 != step) ++ [(step, 1 + b2n (bitAt arg 0))] ∧
          t.m.hierVerdict p step = some (1 + b2n (bitAt arg 0))) ∧
        Does (.hierRelease h) s (fun t => stat t ∧ (t.m.hier p).releases = x.releases.filter (fun k => k != step) ++ [step]) ∧
        Does (.hierCheckpoint h) s (fun t => stat t ∧ (t.m.hier p).named = step + 1) ∧
        (x.rolling = 0 → Does (.hierRollback h) s (fun t => OuterKept s t ∧ rewritten (arg % 65536) (arg / 65536 % 65536) t ∧ t.m.fld R.HIER_STAT_STATE [p] = hiReplacing ∧
          (t.m.hier p).rolling = step + 1 ∧ (p, hdHier) ∈ t.m.part.holds ∧ (m.tstate p ≠ tsStopped → (t.m.ckpt p).rollTo = step + 1 ∧ t.m.held p = true))) ∧
        (x.rolling ≠ 0 → Does (.hierRollback h) s (fun t => OuterKept s t ∧ rewritten (arg % 65536) (arg / 65536 % 65536) t ∧ RegsKept s t ∧ t.m.hiers = m.hiers ∧
          t.m.part = m.part)) ∧
        (x.rolling = 0 → Does (.hierResume h) s kept) ∧
        (x.rolling ≠ 0 → Does (.hierResume h) s (fun t => OuterKept s t ∧ (t.m.hier p).rolling = 0 ∧ t.m.fld R.HIER_STAT_STATE [p] = hiRunning ∧
          (p, hdHier) ∉ t.m.part.holds))) ∧
      (role = 3 → src = m.hierMgr p →
        let buddy := arg / 65536 % 65536
        let failed := arg % 65536
        (m.tstate p ≠ tsStopped ∨ m.ckState p ≠ ckIdle → Does (.replace h) s kept) ∧
        (m.tstate p = tsStopped → m.ckState p = ckIdle → m.exporting p = false →
          (buddy ≠ m.moduleId → Does (.replace h) s (fun t => frame t ∧ (t.m.ckpt p).why = 3 ∧ t.m.ckState p = ckRestoring ∧ t.m.fld R.HIER_STAT_STATE [p] = hiReplacing ∧
            (t.m.hier p).replaces = failed ∧ (t.m.hier p).buddy = buddy ∧ (t.m.hier p).epoch = step + 1 ∧
            Sends p buddy 0x38 0xC5000000 (bulkBytes (.fetch (BitVec.ofNat 16 failed) true 0 h.step)) s t)) ∧
          (buddy = m.moduleId →
            ((∀ k < 2, m.ckValid p (m.ckKept p k) ≠ some step) → Does (.replace h) s (fun t => frame t ∧ t.m.ckState p = ckIdle ∧ t.m.fld R.CKP_STATUS_CODE [p] = ckBadSlot ∧
              t.m.fld R.HIER_CFG_ROLE [p] = 3)) ∧
            (∀ k < 2, m.ckValid p (m.ckKept p k) = some step → (∀ j < k, m.ckValid p (m.ckKept p j) ≠ some step) →
              let w := (m.ckMove p (m.ckKept p k) (m.ckShadow p) (64 + leAt (m.spotLoad p (m.ckKept p k) 64) 16 8)).1
              w.ckValid p (m.ckShadow p) = some step → (w.ckRestore p (m.ckShadow p)).2.2 = false →
                Does (.replace h) s (fun t => OuterKept s t ∧ t.m.fld R.HIER_CFG_ROLE [p] = 2 ∧ t.m.ckState p = ckIdle ∧ t.m.fld R.COL_TSTATE_CLOSED [p] = step ∧
                  t.m.tstate p = tsRunning ∧ (t.m.hier p).rolling = step + 1 ∧ (p, hdHier) ∈ t.m.part.holds ∧ HierSends p src 9 step 0 s t))))) ∧
      (role = 1 →
        let orig := ((x.joining.find? (fun j => j.2 == src)).map (fun j => j.1)).getD src
        let lost := src :: x.lost
        let spares := ((m.roster p).filter (fun e => e.2 == 3 && !lost.contains e.1 && !x.joining.any (fun j => j.2 == e.1))).map (fun e => e.1)
        let home := Tbl.get 0 x.homes orig
        let known : Prop := src ∈ workers ∨ ∃ j ∈ x.joining, j.2 = src
        let stops (code : Nat) (t : State) : Prop := frame t ∧ t.m.fld R.HIER_STAT_STATE [p] = hiStopped ∧ t.m.fld R.HIER_STAT_CODE [p] = code ∧ t.m.tstate p = tsStopped ∧
          t.m.fld R.COL_TSTATE_CODE [p] = tcAbandoned ∧ (p, hdHier) ∉ t.m.part.holds
        let missed (part : PartId) : Prop := part.val + 1 = p ∧ m.running = true ∧ Tbl.get 0 x.heard src + 3 * m.hbTicks p ≤ m.now
        let both (P : State → Prop) : Prop := Does (.hierFaulted h) s P ∧ ∀ part, missed part → Does (.workerHeartbeatMiss part h.src) s P
        (m.fld R.HIER_STAT_STATE [p] = hiStopped ∨ src = m.moduleId ∨ src ∈ x.lost ∨ ¬ known → both kept) ∧
        (m.fld R.HIER_STAT_STATE [p] ≠ hiStopped → src ≠ m.moduleId → src ∉ x.lost → known →
          (spares = [] → both (stops 1)) ∧
          (∀ (sp : Nat) (l : List Nat), spares = sp :: l →
            (x.epoch = 0 ∨ home = 0 ∨ (home - 1) / 65536 ≠ 2 ∨ (home - 1) % 65536 ∈ lost → both (stops 2)) ∧
            (∀ buddy < 65536, x.epoch ≠ 0 → home = 2 * 65536 + buddy + 1 → buddy ∉ lost →
              (buddy ≠ m.moduleId → buddy ≠ sp → m.routeLinks buddy = [] → both (stops 2)) ∧
              (buddy = m.moduleId ∨ buddy = sp ∨ m.routeLinks buddy ≠ [] → both (fun t => OuterKept s t ∧ rewritten src sp t ∧
                t.m.fld R.HIER_STAT_STATE [p] = hiReplacing ∧ (t.m.hier p).joining = x.joining.filter (fun j => j.1 != orig) ++ [(orig, sp)] ∧ (t.m.hier p).lost = lost ∧
                (t.m.hier p).rolled = true ∧ HierSends p sp 8 (x.epoch - 1) (orig + buddy * 65536) s t ∧
                (∀ w ∈ far, w ∉ lost → HierSends p w 7 (x.epoch - 1) (src + sp * 65536) s t) ∧
                (x.rolled = false → (t.m.hier p).rolling = x.epoch ∧ (p, hdHier) ∈ t.m.part.holds)))))))) ∧
    (∀ (part : PartId) (w : ModuleId),
      let q := part.val + 1
      let y := m.hier q
      let figure := m.fld R.CKP_CTL_DEST [q] * 65536 + m.fld R.CKP_CTL_BUDDY [q]
      (m.running = false ∨ m.fld R.HIER_STAT_STATE [q] = hiStopped ∨ m.hierRole q = 0 → Does (.hierHeartbeatTimer part) s same) ∧
      (m.running = true → m.fld R.HIER_STAT_STATE [q] ≠ hiStopped →
        (m.hierRole q = 2 ∨ m.hierRole q = 3 → Does (.hierHeartbeatTimer part) s (fun t => frame t ∧ RegsKept s t ∧ HierSends q (m.hierMgr q) 1 0 figure s t)) ∧
        (m.hierRole q = 1 → Does (.hierHeartbeatTimer part) s (fun t => frame t ∧ RegsKept s t ∧ ∀ d ∈ m.hierOthers q, HierSends q d 1 0 figure s t))) ∧
      (m.running = false ∨ m.now < Tbl.get 0 y.heard w.toNat + 3 * m.hbTicks q → Does (.workerHeartbeatMiss part w) s same) ∧
      (m.running = false ∨ m.hierRole q ≠ 2 ∨ m.now < y.mgrHeard + 3 * m.hbTicks q → Does (.managerHeartbeatMiss part) s same) ∧
      (m.running = true → m.hierRole q = 2 → y.mgrHeard + 3 * m.hbTicks q ≤ m.now → Does (.managerHeartbeatMiss part) s (fun t => frame t ∧ RegsKept s t ∧
        t.m.hier q = { y with orphan := true })) ∧
      (m.running = false ∨ m.hierRole q ≠ 2 ∨ m.now < y.mgrHeard + m.mgrTicks q ∨ m.tstate q = tsStopped → Does (.mgrTimeout part) s same) ∧
      (m.running = true → m.hierRole q = 2 → y.mgrHeard + m.mgrTicks q ≤ m.now → m.tstate q ≠ tsStopped → Does (.mgrTimeout part) s (fun t => frame t ∧
        (∀ a < 0x2000000, a / 2 ^ 20 ≠ 13 → Regs.word t.m.regs a = Regs.word m.regs a) ∧
        t.m.tstate q = tsStopped ∧ t.m.fld R.COL_TSTATE_CODE [q] = tcAbandoned ∧ t.m.fld R.HIER_STAT_STATE [q] = hiStopped ∧ (q, hdHier) ∉ t.m.part.holds)))

/-- Serving pairs: enabling, heartbeats, mirrored entries, leaving (10_meridian_links.md, R431, 15_faults_and_continuity.md, R592 to R596).
ENABLE asks the peer; no answer within 10 ms leaves code 3. A heartbeat of the peer keeps a pair alive, or pairs, and is answered unless this
module asked first: another image or entry count leaves code 2, the same feed without permission code 1, else the state is PAIRED or
CORRELATED. Mirrored entries are kept as standbys, extended and dropped as the messages say, each acknowledged, and a SNAPSHOT replaces
them all; an acknowledgement counts. Three missed heartbeats, a late acknowledgement or a partner that leaves FAULTED begin promotion: a
standby past its deadline ends, one whose versions are not resident takes an entry and ends FAILED, one with a FREE entry, room in staging
and KV units is MIGRATING, any other waits; UNPAIRED follows once none is left. DISABLE, which sends LEAVE, and LEAVE end the pair. -/
def Obligations.ServingPairs : Prop :=
  ∀ (s : State) (part : PartId),
    let m := s.m
    let same (t : State) : Prop := t = s
    let frame (t : State) : Prop := OuterKept s t ∧ MemKept s t ∧ t.m.core = m.core
    let quiet (t : State) : Prop := frame t ∧ RegsKept s t ∧ t.m.gzt.pairs = m.gzt.pairs
    let stat (q : Nat) (t : State) : Prop := frame t ∧ RegsKeptBut [R.GZT_PAIRSTAT_STATE.addr [q]] s t
    let promotes (q missed : Nat) (t : State) : Prop := OuterKept s t ∧
      t.m.fld R.GZT_PAIRSTAT_MISSED [q] = min (m.fld R.GZT_PAIRSTAT_MISSED [q] + missed) (2 ^ 16 - 1) ∧
      ((m.pair q).standby = [] → m.shut q = false → t.m.prState q = prUnpaired ∧ t.m.pair q = Pair.init) ∧
      (m.shut q = true → t.m.prState q = prPromoting ∧ t.m.pair q = m.pair q ∧ Logs (ErrRec.mk0 sevDeferred q ecPair 0xFFFF prPromoting 0) s t) ∧
      ((m.pair q).standby = [] ∨ m.shut q = true → MemKept s t ∧ t.m.core = m.core) ∧
      ∀ y : Standby, (m.pair q).standby = [y] → m.shut q = false →
        let z := y.ent
        let all := y.prompt ++ z.tokens
        let need := ceilDiv (y.prompt.length + z.maxNew) 64
        let late : Prop := z.deadline ≠ 0 ∧ z.deadline < m.now
        let isOver : Prop := t.m.prState q = prUnpaired ∧ t.m.pair q = Pair.init
        let waits : Prop := t.m.prState q = prPromoting ∧ t.m.pair q = m.pair q ∧ t.m.gzt.ents = m.gzt.ents
        let counts : Prop := t.m.fld R.GZT_PAIRSTAT_PROMOTED [q] = min (m.fld R.GZT_PAIRSTAT_PROMOTED [q] + 1) (2 ^ 16 - 1)
        (late → isOver ∧ t.m.gzt.ents = m.gzt.ents ∧
          Tbl.get [] t.m.gzt.events q = Tbl.get [] m.gzt.events q ++ [(m.now, (m.pair q).sent, ({ z with endc := gcDeadline }).endRecord 0xFFFF m.now)]) ∧
        (¬ late → m.entsFree q = [] → waits) ∧
        (∀ (e : Nat) (l : List Nat), ¬ late → m.entsFree q = e :: l →
          (m.resident q z = false → isOver ∧ counts ∧ (t.m.ent q e).st = gsFailed ∧ (t.m.ent q e).endc = gcPipeline ∧ (t.m.ent q e).tag = z.tag) ∧
          (m.resident q z = true →
            (m.stageRoom q (4 * all.length) = none ∨ m.kvFree q < need → waits) ∧
            (∀ o : Nat, m.stageRoom q (4 * all.length) = some o → need ≤ m.kvFree q → isOver ∧ counts ∧ (t.m.ent q e).st = gsMigrating ∧ (t.m.ent q e).tag = z.tag ∧
              (t.m.ent q e).prompt = y.prompt ∧ (t.m.ent q e).tokens = z.tokens ∧ (t.m.ent q e).generated = z.tokens.length ∧ (t.m.ent q e).rebuild = all.length ∧
              (t.m.ent q e).reserved = need ∧
              Tbl.get [] t.m.gzt.events q = Tbl.get [] m.gzt.events q ++ [(m.now, (m.pair q).sent, eventBytes z.tag e ekPromoted gcOk z.tokens.length 0 0 0)])))
    let beats (q : Nat) (t : State) : Prop :=
      Sends q (m.fld R.GZT_PAIRCFG_PEER [q]) 0x38 0xA5000001 (leBytes 1 m.feedId ++ leBytes 8 m.runId ++ leBytes 2 (m.entCount q)) s t
    (let p := part.val + 1
     let x := m.pair p
     (m.accepts = false → Does (.pairEnable part) s same ∧ Does (.pairDisable part) s same) ∧
     (m.accepts = true →
       (m.prState p ≠ prUnpaired → Does (.pairEnable part) s same) ∧
       (m.prState p = prUnpaired → Does (.pairEnable part) s (fun t => frame t ∧ RegsKeptBut [R.GZT_PAIRCFG_ENABLE.addr [p], R.GZT_PAIRSTAT_STATE.addr [p]] s t ∧
         t.m.flag R.GZT_PAIRCFG_ENABLE [p] = true ∧ t.m.fld R.GZT_PAIRSTAT_CODE [p] = 0 ∧ t.m.prState p = prUnpaired ∧ (t.m.pair p).asked = m.now + 1 ∧ beats p t)) ∧
       Does (.pairDisable part) s (fun t => frame t ∧ RegsKeptBut [R.GZT_PAIRCFG_ENABLE.addr [p], R.GZT_PAIRSTAT_STATE.addr [p]] s t ∧
         t.m.flag R.GZT_PAIRCFG_ENABLE [p] = false ∧ (m.prState p ≠ prPromoting → t.m.prState p = prUnpaired ∧ t.m.pair p = Pair.init) ∧
         (m.prState p = prPromoting → t.m.prState p = prPromoting ∧ t.m.pair p = x) ∧
         (m.pairOn p = true → Sends p (m.fld R.GZT_PAIRCFG_PEER [p]) 0x38 0xA5000005 (leBytes 1 0) s t))) ∧
     (let late := m.prState p = prUnpaired ∧ x.asked ≠ 0 ∧ x.asked - 1 + 10 ^ 7 ≤ m.now
      (¬ late → Does (.pairAnswerTimeout part) s same) ∧
      (late → Does (.pairAnswerTimeout part) s (fun t => stat p t ∧ t.m.fld R.GZT_PAIRSTAT_CODE [p] = prTimeout ∧ t.m.prState p = prUnpaired ∧ (t.m.pair p).asked = 0))) ∧
     (m.running = false ∨ m.pairOn p = false → Does (.pairHeartbeatTimer part) s same ∧ Does (.pairHeartbeatMiss part) s same ∧ Does (.mirrorAckTimeout part) s same) ∧
     (m.running = true → m.pairOn p = true →
       Does (.pairHeartbeatTimer part) s (fun t => quiet t ∧ beats p t) ∧
       (m.now < x.heard + 315000 → Does (.pairHeartbeatMiss part) s same) ∧
       (x.heard + 315000 ≤ m.now → Does (.pairHeartbeatMiss part) s (promotes p 3)) ∧
       (x.waits = [] → Does (.mirrorAckTimeout part) s same) ∧
       (∀ (w : Nat) (l : List Nat), x.waits = w :: l →
         (m.now < w + 300000 → Does (.mirrorAckTimeout part) s same) ∧ (w + 300000 ≤ m.now → Does (.mirrorAckTimeout part) s (promotes p 0))))) ∧
    (∀ (link : LinkId) (src : ModuleId) (job : BitVec 16) (feed : Fin 16) (runId : Word) (entries : BitVec 15) (msg : MirrorMsg) (ents : List MirrorEnt) (faulted : Bool),
      let p := m.jobPart job.toNat
      let x := m.pair p
      let beat := Instr.pairHeartbeat link src job feed runId entries
      let all := [beat, .mirror link src job msg, .mirrorAck link src job, .snapshot link src job ents, .leave link src job faulted]
      (m.jobShut job.toNat = true → ∀ c ∈ all, Does c s same) ∧
      (m.jobShut job.toNat = false → p = 0 → ∀ c ∈ all, Does c s (fun t => frame t ∧ RegsKeptBut [R.MRD_STAT_UNCLAIMED.addr []] s t ∧
        t.m.fld R.MRD_STAT_UNCLAIMED [] = min (m.fld R.MRD_STAT_UNCLAIMED [] + 1) (2 ^ 16 - 1))) ∧
      (m.jobShut job.toNat = false → p ≠ 0 → m.fld R.GZT_PAIRCFG_PEER [p] ≠ src.toNat ∨ m.running = false → ∀ c ∈ all, Does c s quiet) ∧
      (m.jobShut job.toNat = false → p ≠ 0 → m.fld R.GZT_PAIRCFG_PEER [p] = src.toNat → m.running = true →
        (m.pairOn p = false →
          (∀ c ∈ [Instr.mirror link src job msg, .mirrorAck link src job, .snapshot link src job ents, .leave link src job faulted], Does c s quiet) ∧
          (m.prState p ≠ prUnpaired ∨ m.flag R.GZT_PAIRCFG_ENABLE [p] = false ∨ m.pstate p ≠ psActive → Does beat s quiet) ∧
          (m.prState p = prUnpaired → m.flag R.GZT_PAIRCFG_ENABLE [p] = true → m.pstate p = psActive →
            let reply (t : State) : Prop := x.asked = 0 → beats p t
            let answered (code : Nat) (t : State) : Prop := stat p t ∧ t.m.fld R.GZT_PAIRSTAT_CODE [p] = code ∧ t.m.prState p = prUnpaired ∧
              t.m.fld R.GZT_PAIRSTAT_PEER_FEED [p] = feed ∧ reply t
            let live := (m.entsOf p).filter (fun e => gsLive e.2.st)
            let allowed := m.flag R.GZT_PAIRCFG_PAIR_ALLOW_CORRELATED [p] = true
            (runId.toNat ≠ m.runId ∨ entries.toNat ≠ m.entCount p → Does beat s (answered prMismatch)) ∧
            (runId.toNat = m.runId → entries.toNat = m.entCount p →
              (feed.val = m.feedId → ¬ allowed → Does beat s (answered prFeedEqual)) ∧
              (feed.val ≠ m.feedId ∨ allowed → Does beat s (fun t => frame t ∧ BlocksKept [5, 15, 17] s t ∧
                t.m.prState p = (if feed.val = m.feedId then prCorrelated else prPaired) ∧ t.m.fld R.GZT_PAIRSTAT_CODE [p] = 0 ∧ t.m.fld R.GZT_PAIRSTAT_PEER_FEED [p] = feed ∧
                (t.m.pair p).heard = m.now ∧ (t.m.pair p).standby = [] ∧ reply t ∧
                Sends p src.toNat 0x38 0xA5000004 (leBytes 2 live.length ++ live.flatMap (fun e => leBytes 2 e.1 ++ m.mirrorEnt p e.1)) s t))))) ∧
        (m.pairOn p = true →
          let acks (t : State) : Prop := Sends p src.toNat 0x38 0xA5000003 [] s t ∧ t.m.prState p = m.prState p
          Does beat s (fun t => stat p t ∧ t.m.pair p = { x with heard := m.now, misses := 0 } ∧ t.m.prState p = m.prState p) ∧
          (∀ e : MirrorEnt, Does (.mirror link src job (.admitted e)) s (fun t => OuterKept s t ∧ RegsKeptBut [R.GZT_PAIRSTAT_STATE.addr [p]] s t ∧ acks t ∧
            (t.m.pair p).standby = x.standby.filter (fun y => y.idx != e.idx.val) ++ [standbyOf e])) ∧
          (∀ l : List (EntryId × BitVec 32 × BitVec 32), Does (.mirror link src job (.tokens l)) s (fun t => OuterKept s t ∧ RegsKeptBut [R.GZT_PAIRSTAT_STATE.addr [p]] s t ∧ acks t ∧
            ∀ (i : EntryId) (y : Standby), x.standby.find? (fun z => z.idx == i.val) = some y →
              ∃ z, (t.m.pair p).standby.find? (fun z => z.idx == i.val) = some z ∧ z.prompt = y.prompt ∧
                z.ent.tokens = y.ent.tokens ++ (l.filter (fun g => g.1 == i)).map (fun g => g.2.2.toNat))) ∧
          (∀ i : EntryId, Does (.mirror link src job (.ended i)) s (fun t => stat p t ∧ acks t ∧ (t.m.pair p).standby = x.standby.filter (fun y => y.idx != i.val))) ∧
          (x.sent ≤ x.acked → Does (.mirrorAck link src job) s quiet) ∧
          (x.acked < x.sent → Does (.mirrorAck link src job) s (fun t => stat p t ∧ (t.m.pair p).acked = x.acked + 1 ∧ (t.m.pair p).waits = x.waits.drop 1)) ∧
          ((ents.map (fun e => e.idx)).Nodup → Does (.snapshot link src job ents) s (fun t => OuterKept s t ∧ RegsKeptBut [R.GZT_PAIRSTAT_STATE.addr [p]] s t ∧
            (t.m.pair p).standby = ents.map standbyOf)) ∧
          Does (.leave link src job false) s (fun t => frame t ∧ BlocksKept [5, 15, 17] s t ∧ t.m.prState p = prUnpaired ∧ t.m.pair p = Pair.init ∧
            Logs (ErrRec.mk0 sevDeferred p ecPair 0xFFFF prUnpaired 0) s t) ∧
          Does (.leave link src job true) s (promotes p 0))))

/-- Claims, transitions with their wipe, and what refuses them (16_identity_and_lifecycle.md, R617 to R621). CLAIM in PROVISIONED with a free
owner slot burns the digest of the key at SEC_TOKBUF, writes the key and its CRC-32 to both banks and resets the module in DEPLOYED, which
keeps only the memory of the hosts; PROVISION with its token goes from TEST to PROVISIONED. A transition with a wipe, in a state it is
legal from, with its tokens, no live partition and the Shutter OPEN, burns the pending bit and sets BUSY and PENDING; the token's nonce is
used up whatever comes of it. From any other state, and with the fuse row full, the code is STATE and no fuse changes; with a live
partition it is PARTITIONS_LIVE, with a bad token what the token's check gives. While a command of SEC_CMD runs, any other is discarded
with BUSY; in FATAL and POWER_FAIL none has an effect. Resets are stated where no chart command is under way. -/
def Obligations.LifeCycleTransitions : Prop :=
  ∀ s : State,
    let key := (s.m.window R.SEC_TOKBUF_WORD [] 64).take 64
    let again (target : Nat) (t : State) : Prop :=
      t.nv.trans = s.nv.trans ++ [(target, true)] ∧ t.m.fld R.PRT_STATUS_RESET_CAUSE [] = 2 ∧ t.m.fld R.SEC_LC_STATE [] = target ∧ t.m.mem = s.m.hostMem ∧
        t.m.running = false ∧ t.ext = { s.ext with cold := false }
    let pends (target : Nat) (t : State) : Prop :=
      t.nv = { s.nv with trans := s.nv.trans ++ [(target, false)] } ∧ t.m.fld R.SEC_CMDSTAT_BUSY [] = 1 ∧ t.m.fld R.SEC_LC_PENDING [] = 1 ∧
        t.m.fld R.SEC_CMDSTAT_OP [] = 3 ∧ t.m.fld R.SEC_CMDSTAT_CODE [] = 0 ∧ t.m.sec.nonceOk = false ∧ MemKept s t ∧ t.ext = s.ext
    let turned (code : Nat) (t : State) : Prop :=
      t.m.fld R.SEC_CMDSTAT_CODE [] = code ∧ OuterKept s t ∧ MemKept s t ∧ RegsKeptBut [R.SEC_CMDSTAT_CODE.addr []] s t
    let used (code : Nat) (t : State) : Prop := turned code t ∧ t.m.sec.nonceOk = false
    (∀ (v : BitVec 8) (port : PortId), ∀ c ∈ [Instr.newNonce, .claim, .provision, .lcRelease, .lcReturn, .reissue, .scrap, .imgFloor v, .fwFloor v, .moduleReport,
        .directLoad port, .factoryWrite port],
      (s.m.running = false → Does c s (fun t => t = s)) ∧ (s.m.running = true → s.m.fld R.SEC_CMDSTAT_BUSY [] = 1 → Does c s (turned 1))) ∧
    (s.m.running = true → s.m.fld R.SEC_CMDSTAT_BUSY [] = 0 →
      (s.nv.lc = 1 → s.nv.trans.length < 16 → s.nv.owners.length < 8 → s.m.conf.chartOp = none → Does .claim s (fun t => again 2 t ∧
        t.nv.owners = s.nv.owners ++ [(sm3 key, false)] ∧ t.nv.bankA = { s.nv.bankA with ownerKey := key, ownerCrc := crc32 key } ∧
        t.nv.bankB = { s.nv.bankB with ownerKey := key, ownerCrc := crc32 key })) ∧
      (s.nv.lc ≠ 1 ∨ 16 ≤ s.nv.trans.length → Does .claim s (turned 5)) ∧
      (s.nv.lc = 1 → s.nv.trans.length < 16 → 8 ≤ s.nv.owners.length → Does .claim s (turned 7)) ∧
      (let code := State.tokensCheck s false true 1
       (s.nv.lc = 0 → s.nv.trans.length < 16 → code = 0 → s.m.conf.chartOp = none → Does .provision s (fun t => again 1 t ∧ t.nv.owners = s.nv.owners)) ∧
       (s.nv.lc = 0 → s.nv.trans.length < 16 → code ≠ 0 → Does .provision s (used code)) ∧
       (s.nv.lc ≠ 0 ∨ 16 ≤ s.nv.trans.length → Does .provision s (used 5))) ∧
      (∀ x ∈ ([(.lcRelease, [2], 1, true, false), (.lcReturn, [2], 3, true, true), (.reissue, [3], 1, false, true)] ++
          (if s.nv.lc = 2 then [(.scrap, [2], 4, true, false)] else [(.scrap, [0, 1, 3], 4, false, true)]) : List (Instr × List Nat × Nat × Bool × Bool)),
        let code := State.tokensCheck s x.2.2.2.1 x.2.2.2.2 x.2.2.1
        (s.nv.lc ∉ x.2.1 ∨ 16 ≤ s.nv.trans.length → Does x.1 s (used 5)) ∧
        (s.nv.lc ∈ x.2.1 → s.nv.trans.length < 16 →
          (s.m.lcFree = false → Does x.1 s (used 6)) ∧
          (s.m.lcFree = true → code ≠ 0 → Does x.1 s (used code)) ∧
          (s.m.lcFree = true → code = 0 → Does x.1 s (pends x.2.2.1)))))

/-- The end of the wipe of a pending transition (16_identity_and_lifecycle.md, R617, R618, R620, R621). With a transition pending last in the
fuse row, and none before it, the end of its wipe, during boot or of the command that runs, leaves both banks without charts, flush and
owner key, keeps firmware, factory region and floors, revokes the owner slot where the module was DEPLOYED, burns the done bit, so that
the state is the target, destroys the identity key where that is SCRAPPED, clears all memory but that of the hosts and resets the module.
Without a pending transition, and at any other time, it does nothing. Stated where no chart command is under way. -/
def Obligations.WipeEndsInTheTargetState : Prop :=
  ∀ (s : State) (l : List (Nat × Bool)) (x : Nat), s.m.conf.chartOp = none →
    let phase := s.m.fld R.PRT_STATUS_PHASE []
    let wiping : Prop := phase = 1 ∨ phase = 2 ∨ (s.m.running = true ∧ s.m.sec.target ≠ 0)
    (s.nv.pendingLc = 0 ∨ ¬ wiping → Does .wipeDone s (fun t => t = s)) ∧
    (s.nv.trans = l ++ [(x, false)] → (∀ y ∈ l, y.2 = true) → wiping → Does .wipeDone s (fun t =>
      t.nv.trans = l ++ [(x, true)] ∧ t.nv.lc = x ∧ t.nv.bankA = { s.nv.bankA with images := [], commits := [], flush := none, ownerKey := [], ownerCrc := 0 } ∧
      t.nv.bankB = { s.nv.bankB with images := [], commits := [], flush := none, ownerKey := [], ownerCrc := 0 } ∧
      t.nv.owners = (if s.nv.lc = 2 then revokeLast s.nv.owners else s.nv.owners) ∧ t.nv.factory = s.nv.factory ∧ t.nv.serial = s.nv.serial ∧
      t.nv.imgFloor = s.nv.imgFloor ∧ t.nv.fwFloor = s.nv.fwFloor ∧ (x = 4 → t.nv.idKey = 2 ^ 256 - 1) ∧ t.m.mem = s.m.hostMem ∧
      t.m.fld R.PRT_STATUS_RESET_CAUSE [] = 2 ∧ t.m.fld R.PRT_STATUS_PHASE [] = b2n s.ext.pwrfailN))

/-- Rollback floors, the module nonce, reports and EXTEND (16_identity_and_lifecycle.md, R612 to R616, R619). A floor command raises its fuse
counter to its value within the counter and the running SVN, else the code is FLOOR_RANGE and no fuse changes. NEW_NONCE fills SEC_NONCE
with four free values. A report latches the nonce and its 384 bytes at the tick and sets BUSY; REPORT_READY places the oldest with the
module's signature and clears BUSY. A report is refused with STATE in SCRAPPED and while a transition is pending; one written while BUSY
is discarded with BUSY. EXTEND of an ACTIVE partition extends its UMR by SM3 with ATT_DATA; it is discarded with BUSY or STATE else. The
random generator and the signature function are open (Config). -/
def Obligations.FloorsNonceAndReports : Prop :=
  ∀ s : State, s.m.running = true →
    let lc := s.m.fld R.SEC_LC_STATE []
    let stat := R.SEC_CMDSTAT_CODE.addr []
    let coded (code : Nat) (t : State) : Prop := t.m.fld R.SEC_CMDSTAT_CODE [] = code ∧ OnlyRegs [stat] s t
    let reports (p : Nat) (nonce : List Byte) (t : State) : Prop :=
      let b := s.m.attestation s.nv p nonce
      t.m.sec.reports = s.m.sec.reports ++ [(p, b)] ∧ b.length = 384 ∧ (b.drop 10).take 2 = leBytes 1 p ++ leBytes 1 lc ∧ (b.drop 24).take 8 = leBytes 8 s.m.now ∧
        (b.drop 32).take 32 = nonce
    (s.m.fld R.SEC_CMDSTAT_BUSY [] = 0 →
      (∀ v : BitVec 8,
        (lc = 4 → Does (.imgFloor v) s (coded 5) ∧ Does (.fwFloor v) s (coded 5)) ∧
        (lc ≠ 4 →
          (s.nv.imgFloor ≤ v.toNat → v.toNat ≤ 128 → v.toNat ≤ s.m.sec.imgSvn → Does (.imgFloor v) s (fun t =>
            t.nv = { s.nv with imgFloor := v.toNat } ∧ t.m.fld R.SEC_FLOOR_IMG_FLOOR [] = v.toNat ∧ t.m.fld R.SEC_CMDSTAT_CODE [] = 0 ∧ t.ext = s.ext ∧ MemKept s t ∧
              RegsKeptBut [stat, R.SEC_FLOOR_IMG_FLOOR.addr []] s t)) ∧
          (v.toNat < s.nv.imgFloor ∨ 128 < v.toNat ∨ s.m.sec.imgSvn < v.toNat → Does (.imgFloor v) s (coded 8)) ∧
          (s.nv.fwFloor ≤ v.toNat → v.toNat ≤ 64 → v.toNat ≤ s.m.fld R.SEC_FLOOR_FW_SVN [] → Does (.fwFloor v) s (fun t =>
            t.nv = { s.nv with fwFloor := v.toNat } ∧ t.m.fld R.SEC_FLOOR_FW_FLOOR [] = v.toNat ∧ t.m.fld R.SEC_CMDSTAT_CODE [] = 0 ∧ t.ext = s.ext ∧ MemKept s t ∧
              RegsKeptBut [stat, R.SEC_FLOOR_FW_FLOOR.addr []] s t)) ∧
          (v.toNat < s.nv.fwFloor ∨ 64 < v.toNat ∨ s.m.fld R.SEC_FLOOR_FW_SVN [] < v.toNat → Does (.fwFloor v) s (coded 8)))) ∧
      Does .newNonce s (fun t => t.m.sec.nonceOk = true ∧ t.m.fld R.SEC_CMDSTAT_OP [] = 1 ∧ t.m.fld R.SEC_CMDSTAT_CODE [] = 0 ∧ OuterKept s t ∧ MemKept s t ∧
        (∀ i : Fin 4, t.m.fld R.SEC_NONCE_WORD [i] = (Config.freeWord (s.m.freeCtr + i)).toNat) ∧
        RegsKeptBut (stat :: (List.range 4).map (fun i => R.SEC_NONCE_WORD.addr [i])) s t) ∧
      (lc = 4 ∨ s.nv.pendingLc ≠ 0 → Does .moduleReport s (coded 5)) ∧
      (lc ≠ 4 → s.nv.pendingLc = 0 → Does .moduleReport s (fun t => t.m.fld R.SEC_CMDSTAT_BUSY [] = 1 ∧ OuterKept s t ∧ MemKept s t ∧ RegsKeptBut [stat] s t ∧
        reports 0 (s.m.window R.SEC_RNONCE_WORD [] 4) t))) ∧
    (∀ p : PartId,
      let q := p.val + 1
      let code := R.ATT_STAT_CODE.addr [q]
      let told (k : Nat) (t : State) : Prop := t.m.fld R.ATT_STAT_CODE [q] = k ∧ OnlyRegs [code] s t
      (s.m.conf.cfg.part q = none → Does (.attReport p) s (fun t => t = s) ∧ Does (.extend p) s (fun t => t = s)) ∧
      (s.m.conf.cfg.part q ≠ none →
        (s.m.fld R.ATT_STAT_BUSY [q] = 1 → Does (.attReport p) s (told 1) ∧ Does (.extend p) s (told 1)) ∧
        (s.m.fld R.ATT_STAT_BUSY [q] = 0 →
          (lc = 4 ∨ s.nv.pendingLc ≠ 0 → Does (.attReport p) s (told 2)) ∧
          (lc ≠ 4 → s.nv.pendingLc = 0 → Does (.attReport p) s (fun t => t.m.fld R.ATT_STAT_BUSY [q] = 1 ∧ t.m.fld R.ATT_STAT_CODE [q] = 0 ∧ OuterKept s t ∧ MemKept s t ∧
            RegsKeptBut [code] s t ∧ reports q (s.m.window R.ATT_NONCE_WORD [q] 4) t)) ∧
          (s.m.pstate q ≠ psActive → Does (.extend p) s (told 2)) ∧
          (s.m.pstate q = psActive → Does (.extend p) s (fun t => t.m.fld R.ATT_STAT_CODE [q] = 0 ∧
            Tbl.get 0 t.m.sec.umr q = extended (Tbl.get 0 s.m.sec.umr q) (digestOf (s.m.window R.ATT_DATA_WORD [q] 4)) ∧
            (∀ r : Nat, r ≠ q → Tbl.get 0 t.m.sec.umr r = Tbl.get 0 s.m.sec.umr r) ∧ OuterKept s t ∧ MemKept s t ∧ RegsKeptBut [code] s t))))) ∧
    (s.m.sec.reports = [] ∨ s.nv.pendingLc ≠ 0 → Does .reportReady s (fun t => t = s)) ∧
    (∀ x l, s.m.sec.reports = x :: l → s.nv.pendingLc = 0 → x.1 ≤ 32 → x.2.length = 384 → Does .reportReady s (fun t =>
      let whole := x.2 ++ s.nv.idTrailer x.2
      t.m.sec.reports = l ∧ OuterKept s t ∧ MemKept s t ∧
        (x.1 ≠ 0 → t.m.window R.ATT_REPORT_WORD [x.1] 64 = whole ∧ t.m.fld R.ATT_STAT_BUSY [x.1] = 0) ∧
        (x.1 = 0 → t.m.window R.SEC_REPORT_WORD [] 64 = whole ∧ t.m.fld R.SEC_CMDSTAT_BUSY [] = 0)))

/-- DIRECT_LOAD, FACTORY_WRITE and firmware update (16_identity_and_lifecycle.md, R610, R611, R622). DIRECT_LOAD in TEST or RETURNED, with no
live partition, loads the image that CFG_CHART_ADDR and CFG_CHART_LEN name if it passes R206 and R207: it is the running configuration, and
the module leaves CFG_NONE. An image that fails leaves the configuration as it was; with a live partition the code is PARTITIONS_LIVE; in
another state it is LC_DENIED. FACTORY_WRITE in TEST replaces the factory region only, and is LC_DENIED in any other state. A firmware
image that passes its checks replaces the copy that is not running, over any medium in READY and over SMBus while the ROM has no valid
copy; one that fails, or that comes at another time, in SCRAPPED or while a transition is pending, changes nothing. -/
def Obligations.DirectConfigurationAndFirmware : Prop :=
  ∀ s : State,
    (∀ port : PortId, s.m.running = true → s.m.fld R.SEC_CMDSTAT_BUSY [] = 0 →
      (s.m.fld R.SEC_LC_STATE [] = 0 ∨ s.m.fld R.SEC_LC_STATE [] = 3 → s.m.lcFree = true →
        (s.m.imageCheck s.nv.imgFloor false (s.m.chartSource port) = none → Does (.directLoad port) s (fun t =>
          t.m.conf.cfg = imageCfg (s.m.chartSource port) ∧ t.m.sec.imgSvn = imSvn (s.m.chartSource port) ∧ t.m.fld R.CFG_RUN_ID_IMAGE_ID [] = imId (s.m.chartSource port) ∧
          t.m.fld R.CFG_RUN_FACTORY [] = 0 ∧ t.m.fld R.CFG_RUN_EPOCH [] = 0 ∧ t.m.fld R.CFG_RUN_MODIFIED [] = 0 ∧ t.m.fld R.PRT_STATUS_CFG_NONE [] = 0 ∧ t.m.fld R.PRT_STATUS_CFG_FALLBACK [] = 0 ∧ t.m.fld R.CFG_STATUS_LOAD_CODE [] = 0 ∧ OuterKept s t)) ∧
        (∀ f, s.m.imageCheck s.nv.imgFloor false (s.m.chartSource port) = some f → Does (.directLoad port) s (fun t =>
          t.m.conf = s.m.conf ∧ OuterKept s t ∧ MemKept s t))) ∧
      (s.m.fld R.SEC_LC_STATE [] = 0 ∨ s.m.fld R.SEC_LC_STATE [] = 3 → s.m.lcFree = false → Does (.directLoad port) s (fun t =>
        t.m.fld R.SEC_CMDSTAT_CODE [] = 6 ∧ OnlyRegs [R.SEC_CMDSTAT_CODE.addr []] s t)) ∧
      (s.m.fld R.SEC_LC_STATE [] ≠ 0 → s.m.fld R.SEC_LC_STATE [] ≠ 3 → Does (.directLoad port) s (fun t => t.m.fld R.SEC_CMDSTAT_CODE [] = 9 ∧ OnlyRegs [R.SEC_CMDSTAT_CODE.addr []] s t)) ∧
      (s.m.fld R.SEC_LC_STATE [] = 0 → Does (.factoryWrite port) s (fun t =>
        t.nv = { s.nv with factory := s.m.load (hostKey port 0 (s.m.fld R.CFG_CHART_ADDR_ADDR [] * 4096)) (s.m.fld R.CFG_CHART_LEN_LEN []) } ∧
        t.m.fld R.SEC_CMDSTAT_CODE [] = 0 ∧ t.ext = s.ext ∧ MemKept s t ∧ RegsKeptBut [R.SEC_CMDSTAT_CODE.addr []] s t)) ∧
      (s.m.fld R.SEC_LC_STATE [] ≠ 0 → Does (.factoryWrite port) s (fun t => t.m.fld R.SEC_CMDSTAT_CODE [] = 9 ∧ OnlyRegs [R.SEC_CMDSTAT_CODE.addr []] s t))) ∧
    (∀ (medium : Fin 3) (image : List Byte),
      let phase := s.m.fld R.PRT_STATUS_PHASE []
      let here : Prop := (phase = 5 ∧ s.m.fld R.ERR_MSTATE_STATE [] ≠ 2) ∨ (phase = 1 ∧ s.m.sec.fwRun = 0 ∧ medium = 2)
      (here → s.nv.lc ≠ 4 → s.nv.pendingLc = 0 → s.nv.fwOk image = true → Does (.pldmFirmwareUpdate medium image) s (fun t => t.m = s.m ∧ t.ext = s.ext ∧
        t.nv = s.nv.setBank (if s.m.sec.fwRun = 1 then 1 else 0)
          { s.nv.bank (if s.m.sec.fwRun = 1 then 1 else 0) with fwSvn := leAt image 8 4, fwValid := true, fwImage := image })) ∧
      (¬ here ∨ s.nv.lc = 4 ∨ s.nv.pendingLc ≠ 0 ∨ s.nv.fwOk image = false → Does (.pldmFirmwareUpdate medium image) s (fun t => t = s)))

/-- No step unburns a fuse, lowers a floor or overfills a fuse row (16_identity_and_lifecycle.md, R604, R612, R617, R618, 00_scope.md, R18).
Whatever command is at the front of the queue, or none, if a step answers a next state from a state whose fuses are sound, then the next
state's fuses are sound: at most 8 owner slots, 16 transitions, floors within their counters. And the fuses only burn: the serial number
and the maker keys stay, transitions and owner slots are only added, done and revoke bits stay burned, and no floor falls. -/
def Obligations.FusesOnlyBurn : Prop :=
  ∀ s t : State, FusesSound s.nv → step s = .next t → FusesSound t.nv ∧ FusesBurn s.nv t.nv

/-- The fuses of the state after reset are sound (16_identity_and_lifecycle.md, R604, R617). The invariant of FusesOnlyBurn holds at
State.reset. That the module stands there as manufactured, in TEST with no owner, is the model's choice (log entry 6). -/
def Obligations.ResetHasSoundFuses : Prop :=
  FusesSound State.reset.nv

/-- What survives a reset is changed by a few commands only (00_scope.md, R18, 05_charts_and_configuration.md, R216,
16_identity_and_lifecycle.md, R604, R612, R617, R618, R622, 17_bringup_and_module.md, R636). Flash, the factory region and the fuses
change in no command but a register write (which may be one of the others), the loss of input power, RESET_N and a thermal trip (which may
cut a chart command short), the flush commit, the end of a chart command, a row mapped out (R379), and the commands of the life cycle, the
floors, FACTORY_WRITE and the firmware update. The power input and input pins change in no command but the events that are theirs and those in which the module
resets itself. No command changes the queue of waiting commands (the queue is the model's form of the command stream). -/
def Obligations.OnlyTheirOwnCommandsTouchFlashFusesAndPins : Prop :=
  ∀ (c : Instr) (s t : State), exec c s = .next t →
    t.pending = s.pending ∧ (nvRow c = false → t.nv = s.nv) ∧ (pinRow c = false → t.ext = s.ext)

/-- A command that the hardware can receive always has its effect (00_scope.md, R14, R18, 10_meridian_links.md, R416). Every well-formed
command answers a next state in every state, and a step with it at the front of the queue answers one with the queue's rest. A command
that stops is a FLIT_RECEIVE that is not well formed, of bytes or codewords that no link carries, and it stops with the fault illFormed (log entry 44). -/
def Obligations.EveryWellFormedCommandAnswers : Prop :=
  ∀ (c : Instr) (s : State),
    (c.wf = true → ∃ t, exec c s = .next t) ∧ (∀ rest : List Instr, c.wf = true → ∃ t, step { s with pending := c :: rest } = .next t ∧ t.pending = rest) ∧
    (∀ f : Fault, exec c s = .fault f → f = .illFormed ∧ c.wf = false ∧ ∃ link bytes fec, c = .flitReceive link bytes fec) ∧
    (∀ r : Refusal, exec c s ≠ .refused r)
end

