-- ==== Sys2Proof/Laws/Bytes.lean ====
section
/-! SUPPORT. What the byte-string helpers compute: little-endian encoding and its inverse, and reading a field behind a prefix. -/

namespace Sys2Proof.Laws

open Sys2Proof.Machine

@[simp] theorem leBytes_length (n v : Nat) : (leBytes n v).length = n := by
  induction n generalizing v with
  | zero => rfl
  | succ n ih => simp [leBytes, ih]

/-- The little-endian bytes of a number stand for the number, as far as they reach. -/
theorem ofLe_leBytes (n v : Nat) : ofLe (leBytes n v) = v % 256 ^ n := by
  induction n generalizing v with
  | zero => simp [leBytes, ofLe, Nat.mod_one]
  | succ n ih =>
    rw [show 256 ^ (n + 1) = 256 * 256 ^ n by rw [Nat.pow_succ, Nat.mul_comm], Nat.mod_mul, ← ih (v / 256)]
    simp [leBytes, ofLe]

/-- A byte string is less than 256 to its length. -/
theorem ofLe_lt (l : List Byte) : ofLe l < 256 ^ l.length := by
  induction l with
  | nil => simp [ofLe]
  | cons b l ih =>
    have := b.isLt
    simp only [ofLe, List.length_cons, Nat.pow_succ]
    omega

/-- A field that begins where a prefix ends. -/
theorem leAt_append (a : List Byte) (n v : Nat) (tail : List Byte) : leAt (a ++ (leBytes n v ++ tail)) a.length n = v % 256 ^ n := by
  simp [leAt, ofLe_leBytes]

end Sys2Proof.Laws
end

