-- ==== Sys2Proof/Laws/Commits.lean ====
section
/-! SUPPORT. The commit record that the module forms is one that it takes (R215). -/

namespace Sys2Proof.Laws

open Sys2Proof Sys2Proof.Machine

theorem digestBytes_length (d : Nat) : (digestBytes d).length = 32 := by simp [digestBytes]

/-- A commit record without its CRC-32. -/
def commitBody (chart bank gen length imageId digest : Nat) : List Byte :=
  leBytes 4 0x4B435254 ++ (leBytes 1 chart ++ (leBytes 1 bank ++ (leBytes 4 gen ++ (leBytes 8 length ++ (leBytes 8 imageId ++ (digestBytes digest ++ List.replicate 66 0))))))

theorem commitBody_length (chart bank gen length imageId digest : Nat) : (commitBody chart bank gen length imageId digest).length = 124 := by
  simp [commitBody, digestBytes_length]

theorem commitRecord_eq (chart bank gen length imageId digest : Nat) :
    commitRecord chart bank gen length imageId digest =
      commitBody chart bank gen length imageId digest ++ leBytes 4 (crc32 (commitBody chart bank gen length imageId digest)) := by
  have h : ((leBytes 4 0x4B435254 ++ leBytes 1 chart ++ leBytes 1 bank ++ leBytes 4 gen ++ leBytes 8 length ++ leBytes 8 imageId ++ digestBytes digest).length) = 58 := by
    simp [digestBytes_length]
  simp only [commitRecord, h]
  simp only [commitBody, List.append_assoc]

/-- The record formed for a chart and a bank is valid there. -/
theorem commitOk_commitRecord {chart bank : Nat} (hc : chart < 256) (hb : bank < 256) (gen length imageId digest : Nat) :
    commitOk chart bank (commitRecord chart bank gen length imageId digest) = true := by
  have hl := commitBody_length chart bank gen length imageId digest
  have crcLt : crc32 (commitBody chart bank gen length imageId digest) < 256 ^ 4 := BitVec.isLt _
  rw [commitRecord_eq]
  generalize hx : crc32 (commitBody chart bank gen length imageId digest) = x at crcLt ⊢
  have tail : ∃ l : List Byte, commitBody chart bank gen length imageId digest ++ leBytes 4 x = leBytes 4 0x4B435254 ++ (leBytes 1 chart ++ (leBytes 1 bank ++ l)) :=
    ⟨leBytes 4 gen ++ (leBytes 8 length ++ (leBytes 8 imageId ++ (digestBytes digest ++ (List.replicate 66 0 ++ leBytes 4 x)))), by
      simp only [commitBody, List.append_assoc]⟩
  have e0 := leAt_append (commitBody chart bank gen length imageId digest) 4 x []
  have e1 : (commitBody chart bank gen length imageId digest ++ leBytes 4 x).take 124 = commitBody chart bank gen length imageId digest := List.take_left' hl
  rw [hl, List.append_nil, Nat.mod_eq_of_lt crcLt] at e0
  simp only [commitOk, e0, e1, hx, List.length_append, hl, leBytes_length]
  obtain ⟨l, e⟩ := tail
  rw [e]
  have at0 := leAt_append [] 4 0x4B435254 (leBytes 1 chart ++ (leBytes 1 bank ++ l))
  have at4 := leAt_append (leBytes 4 0x4B435254) 1 chart (leBytes 1 bank ++ l)
  have at5 := leAt_append (leBytes 4 0x4B435254 ++ leBytes 1 chart) 1 bank l
  rw [leBytes_length, Nat.pow_one, Nat.mod_eq_of_lt hc] at at4
  rw [List.length_append, leBytes_length, leBytes_length, Nat.pow_one, Nat.mod_eq_of_lt hb, List.append_assoc] at at5
  rw [List.nil_append, List.length_nil] at at0
  rw [at0, at4, at5]
  simp

/-- The generation of the record formed with it. -/
theorem commitGen_commitRecord {gen : Nat} (h : gen < 2 ^ 32) (chart bank length imageId digest : Nat) : commitGen (commitRecord chart bank gen length imageId digest) = gen := by
  have e : ∃ l : List Byte, commitRecord chart bank gen length imageId digest = (leBytes 4 0x4B435254 ++ leBytes 1 chart ++ leBytes 1 bank) ++ (leBytes 4 gen ++ l) :=
    ⟨leBytes 8 length ++ (leBytes 8 imageId ++ (digestBytes digest ++ (List.replicate 66 0 ++ leBytes 4 (crc32 (commitBody chart bank gen length imageId digest))))), by
      rw [commitRecord_eq]
      simp only [commitBody, List.append_assoc]⟩
  obtain ⟨l, e⟩ := e
  have h' : gen < 256 ^ 4 := h
  have := leAt_append (leBytes 4 0x4B435254 ++ leBytes 1 chart ++ leBytes 1 bank) 4 gen l
  rw [List.length_append, List.length_append, leBytes_length, leBytes_length, leBytes_length, Nat.mod_eq_of_lt h'] at this
  rw [e]
  exact this

/-- A bank whose one record of a chart was formed for it has that record. -/
theorem commitOf_single {n : Nv} {chart bank : Nat} (hc : chart < 256) (hb : bank < 256) {gen length imageId digest : Nat}
    (h : Tbl.get [] (n.bank bank).commits chart = [commitRecord chart bank gen length imageId digest]) :
    n.commitOf bank chart = some (commitRecord chart bank gen length imageId digest) := by
  simp [Nv.commitOf, h, commitOk_commitRecord hc hb]

end Sys2Proof.Laws
end

