-- ==== Sys2Proof/Laws/Tbl.lean ====
section
/-! SUPPORT. Sparse tables: a read after a write, and the canonical form, which every operation keeps. -/

namespace Sys2Proof.Laws

open Sys2Proof.Machine

variable {α : Type} [DecidableEq α] (d : α)

omit [DecidableEq α] in
theorem get_erase_same (t : Tbl α) (a : Nat) : Tbl.get d (Tbl.erase t a) a = d := by
  induction t with
  | nil => rfl
  | cons e t ih =>
    obtain ⟨k, w⟩ := e
    by_cases h : k = a
    · simpa [Tbl.erase, h] using ih
    · have h' : a ≠ k := fun x => h x.symm
      simpa [Tbl.erase, Tbl.get, h, h'] using ih

omit [DecidableEq α] in
theorem get_erase_other (t : Tbl α) {a b : Nat} (h : b ≠ a) : Tbl.get d (Tbl.erase t a) b = Tbl.get d t b := by
  induction t with
  | nil => rfl
  | cons e t ih =>
    obtain ⟨k, w⟩ := e
    by_cases hk : k = a
    · subst hk
      have : Tbl.erase ((k, w) :: t) k = Tbl.erase t k := by simp [Tbl.erase]
      rw [this, ih]; simp [Tbl.get, h]
    · have : Tbl.erase ((k, w) :: t) a = (k, w) :: Tbl.erase t a := by simp [Tbl.erase, hk]
      rw [this]; simp only [Tbl.get]; split
      · rfl
      · exact ih

/-- What is written at a key is read there. -/
@[simp] theorem get_set_same (t : Tbl α) (a : Nat) (v : α) : Tbl.get d (Tbl.set d t a v) a = v := by
  induction t with
  | nil => by_cases h : v = d <;> simp [Tbl.set, Tbl.get, h]
  | cons e t ih =>
    obtain ⟨k, w⟩ := e
    simp only [Tbl.set]
    split
    · split
      · next h => rw [get_erase_same]; exact h.symm
      · simp [Tbl.get]
    · split
      · split
        · next h => rw [get_erase_same]; exact h.symm
        · next h _ => simp [Tbl.get, h]
      · next h => simp [Tbl.get, h, ih]

/-- A write leaves every other key as it was. -/
theorem get_set_other (t : Tbl α) {a b : Nat} (v : α) (h : b ≠ a) : Tbl.get d (Tbl.set d t a v) b = Tbl.get d t b := by
  induction t with
  | nil => by_cases hv : v = d <;> simp [Tbl.set, Tbl.get, hv, h]
  | cons e t ih =>
    obtain ⟨k, w⟩ := e
    simp only [Tbl.set]
    split
    · split
      · rw [get_erase_other d _ h]
      · simp [Tbl.get, h]
    · split
      · next hk =>
        subst hk
        split
        · rw [get_erase_other d _ h]; simp [Tbl.get, h]
        · simp [Tbl.get, h]
      · simp only [Tbl.get, ih]

theorem wfFrom_mono {lo lo' : Nat} (h : lo' ≤ lo) {t : Tbl α} (w : Tbl.wfFrom d lo t = true) : Tbl.wfFrom d lo' t = true := by
  cases t with
  | nil => rfl
  | cons e t => obtain ⟨k, v⟩ := e; simp only [Tbl.wfFrom, Bool.and_eq_true, decide_eq_true_eq] at w ⊢; exact ⟨⟨by omega, w.1.2⟩, w.2⟩

theorem wfFrom_filter (p : Nat × α → Bool) {t : Tbl α} : ∀ {lo : Nat}, Tbl.wfFrom d lo t = true → Tbl.wfFrom d lo (t.filter p) = true := by
  induction t with
  | nil => intro lo h; exact h
  | cons e t ih =>
    obtain ⟨k, v⟩ := e
    intro lo h
    simp only [Tbl.wfFrom, Bool.and_eq_true, decide_eq_true_eq] at h
    by_cases hp : p (k, v)
    · simp only [List.filter_cons_of_pos hp, Tbl.wfFrom, Bool.and_eq_true, decide_eq_true_eq]; exact ⟨h.1, ih h.2⟩
    · rw [List.filter_cons_of_neg hp]; exact wfFrom_mono d (by omega) (ih h.2)

theorem wfFrom_erase {t : Tbl α} {lo : Nat} (a : Nat) (h : Tbl.wfFrom d lo t = true) : Tbl.wfFrom d lo (Tbl.erase t a) = true :=
  wfFrom_filter d _ h

theorem wfFrom_set {t : Tbl α} (a : Nat) (v : α) : ∀ {lo : Nat}, lo ≤ a → Tbl.wfFrom d lo t = true → Tbl.wfFrom d lo (Tbl.set d t a v) = true := by
  induction t with
  | nil => intro lo ha _; by_cases h : v = d <;> simp [Tbl.set, Tbl.wfFrom, h, ha]
  | cons e t ih =>
    obtain ⟨k, w⟩ := e
    intro lo ha h
    have h0 := h
    simp only [Tbl.wfFrom, Bool.and_eq_true, decide_eq_true_eq] at h
    simp only [Tbl.set]
    split
    · next hk =>
      split
      · exact wfFrom_erase d a h0
      · next hv =>
        simp only [Tbl.wfFrom, Bool.and_eq_true, decide_eq_true_eq]
        exact ⟨⟨ha, hv⟩, ⟨by omega, h.1.2⟩, h.2⟩
    · split
      · next hk =>
        split
        · exact wfFrom_mono d (by omega) (wfFrom_erase d a h.2)
        · next hv => simp only [Tbl.wfFrom, Bool.and_eq_true, decide_eq_true_eq]; exact ⟨⟨h.1.1, hv⟩, h.2⟩
      · next h1 h2 =>
        simp only [Tbl.wfFrom, Bool.and_eq_true, decide_eq_true_eq]
        exact ⟨h.1, ih (by omega) h.2⟩

/-- A write keeps the canonical form. -/
theorem wf_set {t : Tbl α} (a : Nat) (v : α) (h : Tbl.wf d t = true) : Tbl.wf d (Tbl.set d t a v) = true :=
  wfFrom_set d a v (Nat.zero_le _) h

/-- Dropping entries keeps the canonical form. -/
theorem wf_filter {t : Tbl α} (p : Nat × α → Bool) (h : Tbl.wf d t = true) : Tbl.wf d (t.filter p) = true := wfFrom_filter d p h

end Sys2Proof.Laws
end

