-- ==== Sys2Proof/Laws/Fields.lean ====
section
/-! SUPPORT. Register fields: a read after a write of the same field, of another field of the same register, of another register. -/

namespace Sys2Proof.Laws

open Sys2Proof.Machine

theorem bits_eq (n hi lo : Nat) : bits n hi lo = n / 2 ^ lo % 2 ^ (hi + 1 - lo) := by
  simp [bits, Nat.shiftRight_eq_div_pow]

theorem bits_lt (n hi lo : Nat) : bits n hi lo < 2 ^ (hi + 1 - lo) := by
  rw [bits_eq]; exact Nat.mod_lt _ (Nat.two_pow_pos _)

/-- A number cut at lo and hi + 1. -/
theorem cut (n hi lo : Nat) (h : lo ≤ hi) : n = (n / 2 ^ (hi + 1)) * 2 ^ (hi + 1) + bits n hi lo * 2 ^ lo + n % 2 ^ lo := by
  have e : 2 ^ (hi + 1) = 2 ^ lo * 2 ^ (hi + 1 - lo) := by rw [← Nat.pow_add]; congr 1; omega
  rw [bits_eq]
  have h1 := Nat.div_add_mod n (2 ^ lo)
  have h2 := Nat.div_add_mod (n / 2 ^ lo) (2 ^ (hi + 1 - lo))
  rw [Nat.div_div_eq_div_mul, ← e] at h2
  calc n = 2 ^ lo * (n / 2 ^ lo) + n % 2 ^ lo := h1.symm
    _ = 2 ^ lo * (2 ^ (hi + 1 - lo) * (n / 2 ^ (hi + 1)) + n / 2 ^ lo % 2 ^ (hi + 1 - lo)) + n % 2 ^ lo := by rw [h2]
    _ = _ := by rw [Nat.mul_add, ← Nat.mul_assoc, ← e, Nat.mul_comm (2 ^ (hi + 1)), Nat.mul_comm (2 ^ lo) (n / 2 ^ lo % _)]

theorem putBits_eq (n hi lo v : Nat) (h : lo ≤ hi) :
    putBits n hi lo v = (n / 2 ^ (hi + 1)) * 2 ^ (hi + 1) + (v % 2 ^ (hi + 1 - lo)) * 2 ^ lo + n % 2 ^ lo := by
  have c := cut n hi lo h
  unfold putBits
  rw [Nat.shiftLeft_eq, Nat.shiftLeft_eq]
  generalize bits n hi lo * 2 ^ lo = b at c ⊢
  omega

theorem putBits_lt (n hi lo v k : Nat) (h : lo ≤ hi) (hk : hi < k) (hn : n < 2 ^ k) : putBits n hi lo v < 2 ^ k := by
  rw [putBits_eq n hi lo v h]
  have e : 2 ^ k = 2 ^ (hi + 1) * 2 ^ (k - (hi + 1)) := by rw [← Nat.pow_add]; congr 1; omega
  have e2 : 2 ^ (hi + 1) = 2 ^ lo * 2 ^ (hi + 1 - lo) := by rw [← Nat.pow_add]; congr 1; omega
  have h1 : n / 2 ^ (hi + 1) < 2 ^ (k - (hi + 1)) := by
    rw [Nat.div_lt_iff_lt_mul (Nat.two_pow_pos _), Nat.mul_comm, ← e]; exact hn
  have h2 : n % 2 ^ lo < 2 ^ lo := Nat.mod_lt _ (Nat.two_pow_pos _)
  have h3 : v % 2 ^ (hi + 1 - lo) < 2 ^ (hi + 1 - lo) := Nat.mod_lt _ (Nat.two_pow_pos _)
  have h4 : (v % 2 ^ (hi + 1 - lo)) * 2 ^ lo + n % 2 ^ lo < 2 ^ (hi + 1) := by
    rw [e2, Nat.mul_comm (2 ^ lo)]
    calc _ < (v % 2 ^ (hi + 1 - lo)) * 2 ^ lo + 2 ^ lo := by omega
      _ = (v % 2 ^ (hi + 1 - lo) + 1) * 2 ^ lo := by rw [Nat.add_mul, Nat.one_mul]
      _ ≤ _ := Nat.mul_le_mul_right _ h3
  calc _ < (n / 2 ^ (hi + 1)) * 2 ^ (hi + 1) + 2 ^ (hi + 1) := by omega
    _ = (n / 2 ^ (hi + 1) + 1) * 2 ^ (hi + 1) := by rw [Nat.add_mul, Nat.one_mul]
    _ ≤ 2 ^ (k - (hi + 1)) * 2 ^ (hi + 1) := Nat.mul_le_mul_right _ h1
    _ = 2 ^ k := by rw [e, Nat.mul_comm]

theorem bits_testBit (n hi lo i : Nat) : (bits n hi lo).testBit i = (decide (i < hi + 1 - lo) && n.testBit (lo + i)) := by
  simp [bits, Nat.testBit_mod_two_pow, Nat.testBit_shiftRight]

theorem putBits_testBit (n hi lo v i : Nat) (h : lo ≤ hi) :
    (putBits n hi lo v).testBit i = if lo ≤ i ∧ i ≤ hi then v.testBit (i - lo) else n.testBit i := by
  rw [putBits_eq n hi lo v h]
  have e2 : 2 ^ (hi + 1) = 2 ^ lo * 2 ^ (hi + 1 - lo) := by rw [← Nat.pow_add]; congr 1; omega
  have h2 : n % 2 ^ lo < 2 ^ lo := Nat.mod_lt _ (Nat.two_pow_pos _)
  have h3 : v % 2 ^ (hi + 1 - lo) < 2 ^ (hi + 1 - lo) := Nat.mod_lt _ (Nat.two_pow_pos _)
  have h4 : (v % 2 ^ (hi + 1 - lo)) * 2 ^ lo + n % 2 ^ lo < 2 ^ (hi + 1) := by
    rw [e2, Nat.mul_comm (2 ^ lo)]
    calc _ < (v % 2 ^ (hi + 1 - lo)) * 2 ^ lo + 2 ^ lo := by omega
      _ = (v % 2 ^ (hi + 1 - lo) + 1) * 2 ^ lo := by rw [Nat.add_mul, Nat.one_mul]
      _ ≤ _ := Nat.mul_le_mul_right _ h3
  rw [Nat.add_assoc, Nat.mul_comm (n / _), Nat.testBit_two_pow_mul_add _ h4, Nat.mul_comm (v % _), Nat.testBit_two_pow_mul_add _ h2,
    Nat.testBit_div_two_pow, Nat.testBit_mod_two_pow, Nat.testBit_mod_two_pow]
  by_cases a : i < hi + 1
  · by_cases b : i < lo
    · have c : ¬ (lo ≤ i ∧ i ≤ hi) := by omega
      simp [a, b, c]
    · have c : lo ≤ i ∧ i ≤ hi := by omega
      have d : i - lo < hi + 1 - lo := by omega
      simp [a, b, c, d]
  · have c : ¬ (lo ≤ i ∧ i ≤ hi) := by omega
    have d : hi + 1 + (i - (hi + 1)) = i := by omega
    simp [a, c, Nat.add_comm, d]

theorem wordPut_toNat (w : Word) (hi lo v : Nat) (h : lo ≤ hi) (h64 : hi < 64) : (wordPut w hi lo v).toNat = putBits w.toNat hi lo v := by
  rw [wordPut, BitVec.toNat_ofNat]
  exact Nat.mod_eq_of_lt (putBits_lt _ _ _ _ 64 h h64 w.isLt)

/-- A field just written holds the low bits of the value. -/
theorem wordField_put_same (w : Word) (hi lo v : Nat) (h : lo ≤ hi) (h64 : hi < 64) :
    wordField (wordPut w hi lo v) hi lo = v % 2 ^ (hi + 1 - lo) := by
  rw [wordField, wordPut_toNat w hi lo v h h64]
  apply Nat.eq_of_testBit_eq; intro i
  rw [bits_testBit, putBits_testBit _ _ _ _ _ h, Nat.testBit_mod_two_pow]
  by_cases a : i < hi + 1 - lo
  · have c : lo ≤ lo + i ∧ lo + i ≤ hi := by omega
    simp [a, c]
  · simp [a]

/-- Bits apart from a field just written are as they were. -/
theorem wordField_put_other (w : Word) (hi lo v hi' lo' : Nat) (h : lo ≤ hi) (h64 : hi < 64) (d : hi' < lo ∨ hi < lo') :
    wordField (wordPut w hi lo v) hi' lo' = wordField w hi' lo' := by
  rw [wordField, wordPut_toNat w hi lo v h h64, wordField]
  apply Nat.eq_of_testBit_eq; intro i
  rw [bits_testBit, bits_testBit, putBits_testBit _ _ _ _ _ h]
  by_cases a : i < hi' + 1 - lo'
  · have c : ¬ (lo ≤ lo' + i ∧ lo' + i ≤ hi) := by omega
    simp [c]
  · simp [a]

/-- A field as the map gives one: its bits in order and within the word. -/
def FldOk (f : Fld) : Prop := f.lo ≤ f.hi ∧ f.hi < 64

theorem fld_lt (m : Mach) (f : Fld) (ix : List Nat) : m.fld f ix < 2 ^ (f.hi + 1 - f.lo) := bits_lt _ _ _

/-- A register field after it is written. -/
theorem fld_setFld_same (m : Mach) (f : Fld) (ix : List Nat) (v : Nat) (ok : FldOk f) : (m.setFld f ix v).fld f ix = v % 2 ^ (f.hi + 1 - f.lo) := by
  simp only [Mach.setFld, Mach.fld, Regs.setFld, Regs.fld, Regs.word, Regs.setWord, get_set_same]
  exact wordField_put_same _ _ _ _ ok.1 ok.2

/-- A field of another register. -/
theorem fld_setFld_addr (m : Mach) (f g : Fld) (ix jx : List Nat) (v : Nat) (h : g.addr jx ≠ f.addr ix) : (m.setFld f ix v).fld g jx = m.fld g jx := by
  simp only [Mach.setFld, Mach.fld, Regs.setFld, Regs.fld, Regs.word, Regs.setWord]
  rw [get_set_other _ _ _ h]

/-- Another field of a register. -/
theorem fld_setFld_bits (m : Mach) (f g : Fld) (ix jx : List Nat) (v : Nat) (ok : FldOk f) (d : g.hi < f.lo ∨ f.hi < g.lo) :
    (m.setFld f ix v).fld g jx = m.fld g jx := by
  by_cases h : g.addr jx = f.addr ix
  · simp only [Mach.setFld, Mach.fld, Regs.setFld, Regs.fld, Regs.word, Regs.setWord, h, get_set_same]
    exact wordField_put_other _ _ _ _ _ _ ok.1 ok.2 d
  · exact fld_setFld_addr m f g ix jx v h

theorem setFld_regs (m : Mach) (f : Fld) (ix : List Nat) (v : Nat) : (m.setFld f ix v).regs = m.regs.setFld f ix v := rfl

end Sys2Proof.Laws
end

