-- ==== Sys2Proof/Laws/Frames.lean ====
section
/-! SUPPORT. The search for a free HBM frame (R399): what it finds is the first, and where none is free nothing takes one. -/

namespace Sys2Proof.Laws
open Sys2Proof.Machine

theorem firstFrom_none {p : Nat → Bool} (h : ∀ i, p i = false) : ∀ n i, firstFrom p n i = none
  | 0, _ => rfl
  | n + 1, i => by rw [firstFrom, h, if_neg Bool.false_ne_true, firstFrom_none h n]
/-- What firstFrom finds is the least of its range that meets the test. -/
theorem firstFrom_some {p : Nat → Bool} {k : Nat} : ∀ {n i : Nat}, firstFrom p n i = some k → i ≤ k ∧ k < i + n ∧ p k = true ∧ ∀ j, i ≤ j → j < k → p j = false
  | 0, _, h => by cases h
  | n + 1, i, h => by
    rw [firstFrom] at h
    split at h
    · next hp =>
      cases h
      exact ⟨Nat.le_refl _, by omega, hp, fun j a b => by omega⟩
    · next hp =>
      obtain ⟨a, b, c, d⟩ := firstFrom_some h
      refine ⟨by omega, by omega, c, fun j e f => ?_⟩
      rcases Nat.eq_or_lt_of_le e with rfl | g
      · exact Bool.eq_false_iff.mpr hp
      · exact d j g f
/-- Without a free frame no channel has one. -/
theorem chanFrame_none {m : Mach} (h : ∀ f, m.frameFree f = false) (g : Nat) : m.chanFrame g = none := by
  rw [Mach.chanFrame, firstFrom_none (fun r => h _), Option.map_none]
theorem nextChan_none {m : Mach} (h : ∀ f, m.frameFree f = false) (stks g0 : Nat) : m.nextChan stks g0 = none := by
  rw [Mach.nextChan, firstFrom_none (fun i => by rw [chanFrame_none h, Option.isSome_none, Bool.and_false]), Option.map_none]
/-- Without a free frame the first page is refused and nothing is taken. -/
theorem takePages_none {m : Mach} (h : ∀ f, m.frameFree f = false) (own : Nat) (stks : Nat → Nat) (n v g0 : Nat) (acc : List Nat) :
    Mach.takePages own stks (n + 1) m v g0 acc = (m, if stks v = 0xFFFF then 4 else 3, acc) := by
  rw [Mach.takePages, nextChan_none h]
/-- Without a free frame a page whose frame is retired or out of reach finds no other. -/
theorem repairFrame_none {m : Mach} (h : ∀ f, m.frameFree f = false) (r f : Nat) (gone : (m.tier.retired.contains f || m.frameGone f) = true) :
    (m.repairFrame r f).2 = none := by
  rw [Mach.repairFrame, if_pos gone]
  simp only [takePages_none h, List.head?_nil]

end Sys2Proof.Laws
end

