-- ==== Sys2Proof/Laws/Memory.lean ====
section
/-! SUPPORT. Memory: a read after a write, and the canonical form, which every memory operation keeps and which memory has at reset. -/

namespace Sys2Proof.Laws

open Sys2Proof.Machine

theorem readByte_writeByte_same (mem : List Host.Cell) (k : Nat) (v : Byte) : readByte (writeByte mem k v) k = v := get_set_same 0 mem k v
theorem readByte_writeByte_other (mem : List Host.Cell) {k a : Nat} (v : Byte) (h : a ≠ k) : readByte (writeByte mem k v) a = readByte mem a :=
  get_set_other 0 mem v h

@[simp] theorem readBytes_length (mem : List Host.Cell) (k n : Nat) : (readBytes mem k n).length = n := by simp [readBytes]

/-- A byte outside a write reads as before. -/
theorem readByte_writeBytes_other (bs : List Byte) : ∀ (mem : List Host.Cell) (k a : Nat), a < k ∨ k + bs.length ≤ a →
    readByte (writeBytes mem k bs) a = readByte mem a := by
  induction bs with
  | nil => intro mem k a _; rfl
  | cons b bs ih =>
    intro mem k a h
    simp only [List.length_cons] at h
    rw [writeBytes, ih _ _ _ (by omega), readByte_writeByte_other _ _ (by omega)]
/-- A byte of a write reads as written. -/
theorem readByte_writeBytes (bs : List Byte) : ∀ (mem : List Host.Cell) (k i : Nat) (h : i < bs.length),
    readByte (writeBytes mem k bs) (k + i) = bs[i] := by
  induction bs with
  | nil => intro mem k i h; exact absurd h (by simp)
  | cons b bs ih =>
    intro mem k i h
    rw [writeBytes]
    cases i with
    | zero =>
      rw [readByte_writeBytes_other _ _ _ _ (by omega), Nat.add_zero, readByte_writeByte_same]
      rfl
    | succ i =>
      have := ih (writeByte mem k b) (k + 1) i (by simpa using h)
      rw [show k + (i + 1) = k + 1 + i by omega, this]
      rfl
/-- A byte string read back from where it was written. -/
theorem readBytes_writeBytes (mem : List Host.Cell) (k : Nat) (bs : List Byte) : readBytes (writeBytes mem k bs) k bs.length = bs := by
  apply List.ext_getElem
  · simp
  · intro i h h'
    simp only [readBytes, List.getElem_map, List.getElem_range]
    exact readByte_writeBytes bs mem k i h'

/-! ### The canonical form -/

theorem wf_writeByte {mem : List Host.Cell} (k : Nat) (v : Byte) (h : Memory.wf mem = true) : Memory.wf (writeByte mem k v) = true := wf_set 0 k v h
theorem wf_writeBytes (bs : List Byte) : ∀ {mem : List Host.Cell} (k : Nat), Memory.wf mem = true → Memory.wf (writeBytes mem k bs) = true := by
  induction bs with
  | nil => intro mem k h; exact h
  | cons b bs ih => intro mem k h; exact ih (k + 1) (wf_writeByte k b h)
theorem wf_store (m : Mach) (k : Nat) (bs : List Byte) (h : Memory.wf m.mem = true) : Memory.wf (m.store k bs).mem = true := by
  unfold Mach.store
  split
  · exact h
  · exact wf_writeBytes bs k h
theorem wf_storePoisoned (m : Mach) (k : Nat) (bs : List Byte) (h : Memory.wf m.mem = true) : Memory.wf (m.storePoisoned k bs).mem = true := by
  unfold Mach.storePoisoned
  split
  · exact h
  · exact wf_writeBytes bs k h
theorem wf_putChunk (m : Mach) (c : Chunk) (h : Memory.wf m.mem = true) : Memory.wf (m.putChunk c).mem = true := by
  unfold Mach.putChunk
  split
  · exact wf_storePoisoned m _ _ h
  · exact wf_store m _ _ h
theorem wf_zero (m : Mach) (k n : Nat) (h : Memory.wf m.mem = true) : Memory.wf (m.zero k n).mem = true := wf_filter 0 _ h
theorem wf_moveMem (m : Mach) (src dst n : Nat) (h : Memory.wf m.mem = true) : Memory.wf (m.moveMem src dst n).mem = true := by
  unfold Mach.moveMem
  split
  · exact h
  · split
    · exact wf_zero m dst n h
    · have fold : ∀ (l : List Host.Cell) (t : List Host.Cell), Memory.wf t = true →
          Memory.wf (l.foldl (fun t c => writeByte t (dst + (c.1 - src)) c.2) t) = true := by
        intro l
        induction l with
        | nil => intro t ht; exact ht
        | cons c l ih => intro t ht; exact ih _ (wf_writeByte _ _ ht)
      exact fold _ _ (wf_zero m dst n h)
theorem wf_moveSegs (k : Nat) : ∀ (m : Mach) (a b : List (Nat × Nat)), Memory.wf m.mem = true → Memory.wf (Mach.moveSegs k m a b).mem = true := by
  induction k with
  | zero => intro m a b h; exact h
  | succ k ih =>
    intro m a b h
    match a, b with
    | [], _ => exact h
    | _ :: _, [] => exact h
    | (a, n) :: l, (b, n') :: l' => exact ih _ _ _ (wf_moveMem m a b _ h)
theorem wf_reset : Memory.wf State.reset.m.mem = true := rfl

end Sys2Proof.Laws
end

