-- ==== Sys2Proof/Laws/Scan.lean ====
section
/-! SUPPORT. The length of a scan-out image (R552, R553): what is left of the section table fits the destination. -/

namespace Sys2Proof.Laws

open Sys2Proof.Machine

/-- Sections are left out until the image fits, down to one without sections. -/
theorem scanFit_le (cap : Nat) (h : 256 ≤ cap) (k : Nat) (l : List ScanSect) (e : l.length ≤ k) : scanLength (scanFit cap k l) ≤ cap := by
  induction k generalizing l with
  | zero =>
    have : l = [] := List.length_eq_zero_iff.mp (by omega)
    subst this
    simpa [scanFit, scanLength, roundUp] using h
  | succ k ih =>
    simp only [scanFit]
    split
    · assumption
    · exact ih _ (by simp; omega)

theorem scanBody_length (o : Nat) (l : List ScanSect) :
    (scanBody o l).1.length = 32 * l.length ∧ (scanBody o l).2.length = (l.map (fun s => roundUp s.bytes.length 64)).sum := by
  induction l generalizing o with
  | nil => simp [scanBody]
  | cons s l ih =>
    have := ih (o + roundUp s.bytes.length 64)
    have h : s.bytes.length ≤ roundUp s.bytes.length 64 := by unfold roundUp; omega
    simp [scanBody, this]
    omega

@[simp] theorem scanHeader_length (m : Mach) (n : Nv) (owner : Nat) (l : List ScanSect) (c d : Bool) : (m.scanHeader n owner l c d).length = 128 := by
  simp [Mach.scanHeader]

/-- An image is as long as its header says. -/
theorem scanImage_length (m : Mach) (n : Nv) (owner : Nat) (l : List ScanSect) (c : Bool) : (m.scanImage n owner l c).length = scanLength l := by
  have h : 32 * l.length ≤ roundUp (32 * l.length) 64 := by unfold roundUp; omega
  simp [Mach.scanImage, Nv.idTrailer, digestBytes, scanLength, scanBody_length]
  omega

end Sys2Proof.Laws
end

