-- ==== Sys2Proof/Laws/State.lean ====
section
/-! SUPPORT. What each update of one part of the state leaves of every other part: one lemma per field per update. -/

namespace Sys2Proof.Laws

open Sys2Proof.Machine

/-- A meaning that changes the volatile state alone leaves flash and fuses, the pins and the queue. -/
theorem withM_next (s : State) (m : Mach) : s.withM m = .next { s with m := m } := rfl

/-! ### Mach.setFld -/

@[simp] theorem setFld_now (m : Mach) (f : Fld) (ix : List Nat) (v : Nat) : (m.setFld f ix v).now = m.now := rfl
@[simp] theorem setFld_freeCtr (m : Mach) (f : Fld) (ix : List Nat) (v : Nat) : (m.setFld f ix v).freeCtr = m.freeCtr := rfl
@[simp] theorem setFld_out (m : Mach) (f : Fld) (ix : List Nat) (v : Nat) : (m.setFld f ix v).out = m.out := rfl
@[simp] theorem setFld_alertN (m : Mach) (f : Fld) (ix : List Nat) (v : Nat) : (m.setFld f ix v).alertN = m.alertN := rfl
@[simp] theorem setFld_pwrGood (m : Mach) (f : Fld) (ix : List Nat) (v : Nat) : (m.setFld f ix v).pwrGood = m.pwrGood := rfl
@[simp] theorem setFld_mem (m : Mach) (f : Fld) (ix : List Nat) (v : Nat) : (m.setFld f ix v).mem = m.mem := rfl
@[simp] theorem setFld_poison (m : Mach) (f : Fld) (ix : List Nat) (v : Nat) : (m.setFld f ix v).poison = m.poison := rfl
@[simp] theorem setFld_core (m : Mach) (f : Fld) (ix : List Nat) (v : Nat) : (m.setFld f ix v).core = m.core := rfl
@[simp] theorem setFld_conf (m : Mach) (f : Fld) (ix : List Nat) (v : Nat) : (m.setFld f ix v).conf = m.conf := rfl
@[simp] theorem setFld_errs (m : Mach) (f : Fld) (ix : List Nat) (v : Nat) : (m.setFld f ix v).errs = m.errs := rfl
@[simp] theorem setFld_tier (m : Mach) (f : Fld) (ix : List Nat) (v : Nat) : (m.setFld f ix v).tier = m.tier := rfl
@[simp] theorem setFld_host (m : Mach) (f : Fld) (ix : List Nat) (v : Nat) : (m.setFld f ix v).host = m.host := rfl
@[simp] theorem setFld_part (m : Mach) (f : Fld) (ix : List Nat) (v : Nat) : (m.setFld f ix v).part = m.part := rfl
@[simp] theorem setFld_srv (m : Mach) (f : Fld) (ix : List Nat) (v : Nat) : (m.setFld f ix v).srv = m.srv := rfl
@[simp] theorem setFld_mrd (m : Mach) (f : Fld) (ix : List Nat) (v : Nat) : (m.setFld f ix v).mrd = m.mrd := rfl
@[simp] theorem setFld_conds (m : Mach) (f : Fld) (ix : List Nat) (v : Nat) : (m.setFld f ix v).conds = m.conds := rfl
@[simp] theorem setFld_trains (m : Mach) (f : Fld) (ix : List Nat) (v : Nat) : (m.setFld f ix v).trains = m.trains := rfl
@[simp] theorem setFld_gzt (m : Mach) (f : Fld) (ix : List Nat) (v : Nat) : (m.setFld f ix v).gzt = m.gzt := rfl
@[simp] theorem setFld_colls (m : Mach) (f : Fld) (ix : List Nat) (v : Nat) : (m.setFld f ix v).colls = m.colls := rfl
@[simp] theorem setFld_ckpts (m : Mach) (f : Fld) (ix : List Nat) (v : Nat) : (m.setFld f ix v).ckpts = m.ckpts := rfl
@[simp] theorem setFld_hiers (m : Mach) (f : Fld) (ix : List Nat) (v : Nat) : (m.setFld f ix v).hiers = m.hiers := rfl
@[simp] theorem setFld_fix (m : Mach) (f : Fld) (ix : List Nat) (v : Nat) : (m.setFld f ix v).fix = m.fix := rfl
@[simp] theorem setFld_sec (m : Mach) (f : Fld) (ix : List Nat) (v : Nat) : (m.setFld f ix v).sec = m.sec := rfl
@[simp] theorem setFld_pwr (m : Mach) (f : Fld) (ix : List Nat) (v : Nat) : (m.setFld f ix v).pwr = m.pwr := rfl
@[simp] theorem setFld_sht (m : Mach) (f : Fld) (ix : List Nat) (v : Nat) : (m.setFld f ix v).sht = m.sht := rfl
@[simp] theorem setFld_moved (m : Mach) (f : Fld) (ix : List Nat) (v : Nat) : (m.setFld f ix v).moved = m.moved := rfl

/-! ### Mach.drew -/

@[simp] theorem drew_now (m : Mach) : (m.drew).now = m.now := rfl
@[simp] theorem drew_out (m : Mach) : (m.drew).out = m.out := rfl
@[simp] theorem drew_alertN (m : Mach) : (m.drew).alertN = m.alertN := rfl
@[simp] theorem drew_pwrGood (m : Mach) : (m.drew).pwrGood = m.pwrGood := rfl
@[simp] theorem drew_regs (m : Mach) : (m.drew).regs = m.regs := rfl
@[simp] theorem drew_mem (m : Mach) : (m.drew).mem = m.mem := rfl
@[simp] theorem drew_poison (m : Mach) : (m.drew).poison = m.poison := rfl
@[simp] theorem drew_core (m : Mach) : (m.drew).core = m.core := rfl
@[simp] theorem drew_conf (m : Mach) : (m.drew).conf = m.conf := rfl
@[simp] theorem drew_errs (m : Mach) : (m.drew).errs = m.errs := rfl
@[simp] theorem drew_tier (m : Mach) : (m.drew).tier = m.tier := rfl
@[simp] theorem drew_host (m : Mach) : (m.drew).host = m.host := rfl
@[simp] theorem drew_part (m : Mach) : (m.drew).part = m.part := rfl
@[simp] theorem drew_srv (m : Mach) : (m.drew).srv = m.srv := rfl
@[simp] theorem drew_mrd (m : Mach) : (m.drew).mrd = m.mrd := rfl
@[simp] theorem drew_conds (m : Mach) : (m.drew).conds = m.conds := rfl
@[simp] theorem drew_trains (m : Mach) : (m.drew).trains = m.trains := rfl
@[simp] theorem drew_gzt (m : Mach) : (m.drew).gzt = m.gzt := rfl
@[simp] theorem drew_colls (m : Mach) : (m.drew).colls = m.colls := rfl
@[simp] theorem drew_ckpts (m : Mach) : (m.drew).ckpts = m.ckpts := rfl
@[simp] theorem drew_hiers (m : Mach) : (m.drew).hiers = m.hiers := rfl
@[simp] theorem drew_fix (m : Mach) : (m.drew).fix = m.fix := rfl
@[simp] theorem drew_sec (m : Mach) : (m.drew).sec = m.sec := rfl
@[simp] theorem drew_pwr (m : Mach) : (m.drew).pwr = m.pwr := rfl
@[simp] theorem drew_sht (m : Mach) : (m.drew).sht = m.sht := rfl
@[simp] theorem drew_moved (m : Mach) : (m.drew).moved = m.moved := rfl

/-! ### Mach.setPane -/

@[simp] theorem setPane_now (m : Mach) (n : Nat) (x : Pane) : (m.setPane n x).now = m.now := rfl
@[simp] theorem setPane_freeCtr (m : Mach) (n : Nat) (x : Pane) : (m.setPane n x).freeCtr = m.freeCtr := rfl
@[simp] theorem setPane_out (m : Mach) (n : Nat) (x : Pane) : (m.setPane n x).out = m.out := rfl
@[simp] theorem setPane_alertN (m : Mach) (n : Nat) (x : Pane) : (m.setPane n x).alertN = m.alertN := rfl
@[simp] theorem setPane_pwrGood (m : Mach) (n : Nat) (x : Pane) : (m.setPane n x).pwrGood = m.pwrGood := rfl
@[simp] theorem setPane_regs (m : Mach) (n : Nat) (x : Pane) : (m.setPane n x).regs = m.regs := rfl
@[simp] theorem setPane_mem (m : Mach) (n : Nat) (x : Pane) : (m.setPane n x).mem = m.mem := rfl
@[simp] theorem setPane_poison (m : Mach) (n : Nat) (x : Pane) : (m.setPane n x).poison = m.poison := rfl
@[simp] theorem setPane_conf (m : Mach) (n : Nat) (x : Pane) : (m.setPane n x).conf = m.conf := rfl
@[simp] theorem setPane_errs (m : Mach) (n : Nat) (x : Pane) : (m.setPane n x).errs = m.errs := rfl
@[simp] theorem setPane_tier (m : Mach) (n : Nat) (x : Pane) : (m.setPane n x).tier = m.tier := rfl
@[simp] theorem setPane_host (m : Mach) (n : Nat) (x : Pane) : (m.setPane n x).host = m.host := rfl
@[simp] theorem setPane_part (m : Mach) (n : Nat) (x : Pane) : (m.setPane n x).part = m.part := rfl
@[simp] theorem setPane_srv (m : Mach) (n : Nat) (x : Pane) : (m.setPane n x).srv = m.srv := rfl
@[simp] theorem setPane_mrd (m : Mach) (n : Nat) (x : Pane) : (m.setPane n x).mrd = m.mrd := rfl
@[simp] theorem setPane_conds (m : Mach) (n : Nat) (x : Pane) : (m.setPane n x).conds = m.conds := rfl
@[simp] theorem setPane_trains (m : Mach) (n : Nat) (x : Pane) : (m.setPane n x).trains = m.trains := rfl
@[simp] theorem setPane_gzt (m : Mach) (n : Nat) (x : Pane) : (m.setPane n x).gzt = m.gzt := rfl
@[simp] theorem setPane_colls (m : Mach) (n : Nat) (x : Pane) : (m.setPane n x).colls = m.colls := rfl
@[simp] theorem setPane_ckpts (m : Mach) (n : Nat) (x : Pane) : (m.setPane n x).ckpts = m.ckpts := rfl
@[simp] theorem setPane_hiers (m : Mach) (n : Nat) (x : Pane) : (m.setPane n x).hiers = m.hiers := rfl
@[simp] theorem setPane_fix (m : Mach) (n : Nat) (x : Pane) : (m.setPane n x).fix = m.fix := rfl
@[simp] theorem setPane_sec (m : Mach) (n : Nat) (x : Pane) : (m.setPane n x).sec = m.sec := rfl
@[simp] theorem setPane_pwr (m : Mach) (n : Nat) (x : Pane) : (m.setPane n x).pwr = m.pwr := rfl
@[simp] theorem setPane_sht (m : Mach) (n : Nat) (x : Pane) : (m.setPane n x).sht = m.sht := rfl
@[simp] theorem setPane_moved (m : Mach) (n : Nat) (x : Pane) : (m.setPane n x).moved = m.moved := rfl

/-! ### Mach.setTxn -/

@[simp] theorem setTxn_now (m : Mach) (o : Nat) (x : Txn) : (m.setTxn o x).now = m.now := rfl
@[simp] theorem setTxn_freeCtr (m : Mach) (o : Nat) (x : Txn) : (m.setTxn o x).freeCtr = m.freeCtr := rfl
@[simp] theorem setTxn_out (m : Mach) (o : Nat) (x : Txn) : (m.setTxn o x).out = m.out := rfl
@[simp] theorem setTxn_alertN (m : Mach) (o : Nat) (x : Txn) : (m.setTxn o x).alertN = m.alertN := rfl
@[simp] theorem setTxn_pwrGood (m : Mach) (o : Nat) (x : Txn) : (m.setTxn o x).pwrGood = m.pwrGood := rfl
@[simp] theorem setTxn_regs (m : Mach) (o : Nat) (x : Txn) : (m.setTxn o x).regs = m.regs := rfl
@[simp] theorem setTxn_mem (m : Mach) (o : Nat) (x : Txn) : (m.setTxn o x).mem = m.mem := rfl
@[simp] theorem setTxn_poison (m : Mach) (o : Nat) (x : Txn) : (m.setTxn o x).poison = m.poison := rfl
@[simp] theorem setTxn_core (m : Mach) (o : Nat) (x : Txn) : (m.setTxn o x).core = m.core := rfl
@[simp] theorem setTxn_errs (m : Mach) (o : Nat) (x : Txn) : (m.setTxn o x).errs = m.errs := rfl
@[simp] theorem setTxn_tier (m : Mach) (o : Nat) (x : Txn) : (m.setTxn o x).tier = m.tier := rfl
@[simp] theorem setTxn_host (m : Mach) (o : Nat) (x : Txn) : (m.setTxn o x).host = m.host := rfl
@[simp] theorem setTxn_part (m : Mach) (o : Nat) (x : Txn) : (m.setTxn o x).part = m.part := rfl
@[simp] theorem setTxn_srv (m : Mach) (o : Nat) (x : Txn) : (m.setTxn o x).srv = m.srv := rfl
@[simp] theorem setTxn_mrd (m : Mach) (o : Nat) (x : Txn) : (m.setTxn o x).mrd = m.mrd := rfl
@[simp] theorem setTxn_conds (m : Mach) (o : Nat) (x : Txn) : (m.setTxn o x).conds = m.conds := rfl
@[simp] theorem setTxn_trains (m : Mach) (o : Nat) (x : Txn) : (m.setTxn o x).trains = m.trains := rfl
@[simp] theorem setTxn_gzt (m : Mach) (o : Nat) (x : Txn) : (m.setTxn o x).gzt = m.gzt := rfl
@[simp] theorem setTxn_colls (m : Mach) (o : Nat) (x : Txn) : (m.setTxn o x).colls = m.colls := rfl
@[simp] theorem setTxn_ckpts (m : Mach) (o : Nat) (x : Txn) : (m.setTxn o x).ckpts = m.ckpts := rfl
@[simp] theorem setTxn_hiers (m : Mach) (o : Nat) (x : Txn) : (m.setTxn o x).hiers = m.hiers := rfl
@[simp] theorem setTxn_fix (m : Mach) (o : Nat) (x : Txn) : (m.setTxn o x).fix = m.fix := rfl
@[simp] theorem setTxn_sec (m : Mach) (o : Nat) (x : Txn) : (m.setTxn o x).sec = m.sec := rfl
@[simp] theorem setTxn_pwr (m : Mach) (o : Nat) (x : Txn) : (m.setTxn o x).pwr = m.pwr := rfl
@[simp] theorem setTxn_sht (m : Mach) (o : Nat) (x : Txn) : (m.setTxn o x).sht = m.sht := rfl
@[simp] theorem setTxn_moved (m : Mach) (o : Nat) (x : Txn) : (m.setTxn o x).moved = m.moved := rfl

/-! ### Mach.setCond -/

@[simp] theorem setCond_now (m : Mach) (c : Nat) (x : Cond) : (m.setCond c x).now = m.now := rfl
@[simp] theorem setCond_freeCtr (m : Mach) (c : Nat) (x : Cond) : (m.setCond c x).freeCtr = m.freeCtr := rfl
@[simp] theorem setCond_out (m : Mach) (c : Nat) (x : Cond) : (m.setCond c x).out = m.out := rfl
@[simp] theorem setCond_alertN (m : Mach) (c : Nat) (x : Cond) : (m.setCond c x).alertN = m.alertN := rfl
@[simp] theorem setCond_pwrGood (m : Mach) (c : Nat) (x : Cond) : (m.setCond c x).pwrGood = m.pwrGood := rfl
@[simp] theorem setCond_regs (m : Mach) (c : Nat) (x : Cond) : (m.setCond c x).regs = m.regs := rfl
@[simp] theorem setCond_mem (m : Mach) (c : Nat) (x : Cond) : (m.setCond c x).mem = m.mem := rfl
@[simp] theorem setCond_poison (m : Mach) (c : Nat) (x : Cond) : (m.setCond c x).poison = m.poison := rfl
@[simp] theorem setCond_core (m : Mach) (c : Nat) (x : Cond) : (m.setCond c x).core = m.core := rfl
@[simp] theorem setCond_conf (m : Mach) (c : Nat) (x : Cond) : (m.setCond c x).conf = m.conf := rfl
@[simp] theorem setCond_errs (m : Mach) (c : Nat) (x : Cond) : (m.setCond c x).errs = m.errs := rfl
@[simp] theorem setCond_tier (m : Mach) (c : Nat) (x : Cond) : (m.setCond c x).tier = m.tier := rfl
@[simp] theorem setCond_host (m : Mach) (c : Nat) (x : Cond) : (m.setCond c x).host = m.host := rfl
@[simp] theorem setCond_part (m : Mach) (c : Nat) (x : Cond) : (m.setCond c x).part = m.part := rfl
@[simp] theorem setCond_srv (m : Mach) (c : Nat) (x : Cond) : (m.setCond c x).srv = m.srv := rfl
@[simp] theorem setCond_mrd (m : Mach) (c : Nat) (x : Cond) : (m.setCond c x).mrd = m.mrd := rfl
@[simp] theorem setCond_trains (m : Mach) (c : Nat) (x : Cond) : (m.setCond c x).trains = m.trains := rfl
@[simp] theorem setCond_gzt (m : Mach) (c : Nat) (x : Cond) : (m.setCond c x).gzt = m.gzt := rfl
@[simp] theorem setCond_colls (m : Mach) (c : Nat) (x : Cond) : (m.setCond c x).colls = m.colls := rfl
@[simp] theorem setCond_ckpts (m : Mach) (c : Nat) (x : Cond) : (m.setCond c x).ckpts = m.ckpts := rfl
@[simp] theorem setCond_hiers (m : Mach) (c : Nat) (x : Cond) : (m.setCond c x).hiers = m.hiers := rfl
@[simp] theorem setCond_fix (m : Mach) (c : Nat) (x : Cond) : (m.setCond c x).fix = m.fix := rfl
@[simp] theorem setCond_sec (m : Mach) (c : Nat) (x : Cond) : (m.setCond c x).sec = m.sec := rfl
@[simp] theorem setCond_pwr (m : Mach) (c : Nat) (x : Cond) : (m.setCond c x).pwr = m.pwr := rfl
@[simp] theorem setCond_sht (m : Mach) (c : Nat) (x : Cond) : (m.setCond c x).sht = m.sht := rfl
@[simp] theorem setCond_moved (m : Mach) (c : Nat) (x : Cond) : (m.setCond c x).moved = m.moved := rfl

/-! ### Mach.setTrain -/

@[simp] theorem setTrain_now (m : Mach) (p : Nat) (x : Train) : (m.setTrain p x).now = m.now := rfl
@[simp] theorem setTrain_freeCtr (m : Mach) (p : Nat) (x : Train) : (m.setTrain p x).freeCtr = m.freeCtr := rfl
@[simp] theorem setTrain_out (m : Mach) (p : Nat) (x : Train) : (m.setTrain p x).out = m.out := rfl
@[simp] theorem setTrain_alertN (m : Mach) (p : Nat) (x : Train) : (m.setTrain p x).alertN = m.alertN := rfl
@[simp] theorem setTrain_pwrGood (m : Mach) (p : Nat) (x : Train) : (m.setTrain p x).pwrGood = m.pwrGood := rfl
@[simp] theorem setTrain_regs (m : Mach) (p : Nat) (x : Train) : (m.setTrain p x).regs = m.regs := rfl
@[simp] theorem setTrain_mem (m : Mach) (p : Nat) (x : Train) : (m.setTrain p x).mem = m.mem := rfl
@[simp] theorem setTrain_poison (m : Mach) (p : Nat) (x : Train) : (m.setTrain p x).poison = m.poison := rfl
@[simp] theorem setTrain_core (m : Mach) (p : Nat) (x : Train) : (m.setTrain p x).core = m.core := rfl
@[simp] theorem setTrain_conf (m : Mach) (p : Nat) (x : Train) : (m.setTrain p x).conf = m.conf := rfl
@[simp] theorem setTrain_errs (m : Mach) (p : Nat) (x : Train) : (m.setTrain p x).errs = m.errs := rfl
@[simp] theorem setTrain_tier (m : Mach) (p : Nat) (x : Train) : (m.setTrain p x).tier = m.tier := rfl
@[simp] theorem setTrain_host (m : Mach) (p : Nat) (x : Train) : (m.setTrain p x).host = m.host := rfl
@[simp] theorem setTrain_part (m : Mach) (p : Nat) (x : Train) : (m.setTrain p x).part = m.part := rfl
@[simp] theorem setTrain_srv (m : Mach) (p : Nat) (x : Train) : (m.setTrain p x).srv = m.srv := rfl
@[simp] theorem setTrain_mrd (m : Mach) (p : Nat) (x : Train) : (m.setTrain p x).mrd = m.mrd := rfl
@[simp] theorem setTrain_conds (m : Mach) (p : Nat) (x : Train) : (m.setTrain p x).conds = m.conds := rfl
@[simp] theorem setTrain_gzt (m : Mach) (p : Nat) (x : Train) : (m.setTrain p x).gzt = m.gzt := rfl
@[simp] theorem setTrain_colls (m : Mach) (p : Nat) (x : Train) : (m.setTrain p x).colls = m.colls := rfl
@[simp] theorem setTrain_ckpts (m : Mach) (p : Nat) (x : Train) : (m.setTrain p x).ckpts = m.ckpts := rfl
@[simp] theorem setTrain_hiers (m : Mach) (p : Nat) (x : Train) : (m.setTrain p x).hiers = m.hiers := rfl
@[simp] theorem setTrain_fix (m : Mach) (p : Nat) (x : Train) : (m.setTrain p x).fix = m.fix := rfl
@[simp] theorem setTrain_sec (m : Mach) (p : Nat) (x : Train) : (m.setTrain p x).sec = m.sec := rfl
@[simp] theorem setTrain_pwr (m : Mach) (p : Nat) (x : Train) : (m.setTrain p x).pwr = m.pwr := rfl
@[simp] theorem setTrain_sht (m : Mach) (p : Nat) (x : Train) : (m.setTrain p x).sht = m.sht := rfl
@[simp] theorem setTrain_moved (m : Mach) (p : Nat) (x : Train) : (m.setTrain p x).moved = m.moved := rfl

/-! ### Mach.withGzt -/

@[simp] theorem withGzt_now (m : Mach) (x : GztSt) : (m.withGzt x).now = m.now := rfl
@[simp] theorem withGzt_freeCtr (m : Mach) (x : GztSt) : (m.withGzt x).freeCtr = m.freeCtr := rfl
@[simp] theorem withGzt_out (m : Mach) (x : GztSt) : (m.withGzt x).out = m.out := rfl
@[simp] theorem withGzt_alertN (m : Mach) (x : GztSt) : (m.withGzt x).alertN = m.alertN := rfl
@[simp] theorem withGzt_pwrGood (m : Mach) (x : GztSt) : (m.withGzt x).pwrGood = m.pwrGood := rfl
@[simp] theorem withGzt_regs (m : Mach) (x : GztSt) : (m.withGzt x).regs = m.regs := rfl
@[simp] theorem withGzt_mem (m : Mach) (x : GztSt) : (m.withGzt x).mem = m.mem := rfl
@[simp] theorem withGzt_poison (m : Mach) (x : GztSt) : (m.withGzt x).poison = m.poison := rfl
@[simp] theorem withGzt_core (m : Mach) (x : GztSt) : (m.withGzt x).core = m.core := rfl
@[simp] theorem withGzt_conf (m : Mach) (x : GztSt) : (m.withGzt x).conf = m.conf := rfl
@[simp] theorem withGzt_errs (m : Mach) (x : GztSt) : (m.withGzt x).errs = m.errs := rfl
@[simp] theorem withGzt_tier (m : Mach) (x : GztSt) : (m.withGzt x).tier = m.tier := rfl
@[simp] theorem withGzt_host (m : Mach) (x : GztSt) : (m.withGzt x).host = m.host := rfl
@[simp] theorem withGzt_part (m : Mach) (x : GztSt) : (m.withGzt x).part = m.part := rfl
@[simp] theorem withGzt_srv (m : Mach) (x : GztSt) : (m.withGzt x).srv = m.srv := rfl
@[simp] theorem withGzt_mrd (m : Mach) (x : GztSt) : (m.withGzt x).mrd = m.mrd := rfl
@[simp] theorem withGzt_conds (m : Mach) (x : GztSt) : (m.withGzt x).conds = m.conds := rfl
@[simp] theorem withGzt_trains (m : Mach) (x : GztSt) : (m.withGzt x).trains = m.trains := rfl
@[simp] theorem withGzt_colls (m : Mach) (x : GztSt) : (m.withGzt x).colls = m.colls := rfl
@[simp] theorem withGzt_ckpts (m : Mach) (x : GztSt) : (m.withGzt x).ckpts = m.ckpts := rfl
@[simp] theorem withGzt_hiers (m : Mach) (x : GztSt) : (m.withGzt x).hiers = m.hiers := rfl
@[simp] theorem withGzt_fix (m : Mach) (x : GztSt) : (m.withGzt x).fix = m.fix := rfl
@[simp] theorem withGzt_sec (m : Mach) (x : GztSt) : (m.withGzt x).sec = m.sec := rfl
@[simp] theorem withGzt_pwr (m : Mach) (x : GztSt) : (m.withGzt x).pwr = m.pwr := rfl
@[simp] theorem withGzt_sht (m : Mach) (x : GztSt) : (m.withGzt x).sht = m.sht := rfl
@[simp] theorem withGzt_moved (m : Mach) (x : GztSt) : (m.withGzt x).moved = m.moved := rfl

/-! ### Mach.setCkpt -/

@[simp] theorem setCkpt_now (m : Mach) (p : Nat) (x : Ckpt) : (m.setCkpt p x).now = m.now := rfl
@[simp] theorem setCkpt_freeCtr (m : Mach) (p : Nat) (x : Ckpt) : (m.setCkpt p x).freeCtr = m.freeCtr := rfl
@[simp] theorem setCkpt_out (m : Mach) (p : Nat) (x : Ckpt) : (m.setCkpt p x).out = m.out := rfl
@[simp] theorem setCkpt_alertN (m : Mach) (p : Nat) (x : Ckpt) : (m.setCkpt p x).alertN = m.alertN := rfl
@[simp] theorem setCkpt_pwrGood (m : Mach) (p : Nat) (x : Ckpt) : (m.setCkpt p x).pwrGood = m.pwrGood := rfl
@[simp] theorem setCkpt_regs (m : Mach) (p : Nat) (x : Ckpt) : (m.setCkpt p x).regs = m.regs := rfl
@[simp] theorem setCkpt_mem (m : Mach) (p : Nat) (x : Ckpt) : (m.setCkpt p x).mem = m.mem := rfl
@[simp] theorem setCkpt_poison (m : Mach) (p : Nat) (x : Ckpt) : (m.setCkpt p x).poison = m.poison := rfl
@[simp] theorem setCkpt_core (m : Mach) (p : Nat) (x : Ckpt) : (m.setCkpt p x).core = m.core := rfl
@[simp] theorem setCkpt_conf (m : Mach) (p : Nat) (x : Ckpt) : (m.setCkpt p x).conf = m.conf := rfl
@[simp] theorem setCkpt_errs (m : Mach) (p : Nat) (x : Ckpt) : (m.setCkpt p x).errs = m.errs := rfl
@[simp] theorem setCkpt_tier (m : Mach) (p : Nat) (x : Ckpt) : (m.setCkpt p x).tier = m.tier := rfl
@[simp] theorem setCkpt_host (m : Mach) (p : Nat) (x : Ckpt) : (m.setCkpt p x).host = m.host := rfl
@[simp] theorem setCkpt_part (m : Mach) (p : Nat) (x : Ckpt) : (m.setCkpt p x).part = m.part := rfl
@[simp] theorem setCkpt_srv (m : Mach) (p : Nat) (x : Ckpt) : (m.setCkpt p x).srv = m.srv := rfl
@[simp] theorem setCkpt_mrd (m : Mach) (p : Nat) (x : Ckpt) : (m.setCkpt p x).mrd = m.mrd := rfl
@[simp] theorem setCkpt_conds (m : Mach) (p : Nat) (x : Ckpt) : (m.setCkpt p x).conds = m.conds := rfl
@[simp] theorem setCkpt_trains (m : Mach) (p : Nat) (x : Ckpt) : (m.setCkpt p x).trains = m.trains := rfl
@[simp] theorem setCkpt_gzt (m : Mach) (p : Nat) (x : Ckpt) : (m.setCkpt p x).gzt = m.gzt := rfl
@[simp] theorem setCkpt_colls (m : Mach) (p : Nat) (x : Ckpt) : (m.setCkpt p x).colls = m.colls := rfl
@[simp] theorem setCkpt_hiers (m : Mach) (p : Nat) (x : Ckpt) : (m.setCkpt p x).hiers = m.hiers := rfl
@[simp] theorem setCkpt_fix (m : Mach) (p : Nat) (x : Ckpt) : (m.setCkpt p x).fix = m.fix := rfl
@[simp] theorem setCkpt_sec (m : Mach) (p : Nat) (x : Ckpt) : (m.setCkpt p x).sec = m.sec := rfl
@[simp] theorem setCkpt_pwr (m : Mach) (p : Nat) (x : Ckpt) : (m.setCkpt p x).pwr = m.pwr := rfl
@[simp] theorem setCkpt_sht (m : Mach) (p : Nat) (x : Ckpt) : (m.setCkpt p x).sht = m.sht := rfl
@[simp] theorem setCkpt_moved (m : Mach) (p : Nat) (x : Ckpt) : (m.setCkpt p x).moved = m.moved := rfl

/-! ### Mach.setHier -/

@[simp] theorem setHier_now (m : Mach) (p : Nat) (x : Hier) : (m.setHier p x).now = m.now := rfl
@[simp] theorem setHier_freeCtr (m : Mach) (p : Nat) (x : Hier) : (m.setHier p x).freeCtr = m.freeCtr := rfl
@[simp] theorem setHier_out (m : Mach) (p : Nat) (x : Hier) : (m.setHier p x).out = m.out := rfl
@[simp] theorem setHier_alertN (m : Mach) (p : Nat) (x : Hier) : (m.setHier p x).alertN = m.alertN := rfl
@[simp] theorem setHier_pwrGood (m : Mach) (p : Nat) (x : Hier) : (m.setHier p x).pwrGood = m.pwrGood := rfl
@[simp] theorem setHier_regs (m : Mach) (p : Nat) (x : Hier) : (m.setHier p x).regs = m.regs := rfl
@[simp] theorem setHier_mem (m : Mach) (p : Nat) (x : Hier) : (m.setHier p x).mem = m.mem := rfl
@[simp] theorem setHier_poison (m : Mach) (p : Nat) (x : Hier) : (m.setHier p x).poison = m.poison := rfl
@[simp] theorem setHier_core (m : Mach) (p : Nat) (x : Hier) : (m.setHier p x).core = m.core := rfl
@[simp] theorem setHier_conf (m : Mach) (p : Nat) (x : Hier) : (m.setHier p x).conf = m.conf := rfl
@[simp] theorem setHier_errs (m : Mach) (p : Nat) (x : Hier) : (m.setHier p x).errs = m.errs := rfl
@[simp] theorem setHier_tier (m : Mach) (p : Nat) (x : Hier) : (m.setHier p x).tier = m.tier := rfl
@[simp] theorem setHier_host (m : Mach) (p : Nat) (x : Hier) : (m.setHier p x).host = m.host := rfl
@[simp] theorem setHier_part (m : Mach) (p : Nat) (x : Hier) : (m.setHier p x).part = m.part := rfl
@[simp] theorem setHier_srv (m : Mach) (p : Nat) (x : Hier) : (m.setHier p x).srv = m.srv := rfl
@[simp] theorem setHier_mrd (m : Mach) (p : Nat) (x : Hier) : (m.setHier p x).mrd = m.mrd := rfl
@[simp] theorem setHier_conds (m : Mach) (p : Nat) (x : Hier) : (m.setHier p x).conds = m.conds := rfl
@[simp] theorem setHier_trains (m : Mach) (p : Nat) (x : Hier) : (m.setHier p x).trains = m.trains := rfl
@[simp] theorem setHier_gzt (m : Mach) (p : Nat) (x : Hier) : (m.setHier p x).gzt = m.gzt := rfl
@[simp] theorem setHier_colls (m : Mach) (p : Nat) (x : Hier) : (m.setHier p x).colls = m.colls := rfl
@[simp] theorem setHier_ckpts (m : Mach) (p : Nat) (x : Hier) : (m.setHier p x).ckpts = m.ckpts := rfl
@[simp] theorem setHier_fix (m : Mach) (p : Nat) (x : Hier) : (m.setHier p x).fix = m.fix := rfl
@[simp] theorem setHier_sec (m : Mach) (p : Nat) (x : Hier) : (m.setHier p x).sec = m.sec := rfl
@[simp] theorem setHier_pwr (m : Mach) (p : Nat) (x : Hier) : (m.setHier p x).pwr = m.pwr := rfl
@[simp] theorem setHier_sht (m : Mach) (p : Nat) (x : Hier) : (m.setHier p x).sht = m.sht := rfl
@[simp] theorem setHier_moved (m : Mach) (p : Nat) (x : Hier) : (m.setHier p x).moved = m.moved := rfl

/-! ### Mach.addSat -/

@[simp] theorem addSat_now (m : Mach) (f : Fld) (ix : List Nat) (n : Nat) : (m.addSat f ix n).now = m.now := rfl
@[simp] theorem addSat_freeCtr (m : Mach) (f : Fld) (ix : List Nat) (n : Nat) : (m.addSat f ix n).freeCtr = m.freeCtr := rfl
@[simp] theorem addSat_out (m : Mach) (f : Fld) (ix : List Nat) (n : Nat) : (m.addSat f ix n).out = m.out := rfl
@[simp] theorem addSat_alertN (m : Mach) (f : Fld) (ix : List Nat) (n : Nat) : (m.addSat f ix n).alertN = m.alertN := rfl
@[simp] theorem addSat_pwrGood (m : Mach) (f : Fld) (ix : List Nat) (n : Nat) : (m.addSat f ix n).pwrGood = m.pwrGood := rfl
@[simp] theorem addSat_tickRegs (m : Mach) (f : Fld) (ix : List Nat) (n : Nat) : (m.addSat f ix n).tickRegs = m.tickRegs := rfl
@[simp] theorem addSat_mem (m : Mach) (f : Fld) (ix : List Nat) (n : Nat) : (m.addSat f ix n).mem = m.mem := rfl
@[simp] theorem addSat_poison (m : Mach) (f : Fld) (ix : List Nat) (n : Nat) : (m.addSat f ix n).poison = m.poison := rfl
@[simp] theorem addSat_core (m : Mach) (f : Fld) (ix : List Nat) (n : Nat) : (m.addSat f ix n).core = m.core := rfl
@[simp] theorem addSat_conf (m : Mach) (f : Fld) (ix : List Nat) (n : Nat) : (m.addSat f ix n).conf = m.conf := rfl
@[simp] theorem addSat_errs (m : Mach) (f : Fld) (ix : List Nat) (n : Nat) : (m.addSat f ix n).errs = m.errs := rfl
@[simp] theorem addSat_tier (m : Mach) (f : Fld) (ix : List Nat) (n : Nat) : (m.addSat f ix n).tier = m.tier := rfl
@[simp] theorem addSat_host (m : Mach) (f : Fld) (ix : List Nat) (n : Nat) : (m.addSat f ix n).host = m.host := rfl
@[simp] theorem addSat_part (m : Mach) (f : Fld) (ix : List Nat) (n : Nat) : (m.addSat f ix n).part = m.part := rfl
@[simp] theorem addSat_srv (m : Mach) (f : Fld) (ix : List Nat) (n : Nat) : (m.addSat f ix n).srv = m.srv := rfl
@[simp] theorem addSat_mrd (m : Mach) (f : Fld) (ix : List Nat) (n : Nat) : (m.addSat f ix n).mrd = m.mrd := rfl
@[simp] theorem addSat_conds (m : Mach) (f : Fld) (ix : List Nat) (n : Nat) : (m.addSat f ix n).conds = m.conds := rfl
@[simp] theorem addSat_trains (m : Mach) (f : Fld) (ix : List Nat) (n : Nat) : (m.addSat f ix n).trains = m.trains := rfl
@[simp] theorem addSat_gzt (m : Mach) (f : Fld) (ix : List Nat) (n : Nat) : (m.addSat f ix n).gzt = m.gzt := rfl
@[simp] theorem addSat_colls (m : Mach) (f : Fld) (ix : List Nat) (n : Nat) : (m.addSat f ix n).colls = m.colls := rfl
@[simp] theorem addSat_ckpts (m : Mach) (f : Fld) (ix : List Nat) (n : Nat) : (m.addSat f ix n).ckpts = m.ckpts := rfl
@[simp] theorem addSat_hiers (m : Mach) (f : Fld) (ix : List Nat) (n : Nat) : (m.addSat f ix n).hiers = m.hiers := rfl
@[simp] theorem addSat_fix (m : Mach) (f : Fld) (ix : List Nat) (n : Nat) : (m.addSat f ix n).fix = m.fix := rfl
@[simp] theorem addSat_sec (m : Mach) (f : Fld) (ix : List Nat) (n : Nat) : (m.addSat f ix n).sec = m.sec := rfl
@[simp] theorem addSat_pwr (m : Mach) (f : Fld) (ix : List Nat) (n : Nat) : (m.addSat f ix n).pwr = m.pwr := rfl
@[simp] theorem addSat_sht (m : Mach) (f : Fld) (ix : List Nat) (n : Nat) : (m.addSat f ix n).sht = m.sht := rfl

/-! ### Mach.raise -/

@[simp] theorem raise_now (m : Mach) (f : Fld) (ix : List Nat) (n : Nat) : (m.raise f ix n).now = m.now := rfl
@[simp] theorem raise_freeCtr (m : Mach) (f : Fld) (ix : List Nat) (n : Nat) : (m.raise f ix n).freeCtr = m.freeCtr := rfl
@[simp] theorem raise_out (m : Mach) (f : Fld) (ix : List Nat) (n : Nat) : (m.raise f ix n).out = m.out := rfl
@[simp] theorem raise_alertN (m : Mach) (f : Fld) (ix : List Nat) (n : Nat) : (m.raise f ix n).alertN = m.alertN := rfl
@[simp] theorem raise_pwrGood (m : Mach) (f : Fld) (ix : List Nat) (n : Nat) : (m.raise f ix n).pwrGood = m.pwrGood := rfl
@[simp] theorem raise_tickRegs (m : Mach) (f : Fld) (ix : List Nat) (n : Nat) : (m.raise f ix n).tickRegs = m.tickRegs := rfl
@[simp] theorem raise_mem (m : Mach) (f : Fld) (ix : List Nat) (n : Nat) : (m.raise f ix n).mem = m.mem := rfl
@[simp] theorem raise_poison (m : Mach) (f : Fld) (ix : List Nat) (n : Nat) : (m.raise f ix n).poison = m.poison := rfl
@[simp] theorem raise_core (m : Mach) (f : Fld) (ix : List Nat) (n : Nat) : (m.raise f ix n).core = m.core := rfl
@[simp] theorem raise_conf (m : Mach) (f : Fld) (ix : List Nat) (n : Nat) : (m.raise f ix n).conf = m.conf := rfl
@[simp] theorem raise_errs (m : Mach) (f : Fld) (ix : List Nat) (n : Nat) : (m.raise f ix n).errs = m.errs := rfl
@[simp] theorem raise_tier (m : Mach) (f : Fld) (ix : List Nat) (n : Nat) : (m.raise f ix n).tier = m.tier := rfl
@[simp] theorem raise_host (m : Mach) (f : Fld) (ix : List Nat) (n : Nat) : (m.raise f ix n).host = m.host := rfl
@[simp] theorem raise_part (m : Mach) (f : Fld) (ix : List Nat) (n : Nat) : (m.raise f ix n).part = m.part := rfl
@[simp] theorem raise_srv (m : Mach) (f : Fld) (ix : List Nat) (n : Nat) : (m.raise f ix n).srv = m.srv := rfl
@[simp] theorem raise_mrd (m : Mach) (f : Fld) (ix : List Nat) (n : Nat) : (m.raise f ix n).mrd = m.mrd := rfl
@[simp] theorem raise_conds (m : Mach) (f : Fld) (ix : List Nat) (n : Nat) : (m.raise f ix n).conds = m.conds := rfl
@[simp] theorem raise_trains (m : Mach) (f : Fld) (ix : List Nat) (n : Nat) : (m.raise f ix n).trains = m.trains := rfl
@[simp] theorem raise_gzt (m : Mach) (f : Fld) (ix : List Nat) (n : Nat) : (m.raise f ix n).gzt = m.gzt := rfl
@[simp] theorem raise_colls (m : Mach) (f : Fld) (ix : List Nat) (n : Nat) : (m.raise f ix n).colls = m.colls := rfl
@[simp] theorem raise_ckpts (m : Mach) (f : Fld) (ix : List Nat) (n : Nat) : (m.raise f ix n).ckpts = m.ckpts := rfl
@[simp] theorem raise_hiers (m : Mach) (f : Fld) (ix : List Nat) (n : Nat) : (m.raise f ix n).hiers = m.hiers := rfl
@[simp] theorem raise_fix (m : Mach) (f : Fld) (ix : List Nat) (n : Nat) : (m.raise f ix n).fix = m.fix := rfl
@[simp] theorem raise_sec (m : Mach) (f : Fld) (ix : List Nat) (n : Nat) : (m.raise f ix n).sec = m.sec := rfl
@[simp] theorem raise_pwr (m : Mach) (f : Fld) (ix : List Nat) (n : Nat) : (m.raise f ix n).pwr = m.pwr := rfl
@[simp] theorem raise_sht (m : Mach) (f : Fld) (ix : List Nat) (n : Nat) : (m.raise f ix n).sht = m.sht := rfl

/-! ### Mach.setMsix -/

@[simp] theorem setMsix_now (m : Mach) (port fn v : Nat) (x : MsixVec) : (m.setMsix port fn v x).now = m.now := rfl
@[simp] theorem setMsix_freeCtr (m : Mach) (port fn v : Nat) (x : MsixVec) : (m.setMsix port fn v x).freeCtr = m.freeCtr := rfl
@[simp] theorem setMsix_out (m : Mach) (port fn v : Nat) (x : MsixVec) : (m.setMsix port fn v x).out = m.out := rfl
@[simp] theorem setMsix_alertN (m : Mach) (port fn v : Nat) (x : MsixVec) : (m.setMsix port fn v x).alertN = m.alertN := rfl
@[simp] theorem setMsix_pwrGood (m : Mach) (port fn v : Nat) (x : MsixVec) : (m.setMsix port fn v x).pwrGood = m.pwrGood := rfl
@[simp] theorem setMsix_regs (m : Mach) (port fn v : Nat) (x : MsixVec) : (m.setMsix port fn v x).regs = m.regs := rfl
@[simp] theorem setMsix_tickRegs (m : Mach) (port fn v : Nat) (x : MsixVec) : (m.setMsix port fn v x).tickRegs = m.tickRegs := rfl
@[simp] theorem setMsix_moved (m : Mach) (port fn v : Nat) (x : MsixVec) : (m.setMsix port fn v x).moved = m.moved := rfl
@[simp] theorem setMsix_mem (m : Mach) (port fn v : Nat) (x : MsixVec) : (m.setMsix port fn v x).mem = m.mem := rfl
@[simp] theorem setMsix_poison (m : Mach) (port fn v : Nat) (x : MsixVec) : (m.setMsix port fn v x).poison = m.poison := rfl
@[simp] theorem setMsix_core (m : Mach) (port fn v : Nat) (x : MsixVec) : (m.setMsix port fn v x).core = m.core := rfl
@[simp] theorem setMsix_conf (m : Mach) (port fn v : Nat) (x : MsixVec) : (m.setMsix port fn v x).conf = m.conf := rfl
@[simp] theorem setMsix_errs (m : Mach) (port fn v : Nat) (x : MsixVec) : (m.setMsix port fn v x).errs = m.errs := rfl
@[simp] theorem setMsix_tier (m : Mach) (port fn v : Nat) (x : MsixVec) : (m.setMsix port fn v x).tier = m.tier := rfl
@[simp] theorem setMsix_part (m : Mach) (port fn v : Nat) (x : MsixVec) : (m.setMsix port fn v x).part = m.part := rfl
@[simp] theorem setMsix_srv (m : Mach) (port fn v : Nat) (x : MsixVec) : (m.setMsix port fn v x).srv = m.srv := rfl
@[simp] theorem setMsix_mrd (m : Mach) (port fn v : Nat) (x : MsixVec) : (m.setMsix port fn v x).mrd = m.mrd := rfl
@[simp] theorem setMsix_conds (m : Mach) (port fn v : Nat) (x : MsixVec) : (m.setMsix port fn v x).conds = m.conds := rfl
@[simp] theorem setMsix_trains (m : Mach) (port fn v : Nat) (x : MsixVec) : (m.setMsix port fn v x).trains = m.trains := rfl
@[simp] theorem setMsix_gzt (m : Mach) (port fn v : Nat) (x : MsixVec) : (m.setMsix port fn v x).gzt = m.gzt := rfl
@[simp] theorem setMsix_colls (m : Mach) (port fn v : Nat) (x : MsixVec) : (m.setMsix port fn v x).colls = m.colls := rfl
@[simp] theorem setMsix_ckpts (m : Mach) (port fn v : Nat) (x : MsixVec) : (m.setMsix port fn v x).ckpts = m.ckpts := rfl
@[simp] theorem setMsix_hiers (m : Mach) (port fn v : Nat) (x : MsixVec) : (m.setMsix port fn v x).hiers = m.hiers := rfl
@[simp] theorem setMsix_fix (m : Mach) (port fn v : Nat) (x : MsixVec) : (m.setMsix port fn v x).fix = m.fix := rfl
@[simp] theorem setMsix_sec (m : Mach) (port fn v : Nat) (x : MsixVec) : (m.setMsix port fn v x).sec = m.sec := rfl
@[simp] theorem setMsix_pwr (m : Mach) (port fn v : Nat) (x : MsixVec) : (m.setMsix port fn v x).pwr = m.pwr := rfl
@[simp] theorem setMsix_sht (m : Mach) (port fn v : Nat) (x : MsixVec) : (m.setMsix port fn v x).sht = m.sht := rfl

end Sys2Proof.Laws
end

