-- ==== Sys2Proof/Tests/Slice0.lean ====
section
/-! SUPPORT. Witnesses that the hypotheses of the statements are met, and small tests of one command each. -/

namespace Sys2Proof.Tests

open Sys2Proof Sys2Proof.Machine

/- One theorem after the other: each waits for the kernel, and as many threads as theorems would wait at once. -/
set_option Elab.async false

/-! ### States the tests start from -/

/-- An entry of n bytes with little-endian values at (offset, size). -/
def entry (n : Nat) (l : List (Nat × Nat × Nat)) : List Byte :=
  l.foldl (fun e x => e.take x.1 ++ leBytes x.2.1 x.2.2 ++ e.drop (x.1 + x.2.1)) (List.replicate n 0)
/-- Register fields set one after the other. -/
def put (m : Mach) (l : List (Fld × List Nat × Nat)) : Mach := l.foldl (fun m x => m.setFld x.1 x.2.1 x.2.2) m
/-- A state whose volatile part is m. -/
def st (m : Mach) : State := { State.reset with ext := { State.reset.ext with resetN := true, cold := false }, m := m }
/-- Powered and released, in a phase of the boot. -/
def phase (n : Nat) : Mach := put Mach.init [(R.PRT_STATUS_PHASE, [], n), (R.PRT_STATUS_REFCLK_OK, [], 1)]
/-- READY and RUNNING, nothing configured. -/
def ready : Mach := phase 5
/-- The PARTITIONS entry of partition 1: panes 0 and 1, VF 1 of host port 0, 4 pages of HBM, 4 slices of Transom. -/
def part1 : List Byte := entry 128 [(0, 1, 1), (3, 1, 1), (4, 4, 4), (8, 2, 4), (32, 1, 3)]
/-- READY with partition 1 ACTIVE. -/
def one : Mach :=
  let c := ready.conf.cfg
  let m : Mach := { ready with conf := { ready.conf with cfg := { c with partitions := [part1], types := [1, 2, 3, 4, 5, 6] } } }
  put m [(R.PTN_PSTATE_STATE, [1], psActive)]
/-- One pane's contents replaced. -/
def withPane (m : Mach) (n : Nat) (f : Pane → Pane) : Mach := m.setPane n (f (m.pane n))
/-- Stream F of pane 0 in RUN at instruction 0, which is w. -/
def at0 (w : InsnWord) (x : Stream → Stream) : Mach :=
  put (withPane one 0 (fun p => { p with code := [w], f := x p.f })) [(R.PNE_STREAM_STATE, [0, 0], ssRun)]

/-- A configuration with no conduit has every half on a die of the module. -/
theorem louvresOk_of_none {m : Mach} (e : m.conf.cfg.conduit = []) : LouvresOk m := by
  intro c d h
  simp [Mach.cdEmit, Mach.cdLoss, Mach.cdRoute, Cfg.conduitOf, e] at h
/-! ### Boot, power and pins -/

/-- A flush that holds nothing, of generation g. -/
def flush0 (g : Nat) : Flush :=
  { gen := g, failAt := 7, unannounced := false, records := [], meters := [], txns := [], ckpts := [], mstate := 0, status := 0 }
/-- SELFTEST and CHART_LOAD with a firmware copy selected. -/
def booting (n : Nat) : Mach := { phase n with sec := { (phase n).sec with fwRun := 1 } }
/-- READY with margining permitted, channel 5 ACTIVE; k is the kind of the run in progress. -/
def mMargin (k : Nat) : Mach :=
  put { ready with pwr := { ready.pwr with margin := k } } [(R.SEC_LC_MARGIN, [], 1), (R.MEM_CHAN_STATE, [5], 1), (R.PRT_MARGIN_STAT_BUSY, [], min k 1)]
/-- A flush in progress. -/
def flushing : Mach := { ready with errs := { ready.errs with flushing := some (flush0 4) } }

/-- A correction of n units left, none made for 5,000 ticks. -/
def slewed (n : Int) : Mach := { phase 3 with srv := { (phase 3).srv with slew := n, slewAt := 0, refTick := 4999 } }
theorem witness_EmptyQueueIsATick :
    (st (phase 3)).pending = [] ∧ State.reset.ext.resetN = false ∧ (st (phase 3)).ext.power = true ∧ (st (phase 3)).ext.resetN = true ∧
    (st (phase 3)).ext.refclk = true ∧ (phase 3).running = false ∧ ¬ (16 ≤ (phase 3).rateTick.srv.slew) ∧ ¬ ((phase 3).rateTick.srv.slew ≤ -16) ∧
    20000000 ≤ ({ phase 1 with now := 19999999 }.now + 1) % 2 ^ 64 ∧
    (∀ n : Int, (slewed n).srv.slewAt + 5000 ≤ (slewed n).srv.refTick + 1 ∧ (slewed n).rateTick.srv.slew = n) := by
  iterate 9 refine And.intro (by decide +kernel) ?_
  refine fun n => ⟨(by decide : (0 : Nat) + 5000 ≤ 4999 + 1), ?_⟩
  have e : (slewed n).isRoot = false := (show (slewed 0).isRoot = false by decide +kernel)
  rw [Mach.rateTick, e]
  exact Int.add_zero n
theorem witness_PowerInputAndResetPin :
    ({ st ready with ext := { (st ready).ext with power := false } }).ext.power = false ∧
    ((st ready).ext.power = true ∧ ready.conf.chartOp = none ∧ ready.errs.flushing = none) ∧ flushing.errs.flushing ≠ none ∧
    (State.reset.ext.resetN = false ∧ State.reset.ext.power = true ∧ State.reset.ext.tripped = false ∧ State.reset.m.errs.flushing = none) ∧
    (st ready).ext.resetN = true := by decide +kernel
theorem witness_BootPhases :
    ((phase 0).fld R.PRT_STATUS_PHASE [] = 0 ∧ (phase 0).fld R.PRT_STATUS_REFCLK_OK [] = 1) ∧
    (∀ n ∈ [1, 3], (booting n).fld R.PRT_STATUS_PHASE [] = n ∧ (st (booting n)).romPassed = true) ∧
    ((booting 4).fld R.PRT_STATUS_PHASE [] = 4 ∧ State.reset.nv.current 0 = none ∧ (booting 4).factoryCheck { State.reset.nv with factory := [] } ≠ none) ∧
    ((st (booting 1)).romPassed = true ∧ 1 ≤ (booting 1).fld R.PRT_STATUS_PHASE [] ∧ (booting 1).fld R.FAR_PORT_STATE [1] = 0 ∧ 1 ∉ (booting 1).tier.enumerated ∧
      1 ∈ { (booting 1).tier with enumerated := [1] }.enumerated) := by decide +kernel
theorem witness_BootPhases_held : ∀ p h : Nat, ((booting 3).hatch p h).holding = [] := fun _ _ => rfl
theorem witness_PowerFailureAndFlush :
    (3 ≤ (phase 3).fld R.PRT_STATUS_PHASE [] ∧ (phase 3).fld R.ERR_MSTATE_STATE [] = 0 ∧ (phase 3).errs.flushing = none ∧ (st (phase 3)).ext.pwrfailN = true) ∧
    flushing.errs.flushing = some (flush0 4) ∧ flushing.conf.chartOp = none := by decide +kernel
theorem witness_PowerTemperatureAndClock :
    (st ready).awake = true ∧ (st ready).ext.tripped = false ∧ (115 : Int) ≤ (BitVec.ofNat 8 115).toInt ∧ (BitVec.ofNat 8 114).toInt < 115 ∧
    ready.pwr.sensors = [] ∧ (-256 : Int) ≤ (BitVec.ofNat 8 114).toInt ∧ ready.fld R.ERR_MSTATE_STATE [] = 0 ∧ (st ready).ext.refclk = true := by decide +kernel
theorem witness_Margining :
    (ready.accepts = true ∧ ready.margining = false ∧ ready.fld R.SEC_LC_MARGIN [] = 0) ∧
    ((mMargin 0).accepts = true ∧ (mMargin 0).margining = false ∧ (mMargin 0).fld R.SEC_LC_MARGIN [] = 1 ∧ (mMargin 0).tier.frameOwner = [] ∧
      (mMargin 0).fld R.MEM_CHAN_STATE [5] ≠ 0 ∧ (mMargin 0).lstate (179 / 18) = 0) ∧
    ((mMargin 2).accepts = true ∧ (mMargin 2).margining = true ∧ (mMargin 2).pwr.acts = [] ∧ (mMargin 2).pwr.enables = [] ∧ (mMargin 2).pwr.fills = []) := by
  decide +kernel

/-! ### Lintel -/

/-- A word of a class with every other field 0 but the given value added. -/
def word (cls v : Nat) : InsnWord := BitVec.ofNat 32 (cls * 2 ^ 29 + v)
/-- A stream with values in s3 to s5, o in a1 and one call in progress. -/
def lregs (o : Nat) (x : Stream) : Stream := { x with s := [(3, 0x1122334455667788), (4, 0x4040000012), (5, 0x4100000007)], a := [(1, BitVec.ofNat 64 o)], calls := [9] }
/-- Stream F of pane 0 at one instruction, a1 = 16. -/
def lin (w : InsnWord) : Mach := at0 w (lregs 16)
/-- RR and RI forms with destination 3, source 4. -/
def wRR (cls : Nat) : InsnWord := word cls (3 * 2 ^ 19 + 4 * 2 ^ 14 + 5 * 2 ^ 9)
def wRI (cls : Nat) : InsnWord := word cls (3 * 2 ^ 19 + 4 * 2 ^ 14 + 0x3FF)
/-- LOAD or STORE of s3 at a1 + 8, with a1 = o. -/
def lmem (o : Nat) : Mach := { at0 (word 4 (3 * 2 ^ 19 + 2 ^ 16 + 1)) (lregs o) with mem := [(16, 0xAB), (25, 7), (2 ^ 22 - 1, 0x99)] }
/-- A word that names token 4, which holds c. -/
def ltok (c : Nat) : Mach := withPane (lin (word 6 4)) 0 (fun p => { p with tok := [(4, ⟨c, false⟩)] })
/-- The same word on a stream that waits on its token. -/
def lwait : Mach := put (ltok 2) [(R.PNE_STREAM_STATE, [0, 0], 2), (R.PNE_STREAM_WAIT_ON, [0, 0], 1)]
/-- The same with the token poisoned. -/
def lpois : Mach := withPane lwait 0 (fun p => { p with tok := [(4, ⟨0, true⟩)] })
/-- A descriptor of zeros but for its first and sixth words. -/
def desc0 (w0 w5 : Word) : Desc := { w0 := w0, w1 := 0, w2 := 0, w3 := 0, w4 := 0, w5 := w5, w6 := 0, w7 := 0 }
/-- A command of partition 1 that core stream 0 issued. -/
def qcmd (d : Desc) : QCmd := { desc := d, src := .core 0 0, part := 1, a := none, b := none, c := none, d := none, progress := 0, poisoned := false, resumed := false }
/-- A fence on a stream with a command in a queue. -/
def lout : Mach := withPane (lin (word 6 4)) 0 (fun p => { p with mq := [qcmd (desc0 0 0)] })
/-- CMD with its descriptor at a1 = 64. -/
def lcmd : Mach := { at0 (word 6 (2 ^ 21)) (lregs 64) with mem := [(64, 1)] }
/-- The same with its queue full. -/
def lfull : Mach := withPane lcmd 0 (fun p => { p with mq := List.replicate (queueSize .matrix) (qcmd (desc0 0 0)) })
/-- A launch waiting for stream F of pane 0, which is IDLE. -/
def llaunch : Mach :=
  put { lin (word 6 4) with part := { (lin (word 6 4)).part with
    launches := [{ part := 1, desc := desc0 0 0x0005000000000000#64, src := .hatch 1 0 0, left := [0], busy := false }] } } [(R.PNE_STREAM_STATE, [0, 0], 0)]
/-- A class 5 word whose guard is false. -/
def wNot : InsnWord := word 5 (8 * 2 ^ 20)

theorem witness_LintelRegisterInstructions :
    Retires (lin (wRR 0)) 0 0 0 (fmtOfImm false) 11 (wRR 0) ∧ Retires (lin (wRI 0)) 0 0 0 (fmtOfImm true) 11 (wRI 0) ∧
    Retires (lin (wRR 1)) 0 0 1 .rr 11 (wRR 1) ∧ Retires (lin (wRR 2)) 0 0 2 (fmtOfImm false) 11 (wRR 2) ∧
    Retires (lin (wRI 2)) 0 0 2 (fmtOfImm true) 11 (wRI 2) ∧ Retires (lin (wRR 3)) 0 0 3 (fmtOfImm false) 11 (wRR 3) ∧
    Retires (lin (wRI 3)) 0 0 3 (fmtOfImm true) 11 (wRI 3) ∧ Retires (lin (wRI 7)) 0 0 7 .ri 11 (wRI 7) := by
  unfold Retires; decide +kernel
/-- LOAD and STORE: aligned at the top of the store, misaligned, and past the store's end. -/
theorem witness_LintelLoadStore :
    (Retires (lmem (2 ^ 22 - 16)) 0 0 4 .mem 11 (word 4 (3 * 2 ^ 19 + 2 ^ 16 + 1)) ∧ adOffset (((lmem (2 ^ 22 - 16)).stream 0 0).areg 1) + 8 + 8 = 2 ^ 22) ∧
    (Retires (lmem 9) 0 0 4 .mem 11 (word 4 (3 * 2 ^ 19 + 2 ^ 16 + 1)) ∧ adOffset (((lmem 9).stream 0 0).areg 1) = 9) ∧
    (Retires (lmem (2 ^ 22 - 8)) 0 0 4 .mem 11 (word 4 (3 * 2 ^ 19 + 2 ^ 16 + 1)) ∧ adOffset (((lmem (2 ^ 22 - 8)).stream 0 0).areg 1) + 8 = 2 ^ 22) ∧
    inMemOff (word 4 (3 * 2 ^ 19 + 2 ^ 16 + 1)) = 8 ∧ inMemA (word 4 (3 * 2 ^ 19 + 2 ^ 16 + 1)) = 1 := by
  unfold Retires; decide +kernel
theorem witness_LintelControlFlow :
    Retires (lin (word 5 0xFFFFF)) 0 0 5 .br 8 (word 5 0xFFFFF) ∧ ((lin (word 5 0xFFFFF)).stream 0 0).calls = 9 :: [] ∧
    Retires (lin (wRI 7)) 0 0 7 .ri 6 (wRI 7) := by
  unfold Retires; decide +kernel
theorem witness_LintelTokensAndFence :
    (Retires (ltok 255) 0 0 6 .ri 9 (word 6 4) ∧ ((ltok 255).pane 0).token 4 = ⟨255, false⟩) ∧
    (Retires (ltok 0) 0 0 6 .ri 9 (word 6 4) ∧ ((ltok 0).pane 0).token 4 = ⟨0, false⟩) ∧
    (Retires (lin (word 6 4)) 0 0 6 .ri 10 (word 6 4) ∧ (lin (word 6 4)).outstanding 0 0 = false) ∧
    (Retires (lin (word 6 64)) 0 0 6 .ri 9 (word 6 64) ∧ inToken (word 6 4) ≤ 63 ∧ 63 < inToken (word 6 64)) ∧
    (Retires lout 0 0 6 .ri 10 (word 6 4) ∧ lout.outstanding 0 0 = true) ∧
    lwait.sstate 0 0 = ssWait ∧ lwait.mayIssue 0 = true ∧ lwait.insnBlocks 0 0 10 = false ∧ lwait.insnAt 0 0 = some (word 6 4) ∧
    lwait.fld R.PNE_STREAM_WAIT_ON [0, 0] = 1 ∧ (lwait.pane 0).token (inToken (word 6 4)) = ⟨2, false⟩ ∧
    lpois.sstate 0 0 = ssWait ∧ lpois.mayIssue 0 = true ∧ lpois.insnBlocks 0 0 10 = false ∧ lpois.insnAt 0 0 = some (word 6 4) ∧
    lpois.fld R.PNE_STREAM_WAIT_ON [0, 0] = 1 ∧ (lpois.pane 0).token (inToken (word 6 4)) = ⟨0, true⟩ := by
  unfold Retires; decide +kernel
theorem witness_LintelCommandAndTrap :
    (Retires lcmd 0 0 6 .c 1 (word 6 (2 ^ 21)) ∧ (memAddr cLoadRange ((lcmd.stream 0 0).areg 1) 0).toOption = some 64 ∧
      engineOf (cmdDesc (Desc.ofBytes (lcmd.load (paneKey 0 64) 64)) (lcmd.stream 0 0) 0 0 0).kind = some .matrix ∧
      ((lcmd.pane 0).queue .matrix).length < queueSize .matrix ∧ lcmd.queueRival 0 0 .matrix 0 = false) ∧
    (Retires lfull 0 0 6 .c 1 (word 6 (2 ^ 21)) ∧ (memAddr cLoadRange ((lfull.stream 0 0).areg 1) 0).toOption = some 64 ∧
      engineOf (cmdDesc (Desc.ofBytes (lfull.load (paneKey 0 64) 64)) (lfull.stream 0 0) 0 0 0).kind = some .matrix ∧
      ((lfull.pane 0).queue .matrix).length = queueSize .matrix) ∧
    Retires (lin (wRI 7)) 0 0 7 .ri 7 (wRI 7) ∧ (lin (wRI 7)).insnBlocks 0 0 7 = false ∧
    (llaunch.part.launches.find? (fun l => l.left.contains 0 && l.desc.stream == 0 && llaunch.mayStart l.part 0)).isSome = true ∧ llaunch.sstate 0 0 = ssIdle := by
  unfold Retires; decide +kernel
theorem witness_LintelFalseGuardHasNoEffect :
    (lin wNot).sstate 0 0 = ssRun ∧ (lin wNot).mayIssue 0 = true ∧ (lin wNot).insnBlocks 0 0 8 = false ∧ (lin wNot).insnAt 0 0 = some wNot ∧
    inClass wNot = 5 ∧ ((lin wNot).stream 0 0).preg (inPred .br wNot % 8) = bitAt (inPred .br wNot) 3 ∧ inPred .br wNot = 8 := by decide +kernel

/-! ### Engines and transfers -/

/-- An address in a space of partition 1. -/
def ad (space off : Nat) : Word := BitVec.ofNat 64 (space * 2 ^ 60 + off)
/-- Word 1 of a descriptor: KIND, WAIT token 4, SIGNAL token 5. -/
def dw1 (kind : Nat) : Word := BitVec.ofNat 64 (kind * 2 ^ 60 + 4 * 2 ^ 50 + 5 * 2 ^ 42)
/-- A command of kind k with word 5, reading at 0 and 4096 and writing at 8192 of the pane store. -/
def ecmd (k w5 : Nat) : QCmd :=
  { qcmd { desc0 0 (BitVec.ofNat 64 w5) with w1 := dw1 k } with a := some (ad 0 0), b := some (ad 0 4096), d := some (ad 0 8192) }
/-- Partition 1 with tokens 4 and 5 at 1, its panes at 3300 MHz, its Transom pages on slices 3 and 4, its memory route. -/
def eng (f : Pane → Pane) : Mach :=
  let m := put (withPane one 0 (fun p => f { p with tok := [(4, ⟨1, false⟩), (5, ⟨1, false⟩)] })) [(R.PNE_CLOCK_TARGET_MHZ, [0], 3300)]
  { m with tier := { m.tier with slices := [(4096, 4), (4097, 5)] } }
/-- Native MATRIX, 64 × 64 × 32 on format 1, no count record. -/
def mxW : Nat := 0xFFFFFF * 2 ^ 40 + 2 ^ 36 + 2 ^ 32 + 1
def mMx : Mach := eng (fun p => { p with mq := [ecmd 0 mxW] })
/-- A reserved shape, refused by the check. -/
def mMxBad : Mach := eng (fun p => { p with mq := [ecmd 0 (mxW + 15 * 2 ^ 28)] })
/-- A finished MATRIX of three values. -/
def mxRun : Run := Run.fresh (ecmd 0 mxW) 100 [0x3F800000, 0x40000000, 0x40400000] 3 false
def mDrain : Mach := eng (fun p => { p with mrun := some mxRun })
/-- Slice 0 of a tile of two slices, both arrived in the slot at the start of Transom. -/
def mSplit : Mach :=
  let r := { Run.fresh { ecmd 0 (mxW + 2 ^ 23) with c := some (ad 1 0) } 100 [] 64 false with drained := true }
  { eng (fun p => { p with split := [r] }) with mem := [(sliceKey 3 4, 2), (sliceKey 3 8, 3), (sliceKey 3 67, 0x3F)] }
/-- The first of two slices, drained with nothing arrived in its slot. -/
def mxSliceRun : Run := Run.fresh { ecmd 0 (mxW + 2 ^ 23) with c := some (ad 1 0) } 100 (List.replicate 4096 0) 64 false
def mSlice : Mach := eng (fun p => { p with mrun := some mxSliceRun })
/-- A MATRIX that converts in mode CURRENT. -/
def mxMaxRun : Run := { mxRun with cmd := { ecmd 0 mxW with desc := { (ecmd 0 mxW).desc with w6 := BitVec.ofNat 64 (0xFFFFFF * 2 ^ 40 + 2 ^ 37 + 2 ^ 30) } } }
def mMaxDrain : Mach := eng (fun p => { p with mrun := some mxMaxRun })
/-- A vector command of two rows of four; C is its parameter block at 12288 (CREC slot for INV at Transom 0). -/
def vcmd (op : Nat) : QCmd := { ecmd 1 (op * 2 ^ 56 + 4 * 2 ^ 24 + 2 * 2 ^ 8) with c := some (ad 0 12288) }
def mVx (op : Nat) : Mach := { eng (fun p => { p with vq := [vcmd op] }) with mem := [(3, 0x3F), (7, 0x40), (4099, 0x40), (12288 + 15, 0x10)] }
def mVdone : Mach := eng (fun p => { p with vrun := some { mxRun with cmd := vcmd 1 } })
/-- Two commands of one operation that wait for their common maximum. -/
def mMax : Mach :=
  let q := { vcmd 1 with desc := { (vcmd 1).desc with w6 := BitVec.ofNat 64 (0xFFFFFF * 2 ^ 40 + 2 ^ 37 + 2 ^ 30) } }
  let r : Run := { mxRun with cmd := q }
  withPane (eng (fun p => { p with vrun := some r })) 1 (fun p => { p with vrun := some { r with vals := [0x41000000] } })
/-- A queued command of step 1 whose DELAYED conversion names scale record 1; the record has rolled where v = 1. -/
def held (q : QCmd) : QCmd := { q with desc := { q.desc with w0 := 1, w6 := BitVec.ofNat 64 (2 ^ 40 + 2 ^ 37) } }
def mHeld (v : Byte) : Mach :=
  { eng (fun p => { p with mq := [held (ecmd 0 mxW)], vq := [held (vcmd 1)] }) with
    mem := [(12303, 0x10), (sliceKey 3 160, 4), (sliceKey 3 161, 1), (sliceKey 3 162, v)] }
/-- A copy of 64 bytes from 0 to 8192 of the pane store. -/
def cpCmd : QCmd := { ecmd 2 (64 * 2 ^ 24) with b := none }
def mCp : Mach := { eng (fun p => { p with cq := [cpCmd] }) with mem := [(0, 7), (63, 9)] }
def mCpRun : Mach := { eng (fun p => { p with cruns := [Run.fresh cpCmd 10 [] 0 false] }) with mem := [(0, 7), (63, 9)] }
/-- Route 0 from pane 0 to pane 1; route 1 from pane 0 over edge 0 to pane 48. -/
def routes2 : List (List Byte) :=
  [entry 32 [(3, 1, 1), (6, 2, 1), (9, 1, 48)], entry 32 [(0, 2, 1), (3, 1, 1), (6, 2, 48), (8, 1, 1)], entry 32 [(0, 2, 2), (3, 1, 1), (6, 2, 1), (8, 1, 1)]]
/-- A transfer of three bytes in flight on both routes; n mismatches on edge 0. -/
def mXf (n : Nat) : Mach :=
  let m := eng id
  let x : Xfer := { pane := 0, queue := 2, src := .core 0 0, sealNo := 0, offset := 2 ^ 22 - 3, bytes := [1, 2, 3], more := false, poisoned := false, tags := [], part := 1,
                    retries := Tbl.set 0 [] 0 n }
  { m with conf := { m.conf with cfg := { m.conf.cfg with routes := routes2 } }, core := { m.core with xfers := [(0, [x]), (1, [x])] } }
def mTest : Mach := { mXf 4 with core := { (mXf 4).core with testing := [0, 27] } }
/-- The same retries after wire tests that found no half, or half a width. -/
def mTested (l : List Nat) (w : Nat) : Mach := ({ mXf 4 with core := { (mXf 4).core with tested := l } }).setDirWidth 0 w
/-- The transfer of the copy of pane 0 on route 2, which crosses the failed direction 0. -/
def mDead : Mach :=
  let m := withPane ((mXf 0).setDirWidth 0 2) 0 (fun p => { p with cruns := [Run.fresh cpCmd 10 [] 0 false] })
  { m with core := { m.core with xfers := [(2, m.xfersOf 0)] } }

theorem witness_MatrixCommandsStartAndDrain :
    (mMx.headOf 0 .matrix = .starts (ecmd 0 mxW) ∧ mMx.cvtWaits 1 0 0 = false ∧ mMx.memTested 0 (ecmd 0 mxW) = false ∧
      (let u := (mMx.popHead 0 .matrix true).traceStart 0 (mMx.watchFrom (ecmd 0 mxW))
       (u.mxStart 0 (mMx.watchFrom (ecmd 0 mxW))).isOk = true ∧ (u.tensor 1 0 (ad 0 0) (mxA (BitVec.ofNat 64 mxW)) 64 32).isOk = true ∧
         (u.tensor 1 0 (ad 0 4096) (mxB (BitVec.ofNat 64 mxW)) 64 32).isOk = true)) ∧
    (mMxBad.headOf 0 .matrix = .starts (ecmd 0 (mxW + 15 * 2 ^ 28)) ∧ mMxBad.memTested 0 (ecmd 0 (mxW + 15 * 2 ^ 28)) = false ∧
      (((mMxBad.popHead 0 .matrix true).traceStart 0 (mMxBad.watchFrom (ecmd 0 (mxW + 15 * 2 ^ 28)))).mxStart 0 (mMxBad.watchFrom (ecmd 0 (mxW + 15 * 2 ^ 28)))).isOk = false) ∧
    ((mDrain.pane 0).front = some mxRun ∧ mxRun.drained = false ∧ mxRun.needsMax = false ∧ mxRun.cmd.isSplit = false ∧ (mDrain.runBytes mxRun).1.length = 12 ∧
      mDrain.crecKey 1 mxRun.cmd.desc.w5 = none ∧ mxRun.cmd.desc.kind = 0 ∧ mxRun.cmd.cvt = 0 ∧
      (mDrain.destSegs 1 0 (ad 0 8192) 12 true).toOption = some ([(8192, 12)], 0) ∧
      mDrain.memTested 0 mxRun.cmd = false ∧ mDrain.paneOwner 0 = mxRun.cmd.part ∧ ((mDrain.pane 0).token 5).count + (mDrain.pane 0).owed 5 < 255) ∧
    ((mMaxDrain.pane 0).front = some mxMaxRun ∧ mxMaxRun.needsMax = true ∧ mxMaxRun.cmd.isSplit = false ∧ mxMaxRun.drained = false ∧
      mMaxDrain.memTested 0 mxMaxRun.cmd = false) ∧
    (mxSliceRun.cmd.isSplit = true ∧ mxSlice mxSliceRun.cmd.desc.w5 = 0 ∧ mxP mxSliceRun.cmd.desc.w5 = 2 ∧
      mSlice.slotKey 1 mxSliceRun.cmd.slotAddr 0 = some (sliceKey 3 0) ∧
      mSlice.segs 1 none true (adPlus mxSliceRun.cmd.slotAddr 64) 16384 = some [(sliceKey 3 64, 16384)] ∧ mSlice.memTested 0 mxSliceRun.cmd = false ∧
      mSlice.loadLe (sliceKey 3 0 + 8) 2 = 0 ∧ mSlice.loadLe (sliceKey 3 0 + 10) 1 = 0 ∧ mSlice.crecKey 1 mxSliceRun.cmd.desc.w5 = none) ∧
    ((mSplit.pane 0).split.length = 1 ∧ mSplit.conf.cfg.panes 1 = [0, 1] ∧ (mSplit.pane 1).split = [] ∧
      ∀ r ∈ (mSplit.pane 0).split, r.cmd.isSplit = true ∧ r.reduced = false ∧ mxSlice r.cmd.desc.w5 = 0 ∧
      mSplit.slotKey 1 r.cmd.slotAddr 0 = some (sliceKey 3 0) ∧ mSplit.loadLe (sliceKey 3 0 + 10) 1 = 0 ∧ mSplit.loadLe (sliceKey 3 0 + 8) 2 = 3 ∧
      mSplit.destCheck 0 r.cmd 64 16384 = 0 ∧ mSplit.crecKey 1 r.cmd.desc.w5 = none ∧ mSplit.watchers r.cmd = [] ∧ mSplit.memTested 0 r.cmd = false ∧
      mSplit.paneOwner 0 = r.cmd.part ∧ ((mSplit.pane 0).token r.cmd.desc.signal).count + (mSplit.pane 0).owed r.cmd.desc.signal < 255) := by
  iterate 5 refine And.intro (by decide +kernel) ?_
  decide +kernel
theorem witness_MatrixCommandsStartAndDrain_slice : (mSlice.pane 0).front = some mxSliceRun ∧ mxSliceRun.vals.length = 4096 :=
  ⟨rfl, List.length_replicate ..⟩
theorem witness_MatrixArithmetic :
    (∀ x ∈ [f32 0x3F800000, f32 0x00000001], x.finite = true ∧ -100000 ≤ x.expo) ∧ (f32 0x3F800000).expo - 30 ≤ (f32 0x31000000).expo ∧
    f32 0x7FC00000 = .nan ∧ f32 0x7F800000 = .inf false ∧ f32 0xFF800000 = .inf true ∧
    mxMode (BitVec.ofNat 64 mxW) = 0 ∧ mxSplit (BitVec.ofNat 64 mxW) = 0 ∧ mxG (BitVec.ofNat 64 mxW) = 1 ∧ mxSround (BitVec.ofNat 64 mxW) = false := by
  decide +kernel
theorem witness_ScaledConversionsGoOn :
    (∀ r ∈ (mMax.pane 0).vrun, ∀ t ∈ (mMax.pane 1).vrun, r.cmd.overRoute = false ∧ t.cmd.partOf r.cmd = true ∧
      mMax.partsLeft r [(0, .vector), (1, .vector)] = false ∧ mMax.memTested 0 r.cmd = false ∧ mMax.memTested 1 t.cmd = false) ∧
    ((mMax.pane 0).vrun.map (fun r => r.needsMax) = some true ∧ (mMax.pane 1).vrun.map (fun r => r.needsMax) = some true ∧
      (mMax.pane 0).vrun.map (fun r => r.cmd.desc) = (mMax.pane 1).vrun.map (fun r => r.cmd.desc)) ∧
    ((((mHeld 1).popHead 0 .matrix true).traceStart 0 ((mHeld 1).watchFrom (held (ecmd 0 mxW)))).mxStart 0 ((mHeld 1).watchFrom (held (ecmd 0 mxW)))).isOk = true ∧
    (∀ v ∈ [0, 1], ((mHeld v).pane 0).queue .matrix = held (ecmd 0 mxW) :: [] ∧ cvtScaled (held (ecmd 0 mxW)).cvt = true ∧
      cvtScale (held (ecmd 0 mxW)).cvt = 0 ∧ (mHeld v).cvtWaits 1 (held (ecmd 0 mxW)).cvt 1 = decide (v = 0)) ∧
    (mHeld 1).headOf 0 .matrix = .starts (held (ecmd 0 mxW)) ∧ (mHeld 1).memTested 0 (held (ecmd 0 mxW)) = false := by decide +kernel
theorem witness_VectorCommandsStartAndComplete :
    (∀ op ∈ [0x01, 0x06, 0x2B, 0x30, 0x41], (mVx op).headOf 0 .vector = .starts (vcmd op) ∧ vxOp (vcmd op).desc.w5 = op ∧ (mVx op).memTested 0 (vcmd op) = false ∧
      (let q := (mVx op).watchFrom (vcmd op)
       let u := ((mVx op).popHead 0 .vector true).traceStart 0 q
       let rows := if vxInv op then 8 else 2
       (u.vxStart 0 q).isOk = true ∧ (u.vxOperandA (vcmd op) 0 rows 4).isOk = true ∧
         (u.vxTensor (vcmd op) 0 (if op = 0x30 ∨ !vxUsesB op then none else (vcmd op).b) (vxB (vcmd op).desc.w5) rows (if op = 0x2B then 8 else 4)).isOk = true ∧
         (u.vxTensor (vcmd op) 0 none 0 rows 4).isOk = true ∧ (u.fetch 1 0 ((vcmd op).c.getD 0) 64).isOk = true ∧ (u.fetch 1 0 (ad 0 4096) (4 * rows)).isOk = true)) ∧
    ((mVx 0x99).headOf 0 .vector = .starts (vcmd 0x99) ∧ vxKnown 0x99 = false ∧ (mVx 0x99).memTested 0 (vcmd 0x99) = false) ∧
    ((mVdone.pane 0).vrun.isSome = true ∧ mVdone.hasXfers 0 (vcmd 1) = false ∧ (mVdone.destSegs 1 0 (ad 0 8192) 12 true).toOption = some ([(8192, 12)], 0) ∧
      ∀ r ∈ (mVdone.pane 0).vrun, r.needsMax = false ∧ r.cmd = vcmd 1 ∧ r.vals2 = [] ∧ r.fallback = none ∧ r.poisoned = false ∧ (mVdone.runBytes r).1.length = 12 ∧
        mVdone.memTested 0 r.cmd = false ∧ mVdone.paneOwner 0 = r.cmd.part ∧ ((mVdone.pane 0).token r.cmd.desc.signal).count + (mVdone.pane 0).owed r.cmd.desc.signal < 255) := by
  decide +kernel
theorem witness_CopiesAndTransfers :
    (mCp.headOf 0 .copy = .starts cpCmd ∧ mCp.watchers cpCmd = [] ∧ ((((mCp.popHead 0 .copy true).traceStart 0 cpCmd).copyPlan 0 cpCmd)).isOk = true ∧ mCp.pstate 1 = psActive ∧ mCp.memTested 0 cpCmd = false) ∧
    ((mCpRun.pane 0).cruns.length = 1 ∧ mCpRun.running = true ∧ mCpRun.hasXfers 0 cpCmd = false ∧ cpCmd.routed = false ∧ cpCmd.onHost = false ∧
      (mCpRun.copyPlan 0 cpCmd).toOption = some { src := [(0, 64)], dst := [(8192, 64)], atop := 0, mode := 0 } ∧ cpBytes cpCmd = 64 ∧
      mCpRun.poisonedAt 0 64 = false ∧ mCpRun.memTested 0 cpCmd = false ∧ mCpRun.paneOwner 0 = 1 ∧ cpCmd.desc.signal = 5 ∧
      ((mCpRun.pane 0).token 5).count + (mCpRun.pane 0).owed 5 < 255) ∧
    ((mXf 3).conf.cfg.route 0 = some (routes2.getD 0 []) ∧ ((mXf 3).xfersOf 0).length = 1 ∧ routeDst (routes2.getD 0 []) = 1 ∧ (mXf 3).paneOwner 1 = 1 ∧
      (mXf 3).routeTested (routes2.getD 0 []) = false ∧ (mXf 3).routeDead (routes2.getD 0 []) = false ∧ (∀ y ∈ (mXf 3).xfersOf 0, (mXf 3).tokenFull 1 y = false)) ∧
    (mDead.conf.cfg.route 2 = some (routes2.getD 2 []) ∧ mDead.routeDead (routes2.getD 2 []) = true ∧ mDead.routeTested (routes2.getD 2 []) = false ∧
      routeDst (routes2.getD 2 []) = 1 ∧ mDead.paneOwner 0 = 1 ∧ mDead.paneOwner 1 = 1 ∧ (mDead.pane 0).vrun = none ∧ (mDead.pane 0).cq = [] ∧
      ∀ y ∈ mDead.xfersOf 2, y.pane = 0 ∧ y.ofCmd cpCmd = true ∧ y.part = leAt (routes2.getD 2 []) 3 1) ∧
    (routeDirs (routes2.getD 1 []) = [0] ∧ (∀ n ∈ [3, 4], ((mXf n).xfersOf 1).map (fun y => Tbl.get 0 y.retries 0) = [n]) ∧ (mXf 4).dirWidth 0 ≠ 2 ∧
      (mXf 4).core.tested = []) ∧
    ((mTested [65] 0).core.tested.contains (2 * 32 + 1) = true ∧ (mTested [64] 1).core.tested.contains (2 * 32) = true ∧ (mTested [64] 1).dirWidth 0 = 1) ∧
    (mTest.core.testing.contains (13 * 2 + b2n true) = true ∧ wireWidth (List.range 64) = 0 ∧ wireWidth (List.range 65) = 1 ∧
      wireWidth (List.range' 959 130) = 2) := by decide +kernel

/-! ### Charts and transactions -/

/-- An image of no partitions: 14 FABRIC and 384 ISLANDS entries, the other required sections empty. sig: digest of the key, signer. -/
def image (flags id base : Nat) (sig : List Byte) : List Byte :=
  let sect (t n o l : Nat) : List Byte := entry 32 [(0, 2, t), (2, 1, 1), (4, 4, n), (8, 8, o), (16, 8, l)]
  entry 256 [(0, 8, imMagic), (8, 2, 1), (12, 2, 0x6160), (14, 1, 1), (15, 1, flags), (16, 8, 3776), (24, 8, 256), (32, 4, 6), (40, 8, id), (48, 8, base)] ++
    (sect 1 0 0 0 ++ (sect 2 0 0 0 ++ (sect 3 0 0 0 ++ (sect 4 14 448 112 ++ (sect 5 384 576 3072 ++ (sect 6 0 0 0 ++
      ((List.range 14).flatMap (fun i => entry 8 [(0, 1, i), (1, 1, 64)]) ++ (List.replicate 3088 0 ++ sig))))))))
/-- The owner's key and its trailer. -/
def oKey : List Byte := List.replicate 64 1
def oSig : List Byte := digestBytes (sm3 oKey) ++ List.replicate 96 0
/-- The trailer that names a maker slot of digest 0. -/
def mSig : List Byte := List.replicate 96 0 ++ [1] ++ List.replicate 31 0
/-- Flash and fuses of a DEPLOYED module whose chart 1 has a current copy in bank A and an older one in bank B, a copy that
the owner has not signed. -/
def nvOwned : Nv :=
  let n : Nv := { State.reset.nv with trans := [(1, true), (2, true)], owners := [(sm3 oKey, false)], bankA := State.reset.nv.bankA.withOwnerKey oKey }
  (n.setSlot 0 1 mSig [commitRecord 1 0 3 128 77 0]).setSlot 1 1 mSig [commitRecord 1 1 2 128 77 0]
/-- DEPLOYED and READY; a chart command of op in progress on chart 1. -/
def deployed : Mach := put ready [(R.SEC_LC_STATE, [], 2)]
def charting (op : Nat) (b : List Byte := image 0 77 0 oSig) : Mach :=
  put { deployed with conf := { deployed.conf with chartOp := some ⟨op, 1, false⟩, chartImage := b } } [(R.CFG_CHART_STATUS_BUSY, [], 1)]
/-- A running configuration of 14 FABRIC and 384 ISLANDS entries, DEPLOYED. -/
def fabric : Mach :=
  let c := { deployed.conf.cfg with fabric := (List.range 14).map (fun i => entry 8 [(0, 1, i), (1, 1, 64)]), islands := List.replicate 384 (entry 8 []), types := [1, 2, 3, 4, 5, 6] }
  { deployed with conf := { deployed.conf with cfg := c } }
/-- The provider's transaction in a state, holding the writes l. -/
def txn (state : Nat) (l : List (Word × Word)) (f : Txn → Txn) : Mach :=
  put (fabric.setTxn 0 (f { fabric.txn 0 with writes := l })) [(R.CFG_TXN_STATUS_STATE, [0], state), (R.CFG_TXN_WADDR_SETTING, [0], 4 * 2 ^ 48)]
/-- A held write that keeps the weights of FABRIC entry 0 at 64. -/
def wFab : List (Word × Word) := [(BitVec.ofNat 64 (4 * 2 ^ 48), BitVec.ofNat 64 (32 * 2 ^ 16 + 32 * 2 ^ 8))]
def txHeld : Mach := put { txn 3 wFab (fun t => { t with valid := true, limit := 5 }) with now := 9 } [(R.CFG_TXN_STATUS_HOLDING, [0], 1)]

theorem test_image_layout_passes : layoutCheck (image 0 77 0 mSig) = none ∧ versionCheck (image 0 77 0 mSig) = none := by decide +kernel
/-- An image with a bad magic number is refused. -/
theorem test_bad_magic_is_refused : deployed.imageCheck 0 false (0 :: (image 0 77 0 mSig).tail) = some (imgFail rcBadMagic) := by decide +kernel
/-- The clauses on an image have their hypotheses wherever its signature verifies, for which Config.sm2Verify gives no value: for them this
shows what remains to be met. -/
theorem witness_ChartCommands :
    (deployed.running = true ∧ deployed.fld R.CFG_CHART_STATUS_BUSY [] = 0 ∧ deployed.fld R.SEC_LC_STATE [] = 2 ∧ deployed.conf.chartOp = none ∧
      deployed.fld R.SHT_STATUS_STATE [] = 0) ∧
    (charting 3).fld R.CFG_CHART_STATUS_BUSY [] = 1 ∧ ready.fld R.SEC_LC_STATE [] ≠ 2 ∧
    (∀ op ∈ [1, 2, 3, 4], (charting op).running = true ∧ (charting op).conf.chartOp = some ⟨op, 1, false⟩ ∧ (charting op).allIdle = true) ∧
    (∀ n : Nv, n.ownerCheck (charting 2).conf.chartImage (fun _ => false) = rcOk → (charting 2).imageCheck n.imgFloor false (charting 2).conf.chartImage = none →
      (charting 2).loadCheck n (charting 2).conf.chartImage none = none) ∧
    (∀ n : Nv, n.owners = [] → ∀ b r, (charting 1).loadCheck n b r = some (imgFail rcKeyMismatch)) ∧ (charting 2 mSig).conf.chartImage.length ≤ slotMax := by
  iterate 4 refine And.intro (by decide +kernel) ?_
  refine ⟨fun n h e => ?_, fun n h b r => ?_, by decide +kernel⟩
  · simp only [Mach.loadCheck]
    rw [if_pos h, e]
  · have e : ∀ f, n.ownerCheck b f = rcKeyMismatch := fun f => by simp [Nv.ownerCheck, Nv.ownerDigest, h]
    simp only [Mach.loadCheck, e]
    rw [if_neg (by decide)]
/-- Of two copies the one with the greater generation, in bank A, is current. -/
theorem current_newer {n : Nv} {c g h i j k l d e : Nat} (a : n.commitOf 0 c = some (commitRecord c 0 g i j d)) (b : n.commitOf 1 c = some (commitRecord c 1 h k l e))
    (hg : g < 2 ^ 32) (hh : h < 2 ^ 32) (o : h < g) : n.current c = some 0 := by
  simp only [Nv.current, a, b]
  rw [Laws.commitGen_commitRecord hg, Laws.commitGen_commitRecord hh, if_neg (by omega)]
/-- Flash with a current copy of chart 1 in bank A and an older one in bank B, with and without an owner. -/
theorem witness_ChartCommands_flash (l : List (Nat × Bool)) :
    { nvOwned with owners := l }.current 1 = some 0 ∧ { nvOwned with owners := l }.commitOf 1 1 = some (commitRecord 1 1 2 128 77 0) := by
  have a : { nvOwned with owners := l }.commitOf 0 1 = some (commitRecord 1 0 3 128 77 0) := Laws.commitOf_single (by decide) (by decide) rfl
  have b : { nvOwned with owners := l }.commitOf 1 1 = some (commitRecord 1 1 2 128 77 0) := Laws.commitOf_single (by decide) (by decide) rfl
  exact ⟨current_newer a b (by decide) (by decide) (by decide), b⟩
theorem nvOwned_key : nvOwned.ownerKey = some oKey ∧ nvOwned.ownerDigest = some (sm3 oKey) := by
  have k : nvOwned.bankA.ownerKey = oKey ∧ nvOwned.bankA.ownerCrc = crc32 oKey ∧ nvOwned.ownerDigest = some (sm3 oKey) := ⟨rfl, rfl, rfl⟩
  have e : (nvOwned.bankA.ownerKey.length == 64 && crc32 nvOwned.bankA.ownerKey == nvOwned.bankA.ownerCrc && sm3 nvOwned.bankA.ownerKey == sm3 oKey) = true := by
    rw [k.1, k.2.1, show oKey.length = 64 from List.length_replicate .., beq_self_eq_true, beq_self_eq_true, beq_self_eq_true]
    rfl
  refine ⟨?_, k.2.2⟩
  unfold Nv.ownerKey
  rw [k.2.2, Option.bind_some, List.find?_cons_of_pos (p := fun b : Bank => b.ownerKey.length == 64 && crc32 b.ownerKey == b.ownerCrc && sm3 b.ownerKey == sm3 oKey) e,
    Option.map_some, k.1]
theorem witness_BootPhases_factory :
    (booting 4).fld R.PRT_STATUS_PHASE [] = 4 ∧ ∀ n : Nv, n.makerCheck n.factory = rcOk → (booting 4).imageCheck 0 true n.factory = none → (booting 4).factoryCheck n = none := by
  refine ⟨by decide +kernel, fun n h e => ?_⟩
  simp only [Mach.factoryCheck]
  rw [if_pos h, e]
theorem witness_BootPhases_chart (n : Nv) (b : List Byte) (h : n.ownerCheck b (fun _ => false) = rcOk) (e : (booting 4).imageCheck n.imgFloor false b = none) :
    (booting 4).loadCheck n b none = none := by
  simp only [Mach.loadCheck]
  rw [if_pos h, e]
/-- A register that no entry of the file lists reads 0 in every field. -/
theorem fld_unlisted (m : Mach) (f : Fld) (ix : List Nat) (h : ∀ e ∈ m.regs, e.1 ≠ f.addr ix) : m.fld f ix = 0 := by
  have g : ∀ t : Regs, (∀ e ∈ t, e.1 ≠ f.addr ix) → Tbl.get 0 t (f.addr ix) = 0 := by
    intro t
    induction t with
    | nil => intro _; rfl
    | cons e t ih =>
      intro h
      rw [Tbl.get, if_neg (fun c => h e (by simp) c.symm)]
      exact ih (fun x hx => h x (by simp [hx]))
  simp only [Mach.fld, Regs.fld, Regs.word, g _ h, wordField]
  simp [Laws.bits_eq]
/-- A configuration of islands and fabric alone passes the checks of content where no pane is present. -/
theorem contentCheck_bare (m : Mach) (c : Cfg) (ix : Nat → Nat) (req : Nat × Nat × Nat) (h : ∀ q, m.panePresent q = false)
    (e : c.stageMap = [] ∧ c.partitions = [] ∧ c.code = [] ∧ c.routes = [] ∧ c.conduit = [] ∧ c.schedule = []) (r : req = (0, 0, 0)) : m.contentCheck c ix req = none := by
  have f : ∀ (l : List (List Byte)) (k : Nat), ((l.zipIdx k).find? (fun _ => false)) = none := fun l k => by simp
  have g : m.reqCheck (0, 0, 0) = none := by simp [Mach.reqCheck]
  unfold Mach.contentCheck
  simp only [failEntry, h, e.1, e.2.1, e.2.2.1, e.2.2.2.1, e.2.2.2.2.1, e.2.2.2.2.2, r, g, Bool.false_and, f, List.zipIdx_nil, List.find?_nil, Option.map_none,
    List.findSome?_cons, List.findSome?_nil]
/-- No pane is present where the file lists no word of the panes' block. -/
theorem panes_absent (m : Mach) (h : ∀ e ∈ m.regs, e.1 < 0x2000000 ∨ 0x2000000 + 384 * 0x10000 ≤ e.1) (q : Nat) : m.panePresent q = false := by
  unfold Mach.panePresent
  by_cases d : q < 384
  · have g : m.fld R.PNE_ID_PRESENT [q] = 0 := by
      apply fld_unlisted
      intro e he
      have := h e he
      simp only [Fld.addr, R.PNE_ID_PRESENT, List.zip_cons_cons, List.zip_nil_right, List.map_cons, List.map_nil, List.sum_cons, List.sum_nil]
      omega
    simp [Mach.flag, g]
  · simp [d]
/-- What R225 checks of the target configuration r beside its content holds, and no partition is affected. -/
def bareTarget (m : Mach) (r : Cfg × Touched) : Prop :=
  (r.1.stageMap = [] ∧ r.1.partitions = [] ∧ r.1.code = [] ∧ r.1.routes = [] ∧ r.1.conduit = [] ∧ r.1.schedule = []) ∧
  (r.2.find? (fun x => !imgEntryOk x.1 ((r.1.sect x.1).getD x.2 [])) = none ∧ r.1.fabric.length = 14 ∧ r.1.islands.length = 384) ∧
  ((List.range 32).map (fun i => i + 1)).filter (fun p => !m.partIdle p) = [] ∧ (m.conf.cfg.scopes r.1 r.2).filter (fun p => p != 0) = []
theorem validates_bare (m : Mach) (o : Nat) (h : ∀ q, m.panePresent q = false) (r : Cfg × Touched) (t : m.txTarget o = .ok r) (b : bareTarget m r)
    (d : (m.txn o).delta = none) (q : m.conf.req = (0, 0, 0)) : (m.txValidate o).toOption = some [] := by
  have a : m.conf.cfg.allInScope r.1 o [] = true := by simp [Cfg.allInScope]
  have e : m.txReq o = (0, 0, 0) := by simp only [Mach.txReq, d, q]
  have g : m.txScopes o = [] := by simp only [Mach.txScopes, t, b.2.2.2]
  unfold Mach.txValidate
  rw [t]
  simp only [d, Option.map_none, Option.getD_none, a, b.2.1.1, b.2.1.2.1, b.2.1.2.2, contentCheck_bare m r.1 _ _ h b.1 e, b.2.2.1, g, List.any_nil]
  rfl
theorem wFab_validates : ((txn 3 wFab id).txValidate 0).toOption = some [] := by
  cases t : (txn 3 wFab id).txTarget 0 with
  | error e =>
    have : ((txn 3 wFab id).txTarget 0).isOk = true := by decide +kernel
    rw [t] at this
    exact absurd this (by simp [Except.isOk, Except.toBool])
  | ok r =>
    refine validates_bare _ _ (panes_absent _ (by decide +kernel)) r t ?_ (by decide +kernel) (by decide +kernel)
    have : ∀ x ∈ ((txn 3 wFab id).txTarget 0).toOption, bareTarget (txn 3 wFab id) x := by unfold bareTarget; decide +kernel
    exact this r (by rw [t]; rfl)
theorem witness_TransactionStates :
    fabric.accepts = true ∧ fabric.fld R.CFG_TXN_STATUS_STATE [0] = 0 ∧
    ((txn 1 [] id).accepts = true ∧ (txn 1 [] id).fld R.CFG_TXN_STATUS_STATE [0] = 1 ∧ ((txn 1 [] id).txn 0).delta = none ∧
      (txn 1 [] id).conf.cfg.settingOk (BitVec.ofNat 64 (4 * 2 ^ 48)) = true ∧
      (let a := BitVec.ofNat 64 (4 * 2 ^ 48); let c := (txn 1 [] id).conf.cfg; c.allInScope (c.applyWrite (a, 0)) 0 [(saType a, saIndex a)] = true) ∧ (txn 1 [] id).fld R.SEC_LC_STATE [] = 2 ∧ ((txn 1 [] id).txn 0).writes = [] ∧
      (txn 1 wFab id).fld R.CFG_TXN_STATUS_STATE [0] = 1 ∧ ((txn 1 wFab id).txn 0).writes ≠ [] ∧ (txn 1 wFab id).fld R.SEC_LC_STATE [] = 2) ∧
    (fabric.conf.cfg.settingOk (BitVec.ofNat 64 (4 * 2 ^ 48 + 14 * 2 ^ 24)) = false ∧ fabric.conf.cfg.settingOk (BitVec.ofNat 64 (4 * 2 ^ 48 + 13 * 2 ^ 24)) = true) ∧
    ((txn 2 [] id).fld R.CFG_TXN_STATUS_STATE [0] = 2 ∧ (txn 2 [] id).poisonedAt ((txn 2 [] id).deltaKey 0) 0 = false ∧
      ((txn 2 [] id).deltaCheck nvOwned 0 [1]).isOk = false) ∧
    ((txn 3 wFab id).fld R.CFG_TXN_STATUS_STATE [0] = 3 ∧ (txn 3 wFab id).txConflict 0 = false ∧ (txn 3 wFab (fun t => { t with epochs := [(0, 5)] })).txConflict 0 = true ∧
      ((txn 3 wFab id).txValidate 0).toOption = some [] ∧ ((txn 3 [(BitVec.ofNat 64 (3 * 2 ^ 48), 1)] id).txValidate 0).toOption = none) ∧
    ((txHeld.txn 0).valid = true ∧ txHeld.fld R.CFG_TXN_STATUS_HOLDING [0] = 1 ∧ (txHeld.txn 0).holdAt + (txHeld.txn 0).limit < txHeld.now) ∧
    (let u := (txn 3 wFab (fun t => { t with valid := true })).txReach 0
     u.txReady 0 = true ∧ (∀ q ∈ List.range 33, q ≠ 0 → u.txReady q = false) ∧ u.txConflict 0 = false ∧ (u.txTarget 0).isOk = true) := by
  iterate 5 refine And.intro (by decide +kernel) ?_
  refine ⟨⟨by decide +kernel, by decide +kernel, by decide +kernel, wFab_validates, by decide +kernel⟩,
    by decide +kernel, by decide +kernel⟩

/-! ### Host -/

/-- Hatch 0 of partition 1 with contents f, TARGET on pane 1. -/
def hat (f : Hatch → Hatch) (l : List (Fld × List Nat × Nat)) : Mach :=
  put (one.setHatch 1 0 (f (one.hatch 1 0))) ((R.HTC_TARGET_PANE, [1, 0], 1) :: l)
/-- Enabled, with sequence number 5 next. -/
def hatOn (f : Hatch → Hatch) : Mach := hat f [(R.HTC_TARGET_ENABLE, [1, 0], 1), (R.HTC_CREDIT_NEXT, [1, 0], 5)]
/-- The oldest descriptor, number 4, is a copy or a launch of stage 3. -/
def hatGo (w1 w5 : Nat) : Mach :=
  let m := hatOn (fun x => { x with disp := 4, slots := [(33, BitVec.ofNat 64 w1), (37, BitVec.ofNat 64 w5)], isSealed := [(4, 4)] })
  { m with conf := { m.conf with cfg := { m.conf.cfg with stageMap := [entry 64 [(0, 2, 3), (2, 1, 1), (5, 1, 1), (8, 1, 3)]] } } }
def hatFull : Mach := withPane (hatGo (2 * 2 ^ 60) 0) 1 (fun p => { p with cq := List.replicate 64 cpCmd })
/-- A coalesced completion that waits. -/
def hatWait : Mach := { hat (fun x => { x with unannounced := 1, since := 0 }) [(R.HTC_CHEAD_HEAD, [1, 0], 9)] with now := 7 }
/-- A copy from host memory in flight on pane 0. -/
def mDma : Mach := eng (fun p => { p with cruns := [Run.fresh { cpCmd with a := some (ad 8 4096), src := .hatch 1 0 0 } 10 [] 0 false] })
/-- A request of the MCTP endpoint. -/
def mcReq (bad : Bool) : McMsg := { medium := 2, eid := 9, smb := 3, kind := 1, malformed := bad, bytes := [1], takes := 5 }

theorem witness_UnoccupiedOffsetReadsZero :
    one.hostUp = true ∧ pfSpot (8 - 8 % 8) = .reg 8 ∧ pfSpot 0xFFFF8 = .none ∧ pfSpot (2 ^ 28) = .none ∧ inContract 0xFFFF8 8 = true ∧ one.errs.rates = [] ∧
    2 ^ 28 < bar4 := by
  decide +kernel
theorem witness_RegisterWritesFollowTheAccessType :
    let a := R.CFG_CHART_ADDR_ADDR.addr []
    one.hostUp = true ∧ pfSpot a = .reg a ∧ (regAt a).isSome = true ∧ one.takes (.reg a) = true ∧
    (∀ r, regAt a = some r → (r.fields.all (fun f => f.acc != .wo && !ownAction r f.lo)) = true) ∧
    { one with regs := one.regs.setFld R.ERR_MSTATE_STATE [] 1 }.fld R.ERR_MSTATE_STATE [] = 1 := by decide +kernel
/-- No completion is held for a ring. -/
theorem witness_RegisterWritesFollowTheAccessType_rings : ∀ p h : Nat, (one.hatch p h).holding = [] := fun _ _ => rfl
theorem witness_CommandRegistersActAsTheirRows :
    one.hostUp = true ∧ ∀ x ∈ [(R.CFG_CHART_CMD_OP, []), (R.PTN_PCMD_OP, [32]), (R.LVR_CCMD_OP, [63]), (R.MRD_LCMD_OP, [9]), (R.COL_TCMD_OP, [1]), (R.SRV_TCMD_OP, [32]),
      (R.SHT_CMD_OP, []), (R.SEC_CMD_OP, []), (R.PRT_MARGIN_CMD_OP, [])], one.takes (.reg (Fld.addr x.1 x.2)) = true := by decide +kernel
theorem witness_ReadsThatClear :
    let a := R.PRT_HOSTERR_UNMAPPED.addr [1]
    one.hostUp = true ∧ pfSpot a = .reg a ∧ (regAt a).isSome = true ∧ one.answers (.reg a) = true ∧ a ≠ R.GRT_NOW_TIME.addr [] ∧ spaceEight a = false := by decide +kernel
theorem witness_HostTrafficOutsideTheContract :
    one.hostUp = true ∧ inContract 4 8 = false ∧ inContract 8 2 = false ∧ 3 ≤ (phase 3).fld R.PRT_STATUS_PHASE [] ∧ (phase 3).host.mctpTimes = [] ∧
    Tbl.get 0 (phase 3).host.mctpBusy (2 * 256 + 9) ≤ (phase 3).now ∧ mctpServed (mcReq false) false = true ∧ pfSpot (8 - 8 % 8) = .reg 8 ∧ pfSpot 0xFFFF8 = .none ∧
    one.accepts = true ∧ one.viewer 0 1 = some 1 ∧ one.spotOf 1 0x40044 = .window 4 0x40 ∧ (one.adm 1).isSealed = [] := by decide +kernel
theorem witness_HatchSealing :
    (hatOn id).accepts = true ∧ (hatOn id).conf.cfg.part 1 = some part1 ∧
    ((hatOn id).fld R.HTC_TARGET_ENABLE [1, 0] = 1 ∧ (hatOn id).pstate 1 ≠ psTornDown ∧ seqGe 5 (((hatOn id).hatch 1 0).disp + 1024) = false ∧
      seqGe 1024 (((hatOn id).hatch 1 0).disp + 1024) = true ∧ (hatOn id).fld R.HTC_CREDIT_NEXT [1, 0] = 5 ∧ ((hatOn id).hatch 1 0).isSealed = []) ∧
    ((hatOn (fun x => { x with isSealed := [(4, 4)] })).hatch 1 0).isSealed = [(4, 4)] ∧ (hat id []).fld R.HTC_TARGET_ENABLE [1, 0] = 0 ∧
    (hat id []).fld R.HTC_CREDIT_OCCUPIED [1, 0] = 0 ∧ (hat id []).conf.cfg.panes 1 = [0, 1] ∧ (hat id [(R.HTC_CREDIT_OCCUPIED, [1, 0], 1)]).fld R.HTC_CREDIT_OCCUPIED [1, 0] ≠ 0 := by
  decide +kernel
theorem witness_HatchDispatchAndRings :
    (let m := hatGo (2 * 2 ^ 60) 0
     m.hatchOpen 1 0 = true ∧ m.fld R.HTC_TARGET_ENABLE [1, 0] = 1 ∧ (m.hatch 1 0).disp ≠ m.fld R.HTC_CREDIT_NEXT [1, 0] ∧ (m.hatch 1 0).holding.length + (m.hatch 1 0).fresh.length < 256 ∧
     m.hatchYields 1 0 1 .copy = false ∧ (put m [(R.PNE_STREAM_STATE, [1, 0], ssWait), (R.PNE_STREAM_WAIT_ON, [1, 0], 4)]).hatchYields 1 0 1 .copy = true ∧
     engineOf (Desc.ofSlots (m.hatch 1 0).slots 4).kind = some .copy ∧ m.fld R.HTC_TARGET_PANE [1, 0] = 1) ∧
    (queueSize .copy ≤ ((hatFull.pane 1).queue .copy).length ∧ (put hatFull [(R.HTC_TARGET_PANE, [1, 0], 5)]).fld R.HTC_TARGET_PANE [1, 0] ∉ hatFull.conf.cfg.panes 1) ∧
    (let m := hatGo (3 * 2 ^ 60) (3 * 2 ^ 36)
     engineOf (Desc.ofSlots (m.hatch 1 0).slots 4).kind = none ∧ m.launchOk 1 (Desc.ofSlots (m.hatch 1 0).slots 4) = true) ∧
    (hatWait.accepts = true ∧ hatWait.hostUp = true ∧ hatWait.fld R.HTC_CTAIL_TAIL [1, 0] = 0 ∧ hatWait.fld R.HTC_CHEAD_HEAD [1, 0] = 9 ∧
      (hatWait.hatch 1 0).unannounced ≠ 0 ∧ (hatWait.hatch 1 0).since + hatWait.fld R.HTC_CRCFG_COALESCE_US [1, 0] * 1000 ≤ hatWait.now ∧
      (hatWait.msixVec 0 1 0).masked = true ∧
      ({ hatWait with host := { hatWait.host with msix := [(msixKey 0 1 0, ⟨0, 0, false, false⟩)] } }.msixVec 0 1 0).masked = false) ∧
    (mDma.running = true ∧ mDma.paneOwner 0 = 1 ∧ (mDma.pane 0).cruns.length = 1 ∧ (mDma.pane 0).cruns.map (fun r => r.cmd.a.map adSpace) = [some 8] ∧
      (mDma.pane 0).cruns.map (fun r => (mDma.copyPlan 0 r.cmd).isOk) = [true]) := by decide +kernel
theorem witness_FunctionAndPortResets :
    one.accepts = true ∧ one.conf.cfg.vfPart 0 1 = 1 ∧ one.portParts 0 = [1] ∧ (∀ q ∈ one.conf.cfg.panes 1, (one.pane q).cruns = []) ∧ one.fetchesOf 1 = [] ∧
    one.ovlFetchesOf 1 = [] ∧ one.exporting 1 = false ∧ one.fld R.CKP_CTL_DEST [1] ≠ 1 := by decide +kernel

/-! ### Conduits -/

/-- Conduit 0 of partition 1 between the two halves of die 0 over route 2, with one tap and 1 MiB of queue; route 3 is its return to pane 1,
route 4 brings frames from pane 0; r: the ends of route 2. -/
def cdCfg (src dst : Nat) (m : Mach) : Mach :=
  let c := { m.conf.cfg with
    routes := [entry 32 [(0, 2, 2), (2, 1, 1), (3, 1, 1), (4, 2, src), (6, 2, dst)], entry 32 [(0, 2, 3), (2, 1, 1), (3, 1, 1), (4, 2, 4096), (6, 2, 1)],
      entry 32 [(0, 2, 4), (3, 1, 1), (6, 2, 4096)]],
    conduit := [entry 32 [(1, 1, 1), (6, 2, 2), (9, 1, 1), (10, 2, 1), (16, 2, 2)]] }
  put { m with conf := { m.conf with cfg := c } }
    [(R.LVR_CCTL_K, [0], 4), (R.LVR_CCTL_VOCAB, [0], 8), (R.LVR_CCTL_TEMP, [0], 0x100), (R.LVR_TAP_ENABLE, [0, 0], 1), (R.LVR_TAP_SLOTS, [0, 0], 2),
      (R.LVR_TAP_SLOT_KIB, [0, 0], 1), (R.LVR_TAP_ROUTE, [0, 0], 3)]
/-- The conduit in a state, with contents f and further register fields. -/
def cdt (state : Nat) (f : Cond → Cond) (l : List (Fld × List Nat × Nat)) : Mach :=
  let m := cdCfg 4096 4096 (eng id)
  put (m.setCond 0 (f { m.cond 0 with k := 4, limit := 2, temp := 0x100 })) ((R.LVR_CSTATE_STATE, [0], state) :: (R.LVR_CSTATE_CREDITS, [0], 2) :: l)
/-- A conduit whose emit half (h = 0) or loss half is here, its peer behind link 3 on module 9, with contents f and further fields. -/
def cdRem (h state : Nat) (f : Cond → Cond := id) (l : List (Fld × List Nat × Nat) := []) : Mach :=
  let m := if h = 0 then cdCfg 4096 (5 * 4096 + 3) (eng id) else cdCfg (5 * 4096 + 3) 4096 (eng id)
  put (m.setCond 0 (f { m.cond 0 with k := 4, limit := 2, openedAt := 0 }))
    ([(R.LVR_CSTATE_STATE, [0], state), (R.LVR_CREMOTE_REMOTE, [0], 1), (R.LVR_CREMOTE_PEER_MODULE, [0], 9), (R.COL_CJOB_JOB, [1], 7)] ++ l)
/-- Link 3 carries traffic; the partition is PAUSED. -/
def link3Up : List (Fld × List Nat × Nat) := [(R.MRD_LSTATE_STATE, [3], lkUp)]
def paused1 : List (Fld × List Nat × Nat) := [(R.PTN_PSTATE_STATE, [1], psPaused)]
/-- What a peer answers: 8 elements of vocabulary, so many taps and credits, and a capacity. -/
def reply (taps credits capacity : Nat) : PeerReply := { accept := true, k := 4, temp := 0x100, nf := false, credits := credits, vocab := 8, taps := taps, capacity := capacity, ask := false }
/-- A frame of a type for tap 0 of conduit 0 with n values, alone on route 4. -/
def frame (ty n : Nat) : Xfer :=
  { pane := 0, queue := 2, src := .core 0 0, sealNo := 0, offset := 0, more := false, poisoned := false, tags := [], retries := [], part := 1,
    bytes := entry 192 [(0, 4, 6), (20, 4, n), (26, 2, 1), (30, 1, ty), (32, 2, 3), (34, 2, 1), (64, 4, 0x3F800000), (68, 2, 0x2002)] }
def framed (m : Mach) (x : Xfer) : Mach := m.setXfers 4 [x]
/-- A complete row of step 6, and a record of the same row. -/
def row0 : LRow := { step := 6, seqId := 0, pos := 0, shards := 1, got := [shardOf (frame 1 8).bytes false] }
def rec0 (step : Nat) : Machine.Rec := ⟨entry 64 [(0, 4, step)], false⟩
/-- An OPEN local conduit with contents f, or with n queued records. -/
def cdo (f : Cond → Cond) : Mach := cdt 2 f []
def cdq (n : Nat) (f : Cond → Cond) : Mach := cdt 2 f [(R.LVR_CSTATE_QUEUED, [0], n)]
/-- Route 2 over edge 0, whose direction has failed, with a record on its way. -/
def cdDead : Mach :=
  let m := cdo (fun x => { x with flight := [rec0 6] })
  ({ m with conf := { m.conf with cfg := { m.conf.cfg with
    routes := entry 32 [(0, 2, 2), (2, 1, 1), (3, 1, 1), (4, 2, 4096), (6, 2, 4096), (8, 1, 1)] :: m.conf.cfg.routes.drop 1 } } }).setDirWidth 0 2
theorem reaches {m : Mach} {rt ty die c sg : Nat} {x : Xfer}
    (h : m.frameAt rt = some (die, m.cdPart c, x) ∧ x.pane < 384 ∧ x.more = false ∧ m.tokenFull (m.cdPart c) x = false ∧
      (∀ e ∈ m.conf.cfg.route rt, m.routeTested e = false ∧ m.routeDead e = false) ∧ leAt x.bytes 30 1 = ty ∧ leAt x.bytes 28 1 = c ∧ c < 64 ∧
      m.cdFrozen c = false ∧ m.core.stopped.contains (isl 1 die) = false ∧ m.cdState c = sg) : FrameReaches m rt ty die c sg x := h
theorem louvresOk {m : Mach} (h : ∀ e ∈ m.conf.cfg.conduit, ∀ r ∈ m.conf.cfg.route (leAt e 6 2),
    (routeSrc r / 4096 = 1 → routeSrc r % 4096 < 10) ∧ (routeDst r / 4096 = 1 → routeDst r % 4096 < 10)) : LouvresOk m := by
  intro c d hd
  unfold Mach.cdEmit Mach.cdLoss Mach.cdRoute at hd
  cases hc : m.conf.cfg.conduitOf c with
  | none => simp [hc] at hd
  | some e =>
    cases hr : m.conf.cfg.route (leAt e 6 2) with
    | none => simp [hc, hr] at hd
    | some r =>
      have g := h e (List.mem_of_find?_eq_some hc) r hr
      simp only [hc, hr, Option.bind_some] at hd
      rcases hd with hd | hd <;> split at hd <;> simp only [Option.some.injEq, reduceCtorEq] at hd
      · exact hd ▸ g.1 ‹_›
      · exact hd ▸ g.2 ‹_›
theorem put_conf (m : Mach) (l : List (Fld × List Nat × Nat)) : (put m l).conf = m.conf := by
  induction l generalizing m with
  | nil => rfl
  | cons a l ih => exact ih _
theorem cdt_louvres (n : Nat) (f : Cond → Cond) (l : List (Fld × List Nat × Nat)) : LouvresOk (cdt n f l) := by
  refine louvresOk ?_
  rw [show (cdt n f l).conf.cfg = (cdt 0 id []).conf.cfg by unfold cdt; simp only [put_conf]; rfl]
  decide +kernel
theorem cdRem_louvres (h : Fin 2) (n : Nat) (f : Cond → Cond) (l : List (Fld × List Nat × Nat)) : LouvresOk (cdRem h n f l) := by
  refine louvresOk ?_
  rw [show (cdRem h n f l).conf.cfg = (cdRem h 0 id []).conf.cfg by unfold cdRem; simp only [put_conf]; split <;> rfl]
  revert h
  decide +kernel

/-- A command of partition 1 in flight, which keeps its step open. -/
def busyPart (m : Mach) : Mach := withPane m 0 (fun p => { p with mrun := some mxRun })

theorem witness_ConduitControl :
    LouvresOk (cdt 0 id []) ∧ LouvresOk (cdRem 0 0) ∧ LouvresOk (cdRem 1 0) ∧ (cdt 0 id []).accepts = true ∧
    ((cdt 0 id []).cdState 0 = cdClosed ∧ (cdt 0 id []).cdCheck 0 = 0 ∧ (cdt 0 id []).cdRemote 0 = false ∧ (cdt 0 id [(R.LVR_CCTL_K, [0], 0)]).cdCheck 0 ≠ 0) ∧
    ((cdRem 0 0).cdState 0 = cdClosed ∧ (cdRem 0 0).cdCheck 0 = 0 ∧ (cdRem 0 0).cdRemote 0 = true) ∧
    ((cdo id).cdState 0 = cdOpen ∧ (cdo id).cond 0 = { Cond.init with k := 4, limit := 2, temp := 0x100 } ∧ (cdo id).fld R.LVR_CSTATE_CREDITS [0] = 2 ∧
      (cdo id).fld R.LVR_CSTATE_QUEUED [0] = 0 ∧ (cdo id).cdInFlight 0 0 = false ∧ (cdo id).cdInFlight 0 1 = false ∧
      (cdt 2 id [(R.LVR_CSTATE_CREDITS, [0], 1)]).fld R.LVR_CSTATE_CREDITS [0] ≠ 2) ∧
    ((cdt 4 id []).cdState 0 ∈ [cdOpen, cdDraining, cdHalted] ∧ (cdt 4 id []).anyStarted 1 = false ∧ (busyPart (cdt 4 id [])).anyStarted 1 = true ∧
      ∀ d < 64, ((cdt 4 id []).cond d).resetReq = false) ∧
    ((cdRem 0 1).cdState 0 = cdOpening ∧ (cdRem 0 1).cdEmit 0 = some 0 ∧ (cdRem 1 1).cdEmit 0 = none ∧ 10000000 ≤ { cdRem 0 1 with now := 10000000 }.now ∧
      (cdRem 0 1).cdFrozen 0 = false ∧ (cdRem 0 1 id paused1).cdFrozen 0 = true ∧ (cdRem 0 1).fld R.LVR_CCTL_VOCAB [0] = 8 ∧ (cdRem 0 1).cdTapCount 0 = 1 ∧
      (cdRem 0 1).cdCredits 0 * slotBytes ((cdRem 0 1).fld R.LVR_CCTL_K [0]) ≤ (reply 1 2 65536).capacity ∧ (reply 1 2 1).capacity < 2 * slotBytes 4 ∧ (reply 0 2 65536).taps ≠ 1 ∧
      2 * slotBytes 4 ≤ (cdRem 1 1).cdRoom 0) ∧
    ((cdRem 0 2).cdState 0 = cdOpen ∧ (cdRem 0 2).cdLink 0 = some 3 ∧ (cdRem 0 2).linkUp 3 = false ∧ (cdRem 0 2 id link3Up).linkUp 3 = true ∧
      ({ cdRem 0 2 (fun x => { x with downs := 1 }) link3Up with mrd := one.mrd }.link 3).downs ≠ ((cdRem 0 2 (fun x => { x with downs := 1 }) link3Up).cond 0).downs) ∧
    ((cdt 4 id []).cdFrozen 0 = false ∧ (cdt 4 id paused1).cdFrozen 0 = true) ∧
    ((cdRem 0 0).cdAgrees 0 { reply 1 2 65536 with ask := true } = true ∧ (cdRem 0 0).cdAgrees 0 { reply 0 2 65536 with ask := true } = false) := by
  refine ⟨cdt_louvres _ _ _, cdRem_louvres 0 _ _ _, cdRem_louvres 1 _ _ _, ?_⟩
  decide +kernel
theorem witness_ConduitRows :
    FrameReaches (framed (cdo id) (frame 0 8)) 4 0 0 0 cdOpen (frame 0 8) ∧ FrameReaches (framed (cdt 3 id []) (frame 0 8)) 4 0 0 0 cdDraining (frame 0 8) ∧
    FrameReaches (framed (cdt 3 id []) (frame 1 8)) 4 1 0 0 cdDraining (frame 1 8) ∧
    FrameReaches (framed (cdo (fun x => { x with rbuf := [rec0 7] })) (frame 1 8)) 4 1 0 0 cdOpen (frame 1 8) ∧
    ((cdo id).cdEmit 0 = some 0 ∧ (cdo id).cdLoss 0 = some 0 ∧ (cdo id).retOk 0 0 (frame 1 8).bytes = true ∧ (cdo id).cdSlots true 0 8 = 4 ∧ (cdo id).cdSlots false 0 8 = 4) ∧
    ((∃ rows, placeShard [] 0 4 8 false (frame 0 8).bytes false = .joins rows ∧ rows.head? = some row0) ∧ placeShard [] 4 4 8 false (frame 0 8).bytes false = .waits ∧
      placeShard [] 0 4 8 true (frame 0 8).bytes false = .discarded ∧ placeShard [] 0 4 8 false (frame 0 9).bytes false = .invalid) ∧
    ((cdo id).cdRuns 0 = true ∧ row0.complete = true ∧ (cdo id).cdCanSend 0 = true ∧ (cdo (fun x => { x with trows := [row0] })).fld R.LVR_CSTATE_CREDITS [0] = 2 ∧
      (cdt 2 (fun x => { x with trows := [row0] }) [(R.LVR_CSTATE_CREDITS, [0], 0)]).fld R.LVR_CSTATE_CREDITS [0] = 0 ∧
      ((cdRem 0 2 id link3Up).cdCanSend 0 = true ∧ (cdRem 0 2).cdCanSend 0 = false)) ∧
    ((rec0 6).pairs row0 = true ∧ (rec0 7).pairs row0 = false) ∧
    (((cdo (fun x => { x with flight := [rec0 6] })).cdRoute 0).isSome = true ∧ (∀ e ∈ (cdo id).cdRoute 0, (cdo id).routeTested e = false ∧ (cdo id).routeDead e = false) ∧
      (cdq 1 id).fld R.LVR_CSTATE_QUEUED [0] = 1 ∧ (∀ e ∈ cdDead.cdRoute 0, cdDead.routeDead e = true) ∧ (cdDead.cdRoute 0).isSome = true) ∧
    (let b := (cdq 1 id).getTransom 1 ((cdq 1 id).recOff 0 0) (slotBytes 4)
     Rec.pairs ⟨b.1, b.2⟩ row0 = false) ∧ (cdo id).cdInFlight 0 0 = false := by
  refine ⟨reaches (by decide +kernel), reaches (by decide +kernel), reaches (by decide +kernel), reaches (by decide +kernel), by decide +kernel, ⟨⟨_, rfl, ?_⟩, ?_⟩, ?_⟩ <;>
    decide +kernel
theorem witness_ConduitTapsAndMessages :
    FrameReaches (framed (cdo id) (frame 2 128)) 4 2 0 0 cdOpen (frame 2 128) ∧ FrameReaches (framed (cdRem 0 2 id link3Up) (frame 2 128)) 4 2 0 0 cdOpen (frame 2 128) ∧
    FrameReaches (framed (cdo (fun x => x.setTap 0 { TapSt.init with occupied := 1 })) (frame 3 0)) 4 3 0 0 cdOpen (frame 3 0) ∧
    ((cdo id).cdTaps 0 = [0] ∧ tapTensorOk (frame 2 128).bytes = true ∧ 64 + leAt (frame 2 128).bytes 20 4 ≤ (cdo id).tapSlot 0 0 ∧
      ((cdo id).cond 0).tap 0 = TapSt.init ∧ (cdo id).fld R.LVR_TAP_SLOTS [0, 0] = 2 ∧ leAt (frame 3 0).bytes 34 2 = 1 ∧ leAt (frame 2 128).bytes 31 1 = 0) ∧
    ((cdo (fun x => x.setTap 0 ⟨2, 1, 0, 0⟩)).cond 0).tap 0 = ⟨2, 1, 0, 0⟩ ∧
    ((cdRem 1 2).jobShut 7 = false ∧ (cdRem 1 2).jobPart 7 = 1 ∧ (cdRem 1 2).cdPart 0 = 1 ∧ (cdRem 1 2).cdLoss 0 = some 0 ∧ (cdRem 0 2).cdEmit 0 = some 0 ∧
      (cdRem 1 2).cdLink 0 = some 3 ∧ (cdRem 0 2).cdLink 0 = some 3 ∧ (cdRem 1 2 id paused1).cdFrozen 0 = true ∧ (cdRem 0 2 id paused1).cdFrozen 0 = true ∧
      (cdRem 1 2).cdFrozen 0 = false ∧ (cdRem 0 2).jobPart 7 = 1 ∧ (cdRem 0 2).jobPart 8 = 0 ∧ (cdRem 0 2).jobShut 8 = false) := by
  refine ⟨reaches (by decide +kernel), reaches (by decide +kernel), reaches (by decide +kernel), ?_⟩
  decide +kernel
/-! ### Training -/

/-- The update entry of two parameters of stage 1: bucket 1, rule r, W, G and M at the start of HBM. -/
def trEnt (r : Nat) : List Byte :=
  entry 64 [(2, 2, 1), (4, 1, r), (6, 1, 6), (8, 4, 2), (16, 8, 2 * 2 ^ 60), (24, 8, 2 * 2 ^ 60 + 0x1000), (32, 8, 2 * 2 ^ 60 + 0x2000), (56, 2, 1)]
/-- Partition 1 with a training window in a state with contents w: table, hyperparameters and gradient block in Transom, one page of
HBM, a checkpoint, stage 1 of pane 0 with a schedule of two slots. -/
def trn (state : Nat) (w : Train → Train) (l : List (Fld × List Nat × Nat)) : Mach :=
  let m := eng id
  let c := { m.conf.cfg with stageMap := [entry 64 [(0, 2, 1), (2, 1, 1), (8, 1, 1)]], schedule := [entry 32 [(0, 2, 1), (6, 2, 2)]] }
  let m := { m with conf := { m.conf with cfg := c }, tier := { m.tier with pages := [(2 ^ 24, some ⟨5, none⟩)] } }
  let m := m.store (sliceKey 3 0) (trEnt 1)
  let m := m.setTrain 1 (w { Train.init with first := 5, table := [trEnt 1], steps := [TStep.init 5 0, TStep.init 6 0] })
  put m ([(R.COL_TTABLE_UPD_ENTRIES, [1], 1), (R.COL_TAUX_HP_BASE, [1], 16), (R.COL_TAUX_HP_SETS, [1], 1), (R.COL_TAUX_GBLK_BASE, [1], 8), (R.COL_TSTAGE_BASE, [1], 16384),
    (R.COL_TSTAGE_MIB, [1], 3), (R.COL_TSUMCFG_SLOTS, [1], 2), (R.COL_TSUMCFG_SLOT_KIB, [1], 4), (R.COL_TSTATE_CLOSED, [1], 4), (R.CKP_STATUS_VALID, [1], 1),
    (R.CKP_STATUS_LAST, [1], 0), (R.COL_TSTATE_STATE, [1], state)] ++ l)
/-- The window with its lowest step changed. -/
def trnStep (f : TStep → TStep) : Mach := trn 1 (fun w => { w with steps := [f (TStep.init 5 0), TStep.init 6 0] }) []
def trDone (u : TStep) : TStep := { u with handed := [1], done := [1] }
/-- The same entry when it clips, and with one parameter more than a chunk. -/
def trClip : List Byte := (trEnt 1).set 5 1
def trLong : List Byte := (trEnt 1).take 8 ++ leBytes 4 (chunkLen + 1) ++ (trEnt 1).drop 12
def trnTable (e : List Byte) (f : TStep → TStep) : Mach := trn 1 (fun w => { w with table := [e], steps := [f (TStep.init 5 0), TStep.init 6 0] }) []
/-- A step whose gradients overflowed. -/
def trOver (u : TStep) : TStep := { trDone u with entries := [(0, { EntrySt.init with nonfinite := 1 })] }
/-- The entry of the step with its first chunk in a phase. -/
def trChunk (n : Nat) (u : TStep) : TStep :=
  let y : ChunkSt := { ChunkSt.init with phase := n, m1 := [1, 2], m2 := [3, 4], master := [0x3F800001, 0x40000000] }
  { trDone u with gated := true, entries := [(0, { EntrySt.init with chunks := Tbl.set ChunkSt.init [] 0 y })] }
/-- Pass 2 of that chunk at the head of its owner's queue. -/
def trPass2 : Mach := withPane (trnStep (trChunk 1)) 0 (fun p => { p with vq := [passCmd 1 5 (ueLayer (trEnt 1)) 0 0] })
/-- Everything of the step is done and its close is asked for. -/
def trEnd (u : TStep) : TStep := { trDone u with closeReq := true, gated := true, entries := [(0, { EntrySt.init with ended := true })] }

theorem witness_TrainingControl :
    ((trn 0 id []).accepts = true ∧ (trn 0 id []).tstate 1 = tsStopped ∧ (trn 0 id []).trainCheck 1 false = 0 ∧ (trn 0 id []).axisSize 1 0 = 1 ∧
      (trn 0 id [(R.COL_TTABLE_UPD_ENTRIES, [1], 0)]).trainCheck 1 false ≠ 0 ∧ (trn 1 id []).tstate 1 = tsRunning) ∧
    (((trnStep trEnd).train 1).steps.any (fun u => (trnStep trEnd).stepOpen 1 u.step && (trnStep trEnd).stepTouched 1 u) = true ∧
      ((trn 1 (fun w => { w with steps := [] }) []).train 1).steps = []) ∧
    (stepLe 5 ((trn 1 id []).tclosed 1) = false ∧ (trn 1 id []).tstep 1 5 = some (TStep.init 5 0) ∧ (trn 1 id []).stepOpen 1 5 = true ∧
      (trn 1 (fun w => { w with steps := [TStep.init 8 0] }) []).tstep 1 8 = some (TStep.init 8 0) ∧ (trn 1 id []).stepOpen 1 8 = false) ∧
    ((trn 1 id []).fld R.COL_TEXPORT_STATUS_STATE [1] ≠ 1 ∧ bitAt ((trn 1 id []).fld R.CKP_STATUS_VALID [1]) ((trn 1 id []).fld R.CKP_STATUS_LAST [1]) = true ∧
      bitAt ((trn 1 id [(R.CKP_STATUS_LAST, [1], 1)]).fld R.CKP_STATUS_VALID [1]) ((trn 1 id [(R.CKP_STATUS_LAST, [1], 1)]).fld R.CKP_STATUS_LAST [1]) = false ∧
      (trn 1 id [(R.COL_TEXPORT_STATUS_STATE, [1], 1)]).fld R.COL_TEXPORT_STATUS_STATE [1] = 1 ∧ (trn 1 id []).running = true ∧ (trn 1 id []).shut 1 = false ∧
      (trn 1 id []).exportRead 1 = true ∧ (trn 1 id [(R.CKP_CTL_DEST, [1], 2)]).exportRead 1 = false ∧ (trn 1 id []).fld R.CKP_CTL_DEST [1] ≠ 2) ∧
    (let m := trn 1 id [(R.COL_TCTL_SCHED_EN, [1], 1)]
     m.conf.cfg.stagePart 1 = 1 ∧ m.conf.cfg.scheduleOf 1 = some (entry 32 [(0, 2, 1), (6, 2, 2)]) ∧ (m.schedStages 1).contains 1 = true ∧ m.schedSlots 1 = 2 ∧
     m.stepOpen 1 (stepAdd 5 (0 / 2)) = true ∧ (m.conf.cfg.stagePanes 1).all (fun q => (m.sstate q 0 == ssIdle || m.sstate q 0 == ssFault) && m.mayStart 1 q) = true) := by
  decide +kernel
theorem witness_TrainingControl_port :
    (let m := trn 1 id [(R.COL_TEXPORT_STATUS_STATE, [1], 1), (R.PRT_HP_LINK_UP, [0], 1)]
     m.fld R.COL_TEXPORT_STATUS_STATE [1] = 1 ∧ m.portUp 1 = true ∧ m.exportRead 1 = true ∧ m.running = true ∧ m.shut 1 = false) ∧
    ((trn 1 id [(R.COL_TEXPORT_STATUS_STATE, [1], 1)]).portUp 1 = false ∧ (trn 0 id [(R.COL_TAXIS_SIZE, [1, 0], 2), (R.COL_TAXIS_LINKS, [1, 0], 1)]).axisSize 1 0 = 2 ∧
      (trn 0 id [(R.COL_TAXIS_SIZE, [1, 0], 2), (R.COL_TAXIS_LINKS, [1, 0], 1)]).fld R.COL_TAXIS_LINKS [1, 0] ≠ 0) := by
  decide +kernel
theorem witness_TrainingSteps :
    ((trnStep id).tstate 1 ≠ tsStopped ∧ (trnStep id).tfrozen 1 = false ∧ (trnStep id).tstep 1 5 = some (TStep.init 5 0) ∧ (trnStep id).stepOpen 1 5 = true ∧
      ((trnStep id).buckets 1).contains 1 = true ∧ (trnStep id).axisSize 1 0 = 1 ∧ (trnStep id).bucketClips 1 1 = false ∧ (trnTable trClip id).bucketClips 1 1 = true ∧
      (trn 1 id [(R.COL_TAXIS_SIZE, [1, 0], 2)]).axisSize 1 0 = 2) ∧
    ((trnStep (fun u => { u with handed := [1] })).running = true ∧ (trnStep id).shut 1 = false ∧
      (trnStep (fun u => { u with handed := [1] })).tstep 1 5 = some { TStep.init 5 0 with handed := [1] }) ∧
    ((trnStep trDone).gateStep 1 = some (trDone (TStep.init 5 0)) ∧ (trnStep trDone).inHier 1 = false ∧ (trnStep trDone).overflows 1 (trDone (TStep.init 5 0)) = false ∧
      (trnStep trOver).gateStep 1 = some (trOver (TStep.init 5 0)) ∧ (trnStep trOver).overflows 1 (trOver (TStep.init 5 0)) = true) ∧
    ((trnStep (trChunk 0)).updStuck 1 = none ∧ (trnStep (trChunk 0)).updEntry 1 0 = some (trChunk 0 (TStep.init 5 0), trEnt 1) ∧
      (trnStep (trChunk 0)).chunkOwner (trEnt 1) 0 = some 0 ∧ 0 < ueChunks (trEnt 1) ∧ (trnStep (trChunk 0)).mayPass 1 0 = true ∧
      (trnStep (trChunk 0)).entriesBefore 1 (trChunk 0 (TStep.init 5 0)) 0 (dieOf 0) = true ∧ ((trnStep (trChunk 0)).pane 0).vq.length < queueSize .vector) ∧
    (trPass2.updStuck 1 = none ∧ trPass2.updEntry 1 0 = some (trChunk 1 (TStep.init 5 0), trEnt 1) ∧ trPass2.tfrozen 1 = false ∧ trPass2.mayPass 1 0 = true ∧
      (trPass2.pane 0).vrun = none ∧ (trPass2.pane 0).vq = passCmd 1 5 (ueLayer (trEnt 1)) 0 0 :: []) ∧
    ((trnStep (trChunk 2)).updEntry 1 0 = some (trChunk 2 (TStep.init 5 0), trEnt 1) ∧ ueChunks (trEnt 1) = 1 ∧ (trnStep (trChunk 2)).owners (trEnt 1) = [0] ∧
      (trnStep (trChunk 2)).paneOwner 0 = 1 ∧ ueToken (trEnt 1) = 6) ∧
    ((trnTable trLong (trChunk 2)).updEntry 1 0 = some (trChunk 2 (TStep.init 5 0), trLong) ∧ ueChunks trLong = 2 ∧ (trnTable trLong (trChunk 2)).chunkOwner trLong 0 = some 0 ∧
      (Tbl.get ChunkSt.init (Tbl.get EntrySt.init (trChunk 2 (TStep.init 5 0)).entries 0).chunks 1).phase = 0) ∧
    (LouvresOk (trnStep trEnd) ∧
      (trnStep trEnd).closeReady 1 = some (trEnd (TStep.init 5 0)) ∧ (trnStep trEnd).stepSplits 1 5 = [] ∧ (trnStep trEnd).ckState 1 = ckIdle ∧
      (trnStep trEnd).inHier 1 = false ∧ ((trnStep trEnd).hier 1).orphan = false) := by
  iterate 7 refine And.intro (by decide +kernel) ?_
  exact ⟨louvresOk_of_none (by decide +kernel), by decide +kernel⟩
/-- A descriptor of a hatch that launches stage 3 in step n while partition 1 trains: n = 4 is closed, 6 open, 7 not open yet. -/
def hatStep (n : Nat) : Mach :=
  let m := put (trn 1 id []) [(R.HTC_TARGET_PANE, [1, 0], 1), (R.HTC_TARGET_ENABLE, [1, 0], 1), (R.HTC_CREDIT_NEXT, [1, 0], 5)]
  let m := { m with conf := { m.conf with cfg := { m.conf.cfg with stageMap := [entry 64 [(0, 2, 3), (2, 1, 1), (5, 1, 1), (8, 1, 3)]] } } }
  m.setHatch 1 0 { m.hatch 1 0 with disp := 4, slots := [(32, BitVec.ofNat 64 n), (33, BitVec.ofNat 64 (3 * 2 ^ 60)), (37, BitVec.ofNat 64 (3 * 2 ^ 36))], isSealed := [(4, 4)] }
theorem witness_HatchDispatchAndRings_steps : ∀ x ∈ [(4, 2), (6, 0), (7, 1)],
    (hatStep x.1).hatchOpen 1 0 = true ∧ ((hatStep x.1).hatch 1 0).disp = 4 ∧ (hatStep x.1).fld R.HTC_CREDIT_NEXT [1, 0] = 5 ∧
    (let d := Desc.ofSlots ((hatStep x.1).hatch 1 0).slots 4
     engineOf d.kind = none ∧ (hatStep x.1).launchOk 1 d = true ∧ (hatStep x.1).stepGate 1 d.step = x.2) := by decide +kernel
/-! ### Serving -/

/-- A request of tag 77: operation, overlay and the rest of word 1, words 3 and 4; the model is atlas slot 2. -/
def rq (op ovl rest w3 w4 : Nat) : Desc :=
  { w0 := 77, w1 := BitVec.ofNat 64 (op * 2 ^ 60 + 2 * 2 ^ 54 + ovl * 2 ^ 32 + rest), w2 := 0x1000, w3 := BitVec.ofNat 64 w3, w4 := BitVec.ofNat 64 w4, w5 := 0, w6 := 0, w7 := 0 }
def rqAdmit : Desc := rq 1 0xFFFF 0 (4 * 2 ^ 32 + 4) 0
/-- Entry 3 in a state, on pipeline 0. -/
def gent (s : Nat) : GEnt := { GEnt.init with tag := 77, st := s, pipe := 0, model := 2, ver := 3, length := 5, promptLen := 4, profile := List.replicate 64 0 }
/-- Partition 1 serving a model of 8 tokens in atlas slot 2, on one die, with pipelines 0 and 1 of stage 1, request d at the front of its
window, and Gazetteer contents f. -/
def srv (d : Desc) (f : GztSt → GztSt) (l : List (Fld × List Nat × Nat)) : Mach :=
  let m := eng id
  let c := { m.conf.cfg with stageMap := [entry 64 [(0, 2, 1), (2, 1, 1), (3, 1, 3), (8, 1, 1)]], routes := [entry 32 [(0, 2, 4), (3, 1, 1), (6, 2, isl 2 0)]] }
  let m := { m with conf := { m.conf with cfg := c }, tier := { m.tier with pages := [(2 ^ 24, some ⟨5, none⟩)] } }
  let w : List (Nat × Word) := [(0, d.w0), (1, d.w1), (2, d.w2), (3, d.w3), (4, d.w4)]
  let m := m.withGzt (f { m.gzt with adms := [(1, { AdmWin.init with slots := w.filter (fun x => x.2 != 0), isSealed := [(0, 0)], stamps := [(0, 9)], next := 1 })] })
  let m := m.store (sliceKey 3 4096) (entry 64 [(4, 4, 0x3F800000), (12, 4, 0x3F800000)])
  put m ([(R.PRT_HP_LINK_UP, [0], 1), (R.GZT_PCFG_ENABLE, [1], 1), (R.GZT_PCFG_LINGER, [1], 1), (R.GZT_PCFG_SPROF_BASE, [1], 64), (R.GZT_PCFG_SPROF_COUNT, [1], 1), (R.GZT_PQUOTA_ENTRY_COUNT, [1], 8),
    (R.GZT_PQUOTA_OVL_VERS, [1], 4), (R.GZT_PQUOTA_HANDLES, [1], 4), (R.GZT_PKV_UNITS, [1], 16), (R.GZT_PKV_UNIT_2MIB, [1], 1), (R.GZT_PSTAGE_STAGE_BASE, [1], 16384),
    (R.GZT_PSTAGE_STAGE_MIB, [1], 1), (R.GZT_PPLIST_BASE, [1], 64), (R.GZT_PPLIST_STRIDE, [1], 2), (R.GZT_POUTCFG_PAGES, [1], 1), (R.GZT_ATLAS_STATE, [2], 1),
    (R.GZT_ATLAS_DESC_WORD, [2, 0], 8 * 2 ^ 32 + 3 * 2 ^ 16 + 1), (R.GZT_ATLAS_DESC_WORD, [2, 1], 4 * 2 ^ 32 + 128), (R.GZT_ATLAS_DESC_WORD, [2, 2], 2 ^ 16),
    (R.GZT_PIPECTL_PARTITION, [0], 1), (R.GZT_PIPECTL_FIRST_STAGE, [0], 1), (R.GZT_PIPECTL_STAGES, [0], 1), (R.GZT_PIPECTL_SAMPLERS, [0], 1),
    (R.GZT_PIPECFG_MAX_ROWS, [0], 4), (R.GZT_PIPECTL_PARTITION, [1], 1), (R.GZT_PIPECFG_MAX_ROWS, [1], 4), (R.GZT_PATLAS_SLOTS, [1], 4)] ++ l)
def srvEnt (d : Desc) (x : GEnt) (l : List (Fld × List Nat × Nat)) : Mach := srv d (fun g => { g with ents := [(3, x)] }) l
/-- Pipeline 1 runs model 2. -/
def pipe1 : List (Fld × List Nat × Nat) := [(R.GZT_PIPESTAT_STATE, [1], plIdle), (R.GZT_PIPESTAT_MODEL, [1], 2), (R.GZT_PIPESTAT_MODEL_VALID, [1], 1)]
def pipe0 (st : Nat) : List (Fld × List Nat × Nat) := [(R.GZT_PIPESTAT_STATE, [0], st), (R.GZT_PIPESTAT_MODEL, [0], 2), (R.GZT_PIPESTAT_MODEL_VALID, [0], 1)]
def fetch0 : Fetch := ⟨3, 0x1000, { gent gsAdmitted with pipe := 0xFF, stage := 2 ^ 20 + 1, stageLen := 16 }⟩
def ovl0 : OvlVer := ⟨6, 2, 1, [4], true⟩
/-- An open step with the decode row of entry 3. -/
def sstep0 (w : SRow → SRow) : SStep := ⟨6, 0, 100, [w ((gent gsDecode).decodeRow 3)], false, false⟩
def stepping (w : SRow → SRow) (f : GztSt → GztSt) : Mach :=
  srv rqAdmit (fun g => f { g with ents := [(3, gent gsDecode)], pipes := [(0, { Pipe.init with next := 7, opened := [sstep0 w] })] }) (pipe0 plRunning)
/-- A shard of all 8 logits of that row, and the row at the sampler. -/
def logits : Xfer :=
  { frame 4 8 with bytes := entry 96 [(0, 4, 6), (4, 4, 3), (8, 4, 5), (20, 4, 8), (26, 2, 1), (28, 1, 0), (30, 1, 4), (64, 4, 0x3F800000), (68, 4, 0x40000000)] }
def smpRow : SmpRow := ⟨0, { step := 6, seqId := 3, pos := 5, shards := 1, got := [shardOf logits.bytes false] }⟩
/-- Rows of other sequences in all eight slots of the sampler, an event that waits, and a host port that is down. -/
def smpFull : List SmpRow := List.replicate 8 { smpRow with pipe := 1 }
def event0 (g : GztSt) : GztSt := { g with events := [(1, [(0, 0, List.replicate 16 2)])] }
def portDown : List (Fld × List Nat × Nat) := [(R.PRT_HP_LINK_UP, [0], 0)]
def batch0 : Batch := { t := 1, step := 6, pipe := 0, retried := false, waited := false, tokens := [List.replicate 16 1], events := [], mark := 0 }

theorem witness_ServingRequests :
    ((srv rqAdmit id []).accepts = true ∧ (srv rqAdmit id []).shut 1 = false ∧ (srv rqAdmit id []).flag R.GZT_PCFG_ENABLE [1] = true ∧
      (srv rqAdmit id []).pstate 1 = psActive ∧ (srv rqAdmit id []).part.tearing.contains 1 = false ∧ (srv rqAdmit id []).admFront 1 = some (rqAdmit, 9) ∧
      rqOk rqAdmit = true ∧ rqOp rqAdmit = 1 ∧ ((srv rqAdmit id []).adm 1).poison.contains (((srv rqAdmit id []).adm 1).disp % 1024) = false ∧
      (srv rqAdmit id []).prState 1 ≠ prPromoting ∧ ((srv rqAdmit id []).admitCheck 1 rqAdmit 9).isOk = true ∧
      ((srv (rq 1 0xFFFF 0 0 0) id []).admitCheck 1 (rq 1 0xFFFF 0 0 0) 9).isOk = false) ∧
    (∀ op ∈ [2, 3], rqOp (rq op 0 3 0 0) = op ∧ rqOk (rq op 0 3 0 0) = true ∧ (srv (rq op 0 3 0 0) id []).named 1 (rq op 0 3 0 0) = none ∧
      ∀ x ∈ [gsAdmitted, gsDecode, gsDone], (srvEnt (rq op 0 3 0 0) (gent x) []).named 1 (rq op 0 3 0 0) = some (gent x)) ∧
    (gsLive (gent gsDecode).st = true ∧ gsLive (gent gsDone).st = false) ∧
    (rqOp (rq 4 0 0 0 (5 * 65536 + 2)) = 4 ∧
      (let h := (srv (rq 4 0 0 0 (5 * 65536 + 2)) (fun g => { g with handles := [(4098, some ⟨5, 2, 3, 0xFFFF, 0, 64, [], []⟩)] }) []).gzt.handles
       Tbl.get none h (4096 + (5 * 65536 + 2) % 65536 % 4096) = some ⟨5, 2, 3, 0xFFFF, 0, 64, [], []⟩ ∧ (5 * 65536 + 2) % 65536 = 2 ∧
         Tbl.get none h (4096 + (6 * 65536 + 2) % 65536 % 4096) = some ⟨5, 2, 3, 0xFFFF, 0, 64, [], []⟩ ∧ (6 * 65536 + 2) / 65536 ≠ 5)) ∧
    ((srvEnt (rq 5 0 (2 ^ 14 + 3) 0 0) (gent gsDecode) pipe1).takesEntry 1 (gent gsDecode) = true ∧ rqPipe (rq 5 0 (2 ^ 14 + 3) 0 0) = 1 ∧ rqOk (rq 5 0 (2 ^ 14 + 3) 0 0) = true ∧
      (srvEnt (rq 5 0 (2 ^ 14 + 3) 0 0) (gent gsDecode) pipe1).pipePart 1 = 1 ∧ (srv (rq 5 0 (2 ^ 14 + 3) 0 0) id []).named 1 (rq 5 0 (2 ^ 14 + 3) 0 0) = none ∧
      (srvEnt (rq 5 0 (2 ^ 14 + 3) 0 0) (gent gsAdmitted) pipe1).named 1 (rq 5 0 (2 ^ 14 + 3) 0 0) = some (gent gsAdmitted)) ∧
    (rqOverlay (rq 6 6 0 (64 * 2 ^ 32) 0) = 6 ∧ rqCount (rq 6 6 0 (64 * 2 ^ 32) 0) = 64 ∧ (srv (rq 6 6 0 (64 * 2 ^ 32) 0) id []).modelOk 1 2 = true ∧
      (srv (rq 6 6 0 (64 * 2 ^ 32) 0) id []).ovlsOf 1 = [] ∧ (srv (rq 6 6 0 (64 * 2 ^ 32) 0) id []).ovlFetchesOf 1 = [] ∧
      (srv (rq 6 6 0 (64 * 2 ^ 32) 0) id []).unitRun 1 1 = some 0 ∧ (srv (rq 7 6 0 0 0) (fun g => { g with ovls := [(1, [ovl0])] }) []).ovlCurrent 1 6 2 = some ovl0) ∧
    ((srv rqAdmit (fun g => { g with fetches := [(1, [fetch0])] }) []).fetchesOf 1 = [fetch0] ∧ (srv rqAdmit id []).portUp 1 = true ∧ (srv rqAdmit id portDown).portUp 1 = false ∧
      (srv rqAdmit (fun g => { g with ovlFetches := [(1, [⟨77, 6, 2, 0, 64, [4]⟩])] }) []).ovlFetchesOf 1 = [⟨77, 6, 2, 0, 64, [4]⟩]) ∧
    ((srv rqAdmit id []).atlasMay 1 2 = true ∧ (srv rqAdmit id []).atlasMay 1 3 = false ∧ (srv rqAdmit id []).atlasUsed 2 = false ∧
      (srvEnt rqAdmit (gent gsDecode) []).atlasUsed 2 = true ∧ (srv rqAdmit id []).fld R.GZT_ATLAS_STATE [2] = 1 ∧
      (let m := srv rqAdmit id [(R.GZT_ATLAS_STATE, [2], 0)]
       m.fld R.GZT_ATLAS_STATE [2] = 0 ∧ m.atlasAt 2 0 1 = 1 ∧ m.atlasVocab 2 = 8 ∧ m.atlasCtx 2 = 128 ∧ m.atlasAt 2 18 2 = 1 ∧ m.atlasAt 2 24 40 = 0) ∧
      (srv rqAdmit id [(R.GZT_ATLAS_STATE, [2], 0), (R.GZT_ATLAS_DESC_WORD, [2, 0], 1)]).atlasVocab 2 = 0) := by
  decide +kernel
theorem witness_ServingSteps :
    ((srv rqAdmit id []).pipePart 0 = 1 ∧ (srv rqAdmit id []).plState 0 = plDisabled ∧ (srv rqAdmit id []).plStages 0 = [1] ∧ (srv rqAdmit id []).plStages 5 = [] ∧
      (srv rqAdmit id []).conf.cfg.shared 1 = false ∧ (srv rqAdmit id []).conf.cfg.stage 1 = some (entry 64 [(0, 2, 1), (2, 1, 1), (3, 1, 3), (8, 1, 1)]) ∧
      (srv rqAdmit id []).fld R.GZT_PIPECTL_SAMPLERS [0] ≠ 0 ∧ (srv rqAdmit id []).conf.cfg.stagePart 1 = 1 ∧ (srv rqAdmit id (pipe0 plIdle)).plState 0 ≠ plDisabled ∧
      ∀ k : Nat, k < 32 → k ≠ 0 → (srv rqAdmit id []).plState k = plDisabled) ∧
    ((stepping id id).plOn 0 = true ∧ ((stepping id id).pipe 0).opened = [sstep0 id] ∧ ((srv rqAdmit id (pipe0 plIdle)).pipe 0).opened = [] ∧
      (srv rqAdmit id (pipe0 plIdle)).plOn 0 = true ∧ (srv rqAdmit id (pipe0 plIdle)).plBound 0 = []) ∧
    ((srvEnt rqAdmit (gent gsDecode) (pipe0 plIdle)).mayOpen 0 = true ∧ (srvEnt rqAdmit (gent gsDecode) (pipe0 plIdle)).entsOf 1 = [(3, gent gsDecode)] ∧
      (gent gsDecode).pipe = 0 ∧ (gent gsDecode).group = 0 % (srvEnt rqAdmit (gent gsDecode) (pipe0 plIdle)).plGroups 0 ∧
      (srvEnt rqAdmit (gent gsDecode) (pipe0 plIdle)).maskReady 1 (gent gsDecode) 5 = true) ∧
    ((stepping (fun r => { r with sampled := 1, tok := 4 }) id).sealable 0 = some (sstep0 (fun r => { r with sampled := 1, tok := 4 })) ∧ (stepping id id).running = true ∧
      (stepping id id).shut 1 = false ∧ (stepping id id).pstate 1 ≠ psNone) ∧
    ((stepping id id).expected 0 6 3 5 = some (sstep0 id, (gent gsDecode).decodeRow 3) ∧ routeDst (entry 32 [(0, 2, 4), (3, 1, 1), (6, 2, isl 2 0)]) = isl 2 0 ∧
      (let m := (stepping id id).setXfers 4 [logits]
       m.conf.cfg.route 4 = some (entry 32 [(0, 2, 4), (3, 1, 1), (6, 2, isl 2 0)]) ∧ m.xfersOf 4 = [logits] ∧ m.core.stopped = [] ∧
         m.routeTested (entry 32 [(0, 2, 4), (3, 1, 1), (6, 2, isl 2 0)]) = false ∧ m.routeDead (entry 32 [(0, 2, 4), (3, 1, 1), (6, 2, isl 2 0)]) = false ∧
         logits.more = false ∧ m.tokenFull 1 logits = false ∧ bitAt (m.fld R.GZT_PIPECTL_SAMPLERS [0]) 0 = true ∧ (∀ k < 8, m.smp k = []) ∧ m.fld R.GZT_PIPESTAT_MODEL [0] = 2) ∧
      (stepping id (fun g => { g with samplers := [(0, smpFull)] })).smp 0 = smpFull ∧
      (stepping id id).atlasVocab 2 = 8 ∧ (∃ l, placeShard [] 0 8 8 false logits.bytes false = .joins l) ∧ placeShard [] 8 8 8 false logits.bytes false = .waits ∧
      placeShard [] 0 8 7 false logits.bytes false = .invalid) ∧
    (((stepping id (fun g => { g with samplers := [(0, [smpRow])] })).smp 0).find?
      (fun r => r.row.complete && !(stepping id (fun g => { g with samplers := [(0, [smpRow])] })).shut ((stepping id (fun g => { g with samplers := [(0, [smpRow])] })).pipePart r.pipe)) = some smpRow ∧
      smpRow.row.poisoned = false ∧ { smpRow.row with got := [shardOf logits.bytes true] }.poisoned = true) ∧
    ((stepping id (fun g => { g with batches := [(1, [batch0])] })).batchesOf 1 = [batch0] ∧ (stepping id id).mirrored 1 0 = true ∧ (stepping id id).ringPlan 1 128 = some 0 ∧
      (put (stepping id id) [(R.GZT_POUT_HEAD_HEAD, [1], 4096)]).ringPlan 1 128 = none ∧
      (put (stepping id id) [(R.GZT_POUT_HEAD_HEAD, [1], 4032), (R.GZT_POUT_TAIL_TAIL, [1], 4032)]).ringPlan 1 128 = some 64 ∧ (stepping id id).pairOn 1 = false) ∧
    ((stepping id id).eventsNow 1 = [] ∧ (stepping id event0).eventsNow 1 ≠ [] ∧ Tbl.get [] (stepping id event0).gzt.events 1 ≠ [] ∧
      (stepping id event0).ringPlan 1 (eventBatch ((stepping id event0).eventsNow 1)).size = some 0) ∧
    ((srvEnt rqAdmit (gent gsDone) []).entPart 3 = 1 ∧ (srvEnt rqAdmit (gent gsDone) []).fld R.GZT_PCFG_LINGER [1] = 1 ∧
      (gent gsDone).endAt + 10000 ≤ { srvEnt rqAdmit (gent gsDone) [] with now := 10000 }.now) := by
  iterate 4 refine And.intro (by decide +kernel) ?_
  refine ⟨⟨by decide +kernel, by decide +kernel, by decide +kernel, by decide +kernel, by decide +kernel,
    ⟨_, rfl⟩, by decide +kernel, by decide +kernel⟩, ?_, ?_, ?_⟩ <;>
    decide +kernel
/-! ### Memory tiers -/

/-- A line of frame 1029 (channel 5, stack 0) with errors on pins. -/
def lineAt (pins : List (Fin 72)) : LineErr := { frame := 1029, line := 7, pins := pins }
/-- Partition 1 owns frame 1029; channel 5 is good; stack 0 at a level. -/
def tiers (level : Nat) (f : TierSt → TierSt) (l : List (Fld × List Nat × Nat)) : Mach :=
  put { one with tier := f { one.tier with frameOwner := [(1029, 1)] } } ([(R.MEM_CHAN_STATE, [5], 1), (R.MEM_STACK_LEVEL, [0], level)] ++ l)
/-- Pin 3 of the channel has had 255 corrected lines; the channel, which no partition owns, 63 that were not. -/
def tierPins : Mach := tiers 0 (fun y => { y with pinHits := [(5 * 128 + 3, List.replicate 255 0)] }) []
def tierHits : Mach := tiers 0 (fun y => { y with frameOwner := [], uncorrHits := [(5, List.replicate 63 0)] }) []
/-- Stack 0 shut down at a temperature, by partitions at. -/
def tierDown (t : Int) (at' : Nat := 0) : Mach := tiers 7 (fun y => { y with readings := [(0, t)], atShutdown := [(0, at')] }) [(R.MEM_STACK_SHUTDOWN, [0], 1)]
/-- A partition with a collective in flight whose manager is this module, or module n. -/
def tierMgr (n : Nat := 9) : Mach := tiers 3 id [(R.MRD_ID_MODULE, [], 9), (R.COL_CCFG_MANAGER, [1], n), (R.COL_CSTAT_INFLIGHT, [1], 1)]
/-- Far port 0 UP with violations at times l, a copy of pane 0 running. -/
def farUp (l : List Nat) : Mach :=
  let m := mCpRun
  put { m with tier := { m.tier with farViol := if l.isEmpty then [] else [(0, l)] } } [(R.FAR_PORT_STATE, [0], 1)]
/-- Region 2 with 4 pages OPEN and a golden copy named in a source. -/
def gold (src quota : Nat) (l : List (Fld × List Nat × Nat)) : Mach :=
  put one ([(R.PTN_SREG_STATE, [2], 1), (R.PTN_SREG_PAGES, [2], 4), (R.MEM_GOLD_CTL_PAGES, [2], 4), (R.MEM_GOLD_CTL_SRC, [2], src), (R.FAR_PQUOTA_PAGES, [0], quota)] ++ l)
def goldBusy : Mach := { gold 0 8 [] with fix := { (gold 0 8 []).fix with regions := [⟨2, 0, 5, 0, []⟩] } }

theorem witness_MemoryChannelsAndStacks :
    ((tiers 0 id []).running = true ∧ (tiers 0 id []).stopping = false ∧ (tiers 0 id []).chanLive ((lineAt [3]).frame.val % 512) = true ∧
      (tiers 0 id []).frameGone (lineAt [3]).frame = false ∧ (tiers 0 id []).poison = [] ∧ (Tbl.get [] (tiers 0 id []).tier.pinHits (5 * 128 + 3)).length < 200 ∧
      Tbl.get 0 (tiers 0 id []).tier.frameOwner 1029 ≤ 32 ∧ (Tbl.get [] (tiers 0 id []).tier.uncorrHits 5).length < 63) ∧
    ((match exec (.patrolScrub [lineAt [3]]) (st (tiers 0 id [])) with
      | .next t => t.m.running && !t.m.stopping
      | _ => false) = true) ∧
    ((lineAt [3]).pins = [3] ∧ 255 ≤ ((Tbl.get [] tierPins.tier.pinHits (5 * 128 + 3)).filter (fun t => decide (tierPins.now < t + second))).length ∧
      tierPins.chanLive 5 = true ∧ bitAt (Tbl.get 0 tierPins.tier.failedPins 5) 3 = false ∧ popCount 72 (Tbl.get 0 tierPins.tier.failedPins 5 + 2 ^ 3) ≤ 2) ∧
    (63 ≤ ((Tbl.get [] tierHits.tier.uncorrHits 5).filter (fun t => decide (tierHits.now < t + second))).length ∧ tierHits.ownersWhere (fun f => f % 512 == 5) = [] ∧
      tierHits.tier.frameOwner = [] ∧ tierHits.chanLive 5 = true ∧ tierHits.running = true) ∧
    ((tiers 0 id []).chanLive 6 = false ∧ (tiers 0 id []).ownersWhere (fun f => f % 512 == 5) = [1] ∧ (tiers 0 id []).pstate 1 = psActive ∧
      (tiers 0 id []).ownersWhere (fun f => f % 512 / 32 == 0) = [1] ∧ (tiers 0 id []).flag R.MEM_STACK_SHUTDOWN [0] = false) ∧
    lineNo 1029 7 ∈ (tiers 0 (fun y => { y with rowMoves := [lineNo 1029 7] }) []).tier.rowMoves ∧
    ((tiers 0 (fun y => { y with frameOwner := [] }) []).ownersWhere (fun f => f % 512 == 5) = [] ∧ (tiers 0 (fun y => { y with frameOwner := [] }) []).tier.frameOwner = []) ∧
    ((1049#12).toInt < 1050 ∧ (1050 : Int) ≤ (1050#12).toInt ∧ (tiers 0 id []).ownersWhere (fun f => f % 512 / 32 == 1) = []) ∧
    Tbl.get 0 (tiers 3 id []).tier.coolSince 0 = 0 ∧
    (Tbl.get 0 (tiers 3 (fun y => { y with coolSince := [(0, 1)] }) []).tier.coolSince 0 = 1 ∧ 1 + 10 ^ 6 ≤ { tiers 3 id [] with now := 1000000 }.now + 1) ∧
    (tierMgr.fld R.MEM_STACK_LEVEL [0] = 3 ∧ tierMgr.fld R.COL_CSTAT_INFLIGHT [1] ≠ 0 ∧ (tierMgr.ownersWhere (fun f => f % 512 / 32 == 0)).contains 1 = true ∧
      tierMgr.fld R.COL_CCFG_MANAGER [1] = tierMgr.moduleId ∧ (tierMgr 8).fld R.COL_CCFG_MANAGER [1] ≠ (tierMgr 8).moduleId) ∧
    (tierMgr.accepts = true ∧ (tierDown 949).flag R.MEM_STACK_SHUTDOWN [0] = true ∧ Tbl.get 0 (tierDown 949).tier.readings 0 < 950 ∧
      (950 : Int) ≤ Tbl.get 0 (tierDown 950).tier.readings 0 ∧ Tbl.get 0 (tierDown 949).tier.atShutdown 0 = 0 ∧
      setBits 33 (Tbl.get 0 (tierDown 949 2).tier.atShutdown 0) = [1] ∧ (tierDown 949 2).pstate 1 ≠ psTornDown ∧ ∀ e ∈ (tierDown 949).tier.frameOwner, e.2 < 64) := by
  decide +kernel
theorem witness_FarTierAndGoldenCopies :
    ((farUp []).fld R.FAR_PORT_STATE [0] = 1 ∧ Tbl.get 0 (farUp []).tier.farOwner ((farUp []).farLine 0 9 % 2 ^ 72 / 2 ^ 21) ≤ 32 ∧
      ((farUp []).pane 0).cruns[0]? = some (Run.fresh cpCmd 10 [] 0 false) ∧ ((farUp []).pane 0).cruns[1]? = none) ∧
    (15 ≤ ((Tbl.get [] (farUp (List.replicate 15 0)).tier.farViol 0).filter (fun t => decide ((farUp []).now < t + second))).length ∧ (farUp []).tier.farOwner = [] ∧
      one.fld R.FAR_PORT_STATE [0] ≠ 1) ∧
    ((gold 0 8 []).accepts = true ∧ (gold 0 8 []).fld R.PTN_SREG_STATE [2] ≠ 0 ∧ (gold 0 8 []).fld R.PTN_SREG_PAGES [2] = (gold 0 8 []).fld R.MEM_GOLD_CTL_PAGES [2] ∧
      (gold 3 8 []).fld R.MEM_GOLD_CTL_SRC [2] = 3 ∧ (gold 0 3 []).fld R.FAR_PQUOTA_PAGES [0] * 2 ^ 21 < 4 * 2 ^ 21 ∧ (gold 0 8 []).flag R.MEM_GOLD_CTL_DIGEST_EN [2] = false ∧
      (let m := gold 0 8 [(R.MEM_GOLD_CTL_DIGEST_EN, [2], 1)]
       m.flag R.MEM_GOLD_CTL_DIGEST_EN [2] = true ∧ m.fld R.MEM_GOLD_DIG_ADDR [2] * 64 + 4 * 32 ≤ m.fld R.FAR_PQUOTA_PAGES [0] * 2 ^ 21) ∧
      (gold 0 8 []).fix.regions.any (fun x => x.region == 2) = false ∧ goldBusy.fix.regions.any (fun x => x.region == 2) = true) := by
  decide +kernel
/-! ### Links and time -/

/-- Module 9 with link 3 in a state: 16 of 18 good lanes in use, all its slots free, its partner module 5. -/
def lnk (state : Nat) (f : LinkSt → LinkSt) (l : List (Fld × List Nat × Nat)) : Mach :=
  let cs := (List.range 6).map (fun c => (c, { LinkCls.init with credits := clSlots c, rxCredit := clSlots c }))
  let x : LinkSt := { LinkSt.init with enabled := true, good := 2 ^ 18 - 1, lanes := List.range 16, lastSerial := 78, cls := cs }
  put { one with mrd := { one.mrd with links := [(3, f x)] } }
    ([(R.MRD_ID_MODULE, [], 9), (R.MRD_ID_VER_MAX, [], 3), (R.MRD_ID_VER_MIN, [], 1), (R.MRD_LSTATE_STATE, [3], state), (R.MRD_LSTATE_WIDTH, [3], 16),
      (R.MRD_LPEER_MODULE, [3], 5), (R.MRD_LSERIAL_SERIAL, [3], 77), (R.MRD_LPEER_NEIGHBOUR, [3], 1), (R.COL_CJOB_JOB, [1], 7)] ++ l)
/-- The link is DOWN and under a margining run. -/
def lnkTested : Mach := { lnk lkDown id [(R.PRT_MARGIN_STAT_BUSY, [], 1)] with pwr := { one.pwr with margin := 2, target := 54 } }
/-- Class c of the link changed. -/
def lnkCls (c : Nat) (f : LinkCls → LinkCls) : Mach :=
  lnk lkUp (fun x => { x with cls := Tbl.set LinkCls.init x.cls c (f (Tbl.get LinkCls.init x.cls c)) }) []
def seventh : Flit := { cls := 0, som := true, eom := true, poison := false, seqNo := 7, len := 240, dst := 5, payload := [], job := 0, msg := 1, inp := 0, tries := 0 }
/-- A flit with a header and 32 bytes of a message of type 0x11 from module 5. -/
def flitBody (h : Nat) : List Byte := entry 248 [(0, 8, h), (8, 2, 5), (12, 1, 0x11), (13, 1, 16), (16, 4, 16)]
def flitOf (h : Nat) : List Byte := flitBody h ++ leBytes 8 (crc64 (flitBody h)).toNat
def flitH : Nat := 3 * 2 ^ 61 + 2 ^ 59 + 2 ^ 58 + 3 * 2 ^ 42 + 31 * 2 ^ 16 + 9
def flit0 : List Byte := flitOf flitH
/-- A Graticule in a state whose parent is link 3. -/
def timed (state : Nat) (f : SrvSt → SrvSt) (l : List (Fld × List Nat × Nat)) : Mach :=
  let m := lnk lkUp id ([(R.GRT_STATUS_STATE, [], state)] ++ l)
  { m with srv := f { m.srv with parent := 4, syncT1 := [(3, 1001)] }, now := 20000000 }
def rooted (state : Nat) (l : List (Fld × List Nat × Nat)) : Mach := put (lnk lkDown id []) ([(R.MRD_ID_TIME_ROOT, [], 1), (R.GRT_STATUS_STATE, [], state)] ++ l)

/-- Link 3 at a time. -/
def lnkAt (t state : Nat) (l : List (Fld × List Nat × Nat) := []) : Mach := { lnk state id l with now := t }
theorem witness_LinkControl :
    ((lnk lkDown id []).flag R.CFG_RUN_FACTORY [] = false ∧ (lnk lkDown id [(R.CFG_RUN_FACTORY, [], 1)]).flag R.CFG_RUN_FACTORY [] = true ∧
      (lnk lkDegraded (fun x => { x with good := 0xFFF }) []).linkUp 3 = true ∧ popCount 18 0xFFF < 16 ∧
      ((lnkAt (5 * 10 ^ 7) lkTrain).link 3).since + 5 * 10 ^ 7 ≤ (lnkAt (5 * 10 ^ 7) lkTrain).now ∧
      ((lnkAt (10 ^ 6) lkNegotiate).link 3).since + 10 ^ 6 ≤ (lnkAt (10 ^ 6) lkNegotiate).now ∧
      (setBits 18 (0x7F#18).toNat).length < 8) ∧
    ((lnk lkDown id []).accepts = true ∧ (lnk lkDown id []).linkTested 3 = false ∧ (lnk lkDown id []).colls = [] ∧
      lnkTested.linkTested 3 = true) ∧
    ((lnk lkDegraded id []).lstate 3 = lkDegraded ∧ 16 ≤ popCount 18 ((lnk lkDegraded id []).link 3).good ∧ (lnk lkUp id []).linkUp 3 = true ∧
      (lnk lkQuarantined id []).lstate 3 = lkQuarantined) ∧
    (((lnk lkDown id []).link 3).enabled = true ∧ ((lnk lkDown id []).link 3).since + 10 ^ 8 ≤ { lnk lkDown id [] with now := 10 ^ 8 }.now) ∧
    ((lnk lkTrain id []).lstate 3 = lkTrain ∧ 8 ≤ (setBits 18 (0xFF#18).toNat).length) ∧
    (let m := lnk lkUp id [(R.MRD_LSTATE_VERSION, [3], 2)]
     m.linkUp 3 = true ∧ m.fld R.MRD_LPEER_FABRIC [3] = 0 ∧ min (m.fld R.MRD_ID_VER_MAX []) 2 = m.fld R.MRD_LSTATE_VERSION [3] ∧ (m.link 3).viols = [] ∧
     m.fld R.MRD_LCFG_VIOL_LIMIT [3] = 0) ∧
    ((lnk lkNegotiate (fun x => { x with lastSerial := 0 }) []).lstate 3 = lkNegotiate ∧ (lnk lkNegotiate id []).moduleId = 9 ∧ (lnk lkNegotiate id []).fld R.MRD_ID_FABRIC [] = 0 ∧
      (lnk lkNegotiate id []).fld R.MRD_ID_VER_MAX [] = 3 ∧ (lnk lkNegotiate id []).fld R.MRD_ID_VER_MIN [] = 1 ∧
      (∀ k : Nat, k < 10 → k ≠ 3 → ((lnk lkNegotiate id []).link k).known = false)) ∧
    ((1#16).toNat ≠ (lnk lkUp id []).fld R.MRD_LPEER_FABRIC [3] ∧ ((lnk lkUp id []).link 3).viols = [] ∧ (lnk lkQuarantined id []).linkUp 3 = false ∧
      (let m := { lnk lkNegotiate id [(R.MRD_LPEER_MODULE, [4], 5), (R.MRD_LSERIAL_SERIAL, [4], 78)] with mrd :=
        { (lnk lkNegotiate id []).mrd with links := (lnk lkNegotiate id []).mrd.links ++ [(4, { LinkSt.init with known := true })] } }
       (m.link 4).known = true ∧ m.fld R.MRD_LPEER_MODULE [4] = (5#16).toNat ∧ m.fld R.MRD_LSERIAL_SERIAL [4] ≠ (77#64).toNat ∧ m.lstate 3 = lkNegotiate)) ∧
    (((lnk lkUp id []).link 3).lanes.contains 17 = false ∧ ((lnk lkUp id []).link 3).lanes.contains 3 = true ∧ ((lnk lkUp id []).markLane 3 3).spareLane 3 = some 16 ∧
      ((lnk lkUp (fun x => { x with good := 2 ^ 16 - 1 }) []).markLane 3 3).spareLane 3 = none) := by
  decide +kernel
/-- The flit carries the check of its first 248 bytes. -/
theorem flitOf_crc (h : Nat) (l : (flitBody h).length = 248) : leAt (flitOf h) 248 8 = (crc64 ((flitOf h).take 248)).toNat := by
  have e := Laws.leAt_append (flitBody h) 8 (crc64 (flitBody h)).toNat []
  rw [List.append_nil, l] at e
  rw [show (flitOf h).take 248 = flitBody h by simp [flitOf, ← l]]
  refine e.trans (Nat.mod_eq_of_lt ?_)
  exact (crc64 (flitBody h)).isLt
theorem witness_LinkTraffic :
    (flit0.length = 256 ∧ (lnk lkUp id []).linkUp 3 = true ∧ (lnk lkDown id []).linkUp 3 = false ∧ leAt flit0 248 8 = (crc64 (flit0.take 248)).toNat) ∧
    (let h := leAt flit0 0 8
     let x := (lnk lkUp id []).linkCls 3 3
     let pay := (flit0.drop 8).take (min 240 (hdLen h))
     hdClass h = 3 ∧ bits h 44 42 = 3 ∧ bits h 41 30 = x.txSeq ∧ bits h 29 24 = 0 ∧ x.unacked = [] ∧ x.txq = [] ∧ x.credits ≤ clSlots 3 ∧ bitAt h 60 = false ∧ bitAt h 59 = true ∧
     bitAt h 58 = true ∧ x.rxOpen = false ∧ x.rx = [] ∧ hdLen h ≤ 240 ∧ hdSeq h = x.rxSeq ∧ x.rxCredit ≠ 0 ∧ (lnk lkUp id []).stopping = false ∧
     hdDst h = (lnk lkUp id []).moduleId ∧ mtClass (leAt pay 4 1) = some 3 ∧ pay.length = 16 + leAt pay 8 4 ∧ leAt pay 0 2 ≤ 4095) ∧
    ((7 : Nat) ≤ { seventh with tries := 7 }.tries ∧ seventh.tries < 7 ∧ (lnk lkDown id []).lstate 3 ≠ lkNegotiate ∧ ((lnk lkUp id []).link 3).cwBad = false ∧
      ((lnk lkUp (fun x => { x with cwBad := true }) []).link 3).cwBad = true) ∧
    (((lnkCls 0 (fun x => { x with unacked := [seventh] })).linkCls 3 0).unacked = seventh :: [] ∧ ((lnkCls 0 (fun x => { x with unacked := [seventh] })).linkCls 3 0).txq = [] ∧ ((8#12).toNat + 4096 - seventh.seqNo) % 4096 = ([] : List Flit).length + 1) ∧
    ((lnkCls 0 (fun x => { x with unacked := [seventh] })).now < ((lnkCls 0 (fun x => { x with unacked := [seventh] })).linkCls 3 0).ackAt + 10000) ∧
    (Mach.init.running = false ∧ (∀ k : Nat, k < 10 → k ≠ 3 → (lnk lkUp id []).lstate k = lkDown) ∧ ((lnk lkUp id []).linkCls 3 clControl).txq = [] ∧
      ((lnk lkUp id []).linkCls 3 clControl).txOpen = 0 ∧ ((lnk lkUp id []).linkCls 3 clControl).credits ≠ 0 ∧ ((lnk lkUp id []).linkCls 3 clControl).unacked.length < 64) ∧
    ((lnk lkUp id []).fld R.MRD_LPEER_MODULE [3] = 5 ∧ (lnk lkUp id []).fld R.MRD_LSERIAL_SERIAL [3] = 77 ∧ (lnk lkUp id []).fld R.MRD_LPEER_FABRIC [3] = 0 ∧
      ((lnk lkUp id []).link 3).viols = [] ∧ (lnk lkUp id []).fld R.MRD_LCFG_VIOL_LIMIT [3] ≠ 1 ∧ (lnk lkUp id []).flag R.MRD_LPEER_NEIGHBOUR [3] = true) ∧
    ((lnk lkUp id []).jobPart 7 = 1 ∧ (lnk lkUp id []).jobShut 7 = false) := by
  refine ⟨⟨by simp [flit0, flitOf, show (flitBody flitH).length = 248 by decide +kernel], by decide +kernel, by decide +kernel, flitOf_crc _ (by decide +kernel)⟩, ?_⟩
  decide +kernel
/-- A null flit, one out of order, one that continues no message; and the good one without a credit to receive it. -/
theorem witness_LinkTraffic_flits :
    (∀ h ∈ [flitH + 2 ^ 60, flitH + 2 ^ 45, flitH - 2 ^ 59], (flitBody h).length = 248 ∧
      (let g := leAt (flitOf h) 0 8
       let x := (lnk lkUp id []).linkCls 3 3
       g = h ∧ hdClass g = 3 ∧ bits g 44 42 = 3 ∧ bits g 41 30 = x.txSeq ∧ bits g 29 24 = 0 ∧ x.rxSeq = 0 ∧ x.rxCredit ≠ 0)) ∧
    (bitAt (flitH + 2 ^ 60) 60 = true ∧ hdSeq (flitH + 2 ^ 45) = 1 ∧ hdSeq (flitH - 2 ^ 59) = 0 ∧ bitAt (flitH - 2 ^ 59) 59 = false ∧
      ((lnkCls 3 (fun x => { x with rxCredit := 0 })).linkCls 3 3).rxCredit = 0) ∧
    (((7#12).toNat + 4096 - seventh.seqNo) % 4096 = 0 ∧ ([] : List Flit).length + 1 < ((9#12).toNat + 4096 - seventh.seqNo) % 4096) ∧
    ((lnkAt 10000 lkUp).link 3).viols = [] ∧ ((lnkCls 0 (fun x => { x with unacked := [seventh] })).linkCls 3 0).ackAt + 10000 ≤ 10000 ∧
    ((lnk lkUp id [(R.MRD_LCFG_VIOL_LIMIT, [3], 1)]).fld R.MRD_LCFG_VIOL_LIMIT [3] = 1 ∧ ∀ p : Nat, ((lnk lkUp id []).coll p).runs = []) ∧
    (((lnkAt 3150000 lkUp).link 3).helloAt + 3150000 ≤ (lnkAt 3150000 lkUp).now ∧ (lnkAt 0 lkUp).now < ((lnkAt 0 lkUp).link 3).helloAt + 3150000) ∧
    (let m := { lnk lkUp id [(R.SHT_STATUS_STATE, [], 3)] with part := { one.part with holds := [(1, hdShut)] } }
     m.jobPart 7 = 1 ∧ m.jobShut 7 = true ∧ m.jobPart 8 = 0 ∧ m.jobShut 8 = false) := by
  iterate 5 refine And.intro (by decide +kernel) ?_
  refine ⟨⟨by decide +kernel, fun p => rfl⟩, by decide +kernel, by decide +kernel⟩
theorem witness_TimeOfTheModule :
    ((timed 1 id []).running = true ∧ (timed 1 id []).isRoot = false ∧ (timed 1 id []).srv.parent = 4 ∧ (timed 1 id []).linkUp 3 = true ∧
      ((timed 1 id []).linkCls 3 clTime).txq = [] ∧ ((timed 1 id []).linkCls 3 clTime).txOpen = 0 ∧ ((timed 1 id []).linkCls 3 clTime).credits ≠ 0 ∧
      ((timed 1 id []).linkCls 3 clTime).unacked.length < 16) ∧
    (Tbl.get 0 (timed 1 id []).srv.syncT1 3 = 1001 ∧ 160000 < halfInt (((320163000 : Int) - 1000) - ((320000000 : Int) - 320163000)) ∧ (timed 2 id []).gtState ≠ gtFree ∧
      halfInt (((1000 : Int) - 1000) - ((320000000 : Int) - 1000)) < -160000 ∧ (timed 1 id []).gtState = gtAcquiring) ∧
    ((timed 2 id []).gtState = gtSynced ∧ (timed 2 id []).srv.lastExch + 10 ^ 7 ≤ (timed 2 id []).now) ∧
    ((timed 1 id []).accepts = true ∧ (rooted 2 []).isRoot = true ∧ (rooted 2 []).srv.parent = 0 ∧ (∀ k : Nat, k < 10 → (rooted 2 []).lstate k ≠ lkUp) ∧
      (put (rooted 0 []) [(R.MRD_LSTATE_STATE, [3], lkUp)]).lstate 3 = lkUp ∧
      (rooted 0 []).gtState = gtFree ∧ (rooted 2 []).bestParent = none ∧
      (rooted 2 [(R.MRD_LSTATE_STATE, [3], lkUp), (R.MRD_LPEER_DISTANCE, [3], 2)]).bestParent = some 3 ∧ (lnk lkUp id []).isRoot = false ∧ (lnk lkUp id []).gtState = gtFree) ∧
    ((let m := timed 1 (fun x => { x with good := 7 }) []
      m.gtState = gtAcquiring ∧ m.srv.good = 7 ∧ halfInt (((320000100 : Int) - 1000) - ((320000000 : Int) - 900)) = 0) ∧ (timed 3 id []).gtState = gtHoldover ∧
      (timed 2 (fun x => { x with lastExch := 10000001 }) []).now < 10000001 + 10 ^ 7) := by
  decide +kernel
/-! ### Collectives -/

/-- An entry for 4 units from the start of HBM to 0x1000, of operation op on an axis. -/
def cEnt (op dtype axis peer : Nat) : List Byte :=
  entry 64 [(0, 4, 5), (4, 2, 1), (6, 1, op), (7, 1, dtype), (8, 1, axis), (10, 2, peer), (12, 4, 4), (16, 8, 2 * 2 ^ 60), (24, 8, 2 * 2 ^ 60 + 0x1000), (34, 1, 6), (35, 1, 3)]
def coll0 (slot : Nat) (e : List Byte) : Coll :=
  { slot := slot, ent := e, axis := leAt e 8 1, k := 0, start := 0, nth := 0, granted := [], acked := [], parts := [], doneSent := false, dones := [], deadline := 0,
    verdict := none, got := [], results := [], figs := [], poisoned := false, heard := [] }
/-- Partition 1 of module 9 as rank 1 of two on package axis 0 and of three on link axis 1, with modules 5 and 6 as the others behind
link 3; its engine is x. -/
def cll (x : CollSt) (l : List (Fld × List Nat × Nat)) : Mach :=
  let m := eng id
  let m := { m with tier := { m.tier with pages := [(2 ^ 24, some ⟨5, none⟩)] }, mrd := (lnk lkUp id []).mrd, colls := if x = CollSt.init then [] else [(1, x)] }
  let m := (m.store (sliceKey 3 (2 ^ 20)) (leBytes 2 5 ++ leBytes 2 9)).store (sliceKey 3 (2 ^ 20 + 8192)) (leBytes 2 5 ++ leBytes 2 9 ++ leBytes 2 6)
  let m := m.store (frameKey 5 0) (leBytes 4 0x3F800000 ++ leBytes 4 0x40000000 ++ leBytes 4 0x40400000)
  let to3 (k : Nat) : List (Fld × List Nat × Nat) := [(R.MRD_ROUTE_VALID, [k], 1), (R.MRD_ROUTE_LINKS, [k], 8)]
  put m ([(R.MRD_ID_MODULE, [], 9), (R.MRD_LSTATE_STATE, [3], lkUp), (R.COL_CJOB_JOB, [1], 7), (R.COL_TAXIS_SIZE, [1, 0], 2), (R.COL_TAXIS_RANK, [1, 0], 1),
    (R.COL_TAXIS_SIZE, [1, 1], 3), (R.COL_TAXIS_RANK, [1, 1], 1), (R.COL_TAXIS_LINKS, [1, 1], 8), (R.COL_CRING_BASE, [1], 2 ^ 13), (R.COL_CRING_ENTRIES, [1], 4),
    (R.COL_CMEMBERS_BASE, [1], 2 ^ 14), (R.COL_CSTAGE_SPACE, [1], 1), (R.COL_CSTAGE_BASE, [1], 32), (R.COL_CSTAGE_MIB, [1], 1),
    (R.COL_CSTAT_INFLIGHT, [1], x.fifo.length + x.runs.length)] ++ to3 5 ++ to3 6 ++ l)
/-- One entry at the front of the ring. -/
def cllE (e : List Byte) : Mach := cll { CollSt.init with fifo := [(2, e)] } []
/-- One collective in flight. -/
def cllR (c : Coll) (l : List (Fld × List Nat × Nat)) : Mach := cll { CollSt.init with runs := [c], counts := [(c.axis, 1)] } l
/-- A GRAD reduction for rank 2 that waits for its deadline. -/
def cDue : Coll := { coll0 2 ((cEnt 5 1 1 2).set 9 1) with deadline := 1, doneSent := true, dones := [0, 1] }

/-- BARRIER needs nothing of where the members of a package axis lie; the other operations are shown for members 0x100 apart, which the
spec leaves open (Config.memberOffset). -/
theorem witness_CollectiveEntries :
    ((cllE (cEnt 9 0 0 0)).running = true ∧ (cllE (cEnt 9 0 0 0)).held 1 = false ∧ (cllE (cEnt 9 0 0 0)).pstate 1 = psActive ∧
      ((cllE (cEnt 9 0 0 0)).coll 1).fifo = [(2, cEnt 9 0 0 0)] ∧ (cllE (cEnt 9 0 0 0)).collCheck 1 (coll0 2 (cEnt 9 0 0 0)) = crOk ∧
      (cllE (cEnt 9 0 0 0)).collCheck 1 (coll0 2 (cEnt 5 0 1 0)) ≠ crOk ∧ (coll0 2 (cEnt 9 0 0 0)).axis = leAt (cEnt 9 0 0 0) 8 1) ∧
    (Config.memberOffset = (fun r _ => 0x100 * r) → ∀ op ∈ [1, 2, 3, 4, 5, 6, 7, 8], (cllE (cEnt op (if op ∈ [1, 2, 5] then 1 else 0) 0 0)).collCheck 1
      (coll0 2 (cEnt op (if op ∈ [1, 2, 5] then 1 else 0) 0 0)) = crOk) ∧
    ((cllE (cEnt 8 0 1 0)).collCheck 1 (coll0 2 (cEnt 8 0 1 0)) = crOk ∧ (cllE (cEnt 8 0 1 0)).axisLinked 1 1 = true ∧ (cllE (cEnt 8 0 1 0)).axisRank 1 1 = 1 ∧
      ((cllE (cEnt 7 0 1 0)).routeLink ((cllE (cEnt 7 0 1 0)).member 1 1 0) 9 7 0).isSome = true ∧
      ((cllE (cEnt 5 1 1 0)).share 1 (coll0 2 (cEnt 5 1 1 0)) 1).1 = ((cllE (cEnt 5 1 1 0)).share 1 (coll0 2 (cEnt 5 1 1 0)) 1).2 ∧
      (∃ o ∈ (cllE (cEnt 5 1 1 0)).collOwners 1 (coll0 2 (cEnt 5 1 1 0)), o ≠ 1)) ∧
    ((cllR cDue []).shut 1 = false ∧ ((cllR cDue []).coll 1).runs = [cDue] ∧ cDue.start + 1000 * 10 ^ 6 ≤ { cllR cDue [] with now := 10 ^ 9 }.now ∧
      (cllR cDue [(R.COL_TDEADLINE_QUORUM, [1], 2)]).fld R.COL_TDEADLINE_QUORUM [1] = cDue.dones.length ∧ (cllR cDue []).fld R.COL_TDEADLINE_QUORUM [1] = 0 ∧
      cDue.dones.length < (cllR cDue []).axisSize 1 1 ∧ cDue.verdict = none ∧ cDue.doneSent = true ∧ (cllR cDue []).collOwners 1 cDue = [2] ∧
      cDue.deadline ≤ (cllR cDue []).now + 1 ∧ cDue.deadline ≠ 0 ∧ (cllR cDue []).pstate 1 ≠ psPaused ∧ cDue.op = coReduce ∧ cDue.grad = true ∧
      cDue.peer ≠ (cllR cDue []).axisRank 1 1 ∧ cDue.peer < (cllR cDue []).axisSize 1 1 ∧ 0 < cDue.count ∧
      ∀ r < (cllR cDue []).axisSize 1 1, r ≠ 1 → ((cllR cDue []).routeLink ((cllR cDue []).member 1 1 r) 9 7 0).isSome = true) := by
  refine ⟨by decide +kernel, fun h => ?_, by decide +kernel, by decide +kernel⟩
  unfold Mach.collCheck Mach.collPlace
  rw [h]
  decide +kernel
/-- The clauses of a link axis, and of an entry that does not start. -/
theorem witness_CollectiveEntries_clauses :
    ((put (cllE (cEnt 9 0 0 0)) [(R.PTN_PSTATE_STATE, [1], psPaused)]).pstate 1 = psPaused ∧ (cll CollSt.init []).coll 1 = CollSt.init ∧ ceOp (cEnt 9 0 0 0) = coBarrier ∧
      ceOp (cEnt 0 0 0 0) = 0 ∧ ((cllE (cEnt 0 0 0 0)).coll 1).fifo = [(2, cEnt 0 0 0 0)] ∧
      (cll { CollSt.init with fifo := [(2, cEnt 9 0 0 0)], drain := 2 } [(R.PTN_PSTATE_STATE, [1], psDraining)]).pstate 1 = psDraining) ∧
    (∀ op ∈ [1, 2, 3, 4, 5, 6, 7, 8, 9],
      let e := cEnt op (if op ∈ [1, 2, 5] then 1 else 0) 1 0
      let m := cllE e
      let d := coll0 2 e
      ((m.coll 1).early = [] ∧ (m.coll 1).runs = [] ∧ (m.coll 1).fifo = [(2, e)] ∧ m.axisLinked 1 1 = true ∧ m.running = true) ∧
      (op ≠ 6 → m.collCheck 1 d = crOk) ∧ (∀ r < 3, r ≠ 1 → (m.routeLink (m.member 1 1 r) m.moduleId (m.jobOf 1) 0).isSome = true)) ∧
    ((cllE (cEnt 1 1 1 0)).share 1 (coll0 2 (cEnt 1 1 1 0)) 1 = (2, 4) ∧ 2 * (2 * 4) ≤ (cllE (cEnt 1 1 1 0)).stageSize 1 ∧
      (cllE (cEnt 1 1 1 0)).collOwners 1 (coll0 2 (cEnt 1 1 1 0)) = [0, 1]) ∧
    (∀ op ∈ [3, 4],
      let m := cllE (cEnt op 0 1 0)
      let d := coll0 2 (cEnt op 0 1 0)
      let own := m.collRead 1 (adPlus d.src (m.blockOut 1 d 1)) d.unit 0 (m.blockUnits 1 d)
      let w := if op = 4 then m else m.collWrite 1 d.dst (m.blockIn 1 d 1) own.1 own.2
      ∀ r ∈ m.collSources 1 d, (w.routeLink (w.member 1 1 r) w.moduleId (w.jobOf 1) 0).isSome = true) := by
  decide +kernel
/-- A SEND meets the RECV of the same package axis that names it, with its count and with another; the RECV of the rank that it does not name stays. -/
theorem witness_CollectiveEntries_pair : ∀ n ∈ [4, 5],
    let o := { coll0 1 ((cEnt 8 0 0 1).set 12 (BitVec.ofNat 8 n)) with k := 7 }
    let m := cll { CollSt.init with fifo := [(2, cEnt 7 0 0 0)], runs := [o], counts := [(0, 8)] } []
    (m.coll 1).runs = [o] ∧ o.axis = 0 ∧ o.op = coRecv ∧ o.count = n ∧ o.k ≠ Tbl.get 0 (m.coll 1).counts 0 ∧ (coll0 2 (cEnt 7 0 0 0)).count = 4 ∧
      o.peer ≠ (coll0 2 (cEnt 7 0 0 0)).peer ∧ o.dies = (coll0 2 (cEnt 7 0 0 0)).dies ∧ (coll0 1 (cEnt 8 0 0 0)).peer = (coll0 2 (cEnt 7 0 0 0)).peer ∧
      m.axisLinked 1 0 = false := by decide +kernel
/-- A message of job 7 on link 3 from rank 0 (module 5) or rank 2 (module 6) of axis 1. -/
def hd0 : CollHead := ⟨3, 5, 7, 1, 0, 0⟩
def hd2 : CollHead := ⟨3, 6, 7, 1, 0, 2⟩
/-- A part of a rank with room in staging. -/
def partOf (r : Nat) : CPart := { rank := r, off := 64, len := 8, got := 0, here := false, poisoned := false }
/-- An ALL_REDUCE of n units on axis 1 whose parts have their GRANT; one whose contributions are DONE. -/
def cAr (n : Nat) : Coll := { coll0 2 ((cEnt 1 1 1 0).set 12 (BitVec.ofNat 8 n)) with parts := [partOf 0, partOf 2] }
def cArD (n : Nat) : Coll := { cAr n with doneSent := true }
/-- A GRAD ALL_REDUCE of the data axis, timed. -/
def cGr : Coll := { coll0 2 ((cEnt 1 1 0 0).set 9 1) with doneSent := true, parts := [partOf 0] }
/-- A REDUCE to this rank. -/
def cRd : Coll := { coll0 2 (cEnt 5 1 1 1) with parts := [partOf 0, partOf 2] }
def timedLinks : List (Fld × List Nat × Nat) := [(R.COL_TAXIS_LINKS, [1, 0], 8), (R.COL_TCTL_STRAGGLER, [1], 1), (R.COL_TDEADLINE_DEADLINE_US, [1], 5)]

/-- Staging allows no further GRANT, and the members are reached. -/
theorem witness_CollectiveMessages_settled :
    (∀ c ∈ [cAr 4, cAr 1, cArD 4, cArD 1, cRd, { cArD 4 with verdict := some ([0, 1], [], 2) }] ++ [3, 4, 6, 7, 8, 9].map (fun op => coll0 2 (cEnt op 0 1 0)),
      ((cllR c []).grantAll 1).2 = [] ∧ (cllR c []).jobOf 1 = 7) ∧
    ((cllR cGr timedLinks).grantAll 1).2 = [] ∧
    (let c := cArD 4
     let m := cllR c []
     let data := [0, 1].flatMap (fun r => if r = 1 then [(m.collRead 1 c.src c.unit 2 4).1] else (c.parts.filter (fun q => q.rank == r)).map (fun q => (m.collRead 1 (m.stageAddr 1 q.off) 1 0 q.len).1))
     Tbl.get 0 c.got 1 = 0 ∧ (4 - 2) * c.unit ≤ (collBytes c.dtype (collSum c.dtype (data.map (collElems c.dtype)))).length) := by
  iterate 2 refine And.intro (by decide +kernel) ?_
  decide +kernel
theorem witness_CollectiveMessages :
    ((cllR (cAr 4) []).jobShut 7 = false ∧ (cllR (cAr 4) []).jobPart 7 = 1 ∧ (cllR (cAr 4) []).jobPart 8 = 0 ∧ (cllR (cAr 4) []).member 1 1 0 = 5 ∧
      (cllR (cAr 4) []).member 1 1 2 = 6 ∧ (cllR (cAr 4) []).axisSize 1 1 = 3 ∧ (cllR (cAr 4) []).axisLinked 1 1 = true ∧ (cllR (cAr 4) []).axisRank 1 1 = 1 ∧
      ((cllR (cAr 4) []).link 3).viols = [] ∧ (cllR (cAr 4) []).fld R.MRD_LCFG_VIOL_LIMIT [3] ≠ 1 ∧ ((cll CollSt.init []).coll 1).runs = []) ∧
    ((cAr 4).reduces = true ∧ (cllR (cAr 4) []).collOwners 1 (cAr 4) = [0, 1] ∧ (cllR (cAr 1) []).collOwners 1 (cAr 1) = [0] ∧
      (∀ r ∈ [0, 2], ((cllR (cAr 4) []).routeLink ((cllR (cAr 4) []).member 1 1 r) 9 7 0).isSome = true) ∧
      ((put (cllR (cAr 4) []) [(R.MRD_ROUTE_LINKS, [5], 0)]).routeLink 5 9 7 0).isSome = false) ∧
    ((cllR cGr timedLinks).collTimed 1 cGr = true ∧ (cllR cGr timedLinks).member 1 0 0 = 5 ∧ (cllR cGr timedLinks).axisLinked 1 0 = true ∧
      (cllR { cGr with ent := (cEnt 1 1 0 0).set 9 0 } timedLinks).collTimed 1 { cGr with ent := (cEnt 1 1 0 0).set 9 0 } = false ∧ cGr.dones = [] ∧ (cllR cGr []).collTimed 1 cGr = false) ∧
    (cRd.op = coReduce ∧ cRd.grad = false ∧ cRd.peer = 1 ∧ cRd.count = 4) ∧
    (let c := { cArD 4 with parts := [partOf 0] }
     c.parts.find? (fun z => z.rank == 0 && !z.here) = some (partOf 0)) ∧
    ((coll0 2 (cEnt 3 0 1 0)).op = coAllGather ∧ 2 ∈ (cllR (coll0 2 (cEnt 3 0 1 0)) []).collSources 1 (coll0 2 (cEnt 3 0 1 0)) ∧
      (coll0 2 (cEnt 8 0 1 0)).op = coRecv ∧ (coll0 2 (cEnt 8 0 1 0)).peer = 0 ∧ (coll0 2 (cEnt 7 0 1 0)).op = coSend ∧ (coll0 2 (cEnt 9 0 1 0)).op = coBarrier) ∧
    (let m := cllR (cAr 4) [(R.CKP_RECV_SENDER, [1], 5), (R.CKP_CTL_BUDDY, [1], 5), (R.CKP_STATUS_STATE, [1], ckRestoring)]
     m.fld R.CKP_RECV_SENDER [1] = 5 ∧ m.ckState 1 = ckRestoring ∧ m.fld R.CKP_CTL_BUDDY [1] = 5) := by
  decide +kernel
/-- The same rank as coordinator, a missing route, and collectives that have ended. -/
def atZero : List (Fld × List Nat × Nat) := [(R.COL_TAXIS_RANK, [1, 1], 0)]
def late0 : CLate := { axis := 1, k := 0, bucket := 1, step := 5, ranks := [0], len := 8, got := [] }
def cEnded (dues lates : List CLate) : Mach := cll { CollSt.init with counts := [(1, 1)], dueDones := dues, lates := lates } [(R.COL_TCTL_STRAGGLER, [1], 1)]
/-- The clauses on one collective in flight and on one that has ended. -/
theorem witness_CollectiveMessages_clauses :
    ((let m := { cllR (cAr 4) [(R.SHT_STATUS_STATE, [], 3)] with part := { one.part with holds := [(1, hdShut)] } }
      m.jobShut 7 = true) ∧ hd0.src.toNat = 5 ∧ hd2.src.toNat = 6 ∧ hd0.k = 0 ∧ hd0.axis = 1) ∧
    ((cAr 4).reduces = true ∧ (cAr 4).doneSent = false ∧ (cAr 4).granted = [] ∧ (cAr 4).verdict = none ∧ (cAr 4).k = 0 ∧ (cAr 4).axis = 1 ∧ (cAr 4).deadline = 0 ∧
      (cllR (cAr 4) []).collOwners 1 (cAr 4) = [0, 1] ∧ (cllR (cAr 4) atZero).axisRank 1 1 = 0 ∧ (cllR (cAr 4) atZero).collTimed 1 (cAr 4) = false ∧
      (insertNat 0 (cAr 4).dones).length ≠ 3) ∧
    (let c := coll0 2 (cEnt 3 0 1 0)
     c.op = coAllGather ∧ (cllR c []).collSources 1 c = [0, 2] ∧ (cllR c []).collTargets 1 c = [0, 2] ∧ c.results = [] ∧ c.acked = []) ∧
    (let c := { cArD 1 with dones := [0, 1] }
     (insertNat 2 c.dones).length = 3 ∧ c.op = coAllReduce ∧ (cllR c []).collOwners 1 c = [0] ∧ c.results = []) ∧
    ((coll0 2 (cEnt 5 1 1 2)).op = coReduce ∧ (cllR (coll0 2 (cEnt 5 1 1 2)) []).collOwners 1 (coll0 2 (cEnt 5 1 1 2)) = [2] ∧
      (cllR cRd []).collOwners 1 cRd = [1]) ∧
    (let c := { cArD 4 with parts := [partOf 0] }
     let mine := (cllR c []).share 1 c 1
     mine = (2, 4) ∧ ∀ r ∈ [0, 2], (((cllR c []).collWrite 1 c.dst (mine.1 * c.unit) (List.replicate 8 0) false).routeLink
       (((cllR c []).collWrite 1 c.dst (mine.1 * c.unit) (List.replicate 8 0) false).member 1 1 r) 9 7 0).isSome = true) ∧
    ({ cArD 4 with verdict := some ([0, 1], [], 2) }.verdict.isSome = true ∧ (cllR (cAr 1) []).collOwners 1 (cAr 1) = [0]) ∧
    ((coll0 2 (cEnt 9 0 1 0)).op = coBarrier ∧ (insertNat 0 (coll0 2 (cEnt 9 0 1 0)).heard).length ≠ 3 ∧ (insertNat 0 [1, 2]).length = 3) ∧
    (((cEnded [late0] []).coll 1).dueDones = [late0] ∧ ((cEnded [] [late0]).coll 1).lates = [late0] ∧ Tbl.get 0 ((cEnded [] []).coll 1).counts 1 = 1 ∧
      ((cEnded [] []).coll 1).runs = [] ∧ (cEnded [] []).fld R.COL_TCTL_STRAGGLER [1] = 1 ∧ (cllR (cAr 4) []).fld R.COL_TCTL_STRAGGLER [1] = 0) ∧
    (let c := coll0 2 (cEnt 8 0 1 0)
     c.op = coRecv ∧ c.peer = 0 ∧ c.nth = 0 ∧ c.granted = [] ∧ c.count = 4 ∧ c.dtype = 0) ∧
    ((cllR (cAr 4) []).ckpt 1 = Ckpt.init ∧ (cllR (cAr 4) []).exporting 1 = false ∧ (cllR (cAr 4) []).fld R.CKP_RECV_SENDER [1] ≠ 5) := by
  decide +kernel
/-! ### Partitions -/

/-- Partition 1 in a state, with channels 0 and 1 good. -/
def prt (st : Nat) (l : List (Fld × List Nat × Nat)) : Mach := put one ([(R.PTN_PSTATE_STATE, [1], st), (R.MEM_CHAN_STATE, [0], 1), (R.MEM_CHAN_STATE, [1], 1)] ++ l)
/-- Its loading has come out with a code. -/
def prtLoaded (code : Nat) : Mach := { prt psLoading [] with part := { one.part with loading := [(1, code + 1)] } }
/-- Its teardown is under way, with slice 3 its own. -/
def prtTear : Mach := { prt psActive [] with part := { one.part with tearing := [1] }, tier := { one.tier with sliceOwner := [(3, 1)] } }
/-- Stopped with the image still to come. -/
def prtShut (state : Nat) : Mach := { prt psActive [(R.SHT_STATUS_STATE, [], state)] with part := { one.part with holds := [(1, hdShut)] } }
theorem witness_PartitionLifecycle :
    (((prt psDefined []).accepts = true ∧ (prtShut 3).shut 1 = true ∧ (prt psDefined []).shut 1 = false ∧ (prt psDefined []).pstate 1 = psDefined ∧
      (prt psTornDown []).pstate 1 = psTornDown ∧ (prt psDefined []).margining = false ∧ (prt psDefined [(R.PRT_MARGIN_STAT_BUSY, [], 1)]).margining = true) ∧
      (prt psDefined [(R.FAR_PQUOTA_PAGES, [1], 1)]).fld R.FAR_PQUOTA_PAGES [1] ≠ 0 ∧
      ∀ x ∈ (prt psDefined [(R.FAR_PQUOTA_PAGES, [1], 1)]).farPorts 1, (prt psDefined [(R.FAR_PQUOTA_PAGES, [1], 1)]).farUp x = false) ∧
    ((prtLoaded 0).running = true ∧ Tbl.get 0 (prtLoaded 0).part.loading 1 = 0 + 1 ∧ Tbl.get 0 (prtLoaded 4).part.loading 1 = 4 + 1 ∧ (prtLoaded 0).conf.cfg.shared 1 = false) ∧
    ((prt psActive []).pstate 1 = psActive ∧ (prt psPaused []).pstate 1 = psPaused ∧ (prt psDraining []).pstate 1 = psDraining ∧
      (prt psDraining []).drained 1 = true) ∧
    ((prtShut 3).tearWaits 1 = true ∧ (prtShut 5).tearWaits 1 = false ∧ (prt psActive []).part.tearing.contains 1 = false ∧ prtTear.part.tearing.contains 1 = true ∧
      3 ∈ prtTear.slicesOf 1) := by
  decide +kernel

/-- Partitions 1 and 2 share panes 0 and 1 in slices of 10 and 20 µs. -/
def grp (sts : List Nat) (cur : Nat) (f : PartSt → PartSt) : Mach :=
  let e (p us : Nat) : List Byte := entry 128 [(0, 1, p), (1, 1, 1), (3, 1, p), (28, 4, us), (32, 1, 3)]
  let c := one.conf.cfg
  let m := { one with conf := { one.conf with cfg := { c with partitions := [e 1 10, e 2 20] } }, part := f one.part }
  put m [(R.PTN_PSTATE_STATE, [1], sts.getD 0 0), (R.PTN_PSTATE_STATE, [2], sts.getD 1 0), (R.PTN_GROUP_CURRENT, [0], cur)]
/-- A command with a bound of 100 cycles that has run for n thousandths of a cycle, as the draining and as the summing matrix command, or in the
vector engine. -/
def wrun (n : Nat) : Run := { mxRun with bound := 100, ran := n }
def wdog (n : Nat) : Mach := withPane one 0 (fun p => { p with mdrain := some (wrun 0), mrun := some (wrun n), vrun := some (wrun n) })
/-- Region 2 of n pages in a state with frames fs. -/
def reg2 (st n : Nat) (fs : List Nat) (fill : List Nat) (l : List (Fld × List Nat × Nat)) : Mach :=
  let m := put one ([(R.PTN_SREG_STATE, [2], st), (R.PTN_SREG_PAGES, [2], n), (R.PTN_SREG_SRC, [2], 1), (R.MEM_CHAN_STATE, [0], 1), (R.MEM_CHAN_STATE, [1], 1)] ++ l)
  { m with part := { m.part with regionFrames := [(2, fs)], filling := fill }, tier := { m.tier with frameOwner := fs.map (fun f => (f, 66)) } }
/-- It is mapped by partition 1. -/
def reg2Map (pst : Nat) : Mach :=
  let m := reg2 2 1 [512] [] [(R.PTN_PSTATE_STATE, [1], pst)]
  { m with tier := { m.tier with pages := [(2 ^ 24, some ⟨512, some 2⟩)] } }
/-- Where no channel is live no frame is free. -/
theorem no_frame_free (m : Mach) (h : ∀ e ∈ m.regs, e.1 < 0x800000 ∨ 0x800000 + 8 * 512 ≤ e.1) (f : Nat) : m.frameFree f = false := by
  have g : m.fld R.MEM_CHAN_STATE [f % 512] = 0 := by
    apply fld_unlisted
    intro e he
    have := h e he
    simp only [Fld.addr, R.MEM_CHAN_STATE, List.zip_cons_cons, List.zip_nil_right, List.map_cons, List.map_nil, List.sum_cons, List.sum_nil]
    omega
  simp [Mach.frameFree, Mach.chanLive, g]
theorem frames_none_free : ∀ f, (put one [(R.PTN_SREG_PAGES, [2], 1)]).frameFree f = false := no_frame_free _ (by decide +kernel)
theorem witness_SlicesRegionsAndMetering :
    ((grp [2, 0] 1 id).fld R.PTN_GROUP_CURRENT [0] = 1 ∧ (grp [2, 0] 1 id).groupShut 0 = false ∧ (grp [2, 0] 1 id).running = true ∧
      Tbl.get 0 (grp [2, 0] 1 id).part.sliceEnd 0 ≤ (grp [2, 0] 1 id).now ∧ (grp [2, 0] 1 id).inRotation 1 = true ∧ (grp [2, 0] 1 id).afterMember 0 1 = [1] ∧
      (grp [2, 2] 1 id).afterMember 0 1 ≠ [1] ∧ (grp [0, 2] 1 id).inRotation 1 = false) ∧
    ((0 : Nat) ∉ (grp [2, 0] 1 id).part.left ∧ (1 : Nat) ∉ (grp [2, 0] 1 id).part.tearing ∧ (0 : Nat) ∈ (grp [2, 0] 1 (fun x => { x with left := [0] })).part.left ∧
      ((withPane one 0 (fun p => { p with split := [wrun 200000] })).pane 0).split = [wrun 200000]) ∧
    ((grp [2, 2] 1 (fun x => { x with switching := [(0, 1)] })).groupBusy 0 = false ∧ Tbl.get 0 (grp [2, 2] 1 (fun x => { x with switching := [(0, 1)] })).part.switching 0 ≠ 0 ∧
      (grp [0, 0] 1 id).afterMember 0 1 = [] ∧ (grp [2, 2] 1 id).afterMember 0 1 = [2, 1] ∧ Tbl.get 0 (grp [2, 2] 1 id).part.debt 2 < (grp [2, 2] 1 id).sliceTicks 2) ∧
    (((wdog 200000).pane 0).mrun = some (wrun 200000) ∧ ((wdog 200000).pane 0).mdrain = some (wrun 0) ∧ ((wdog 200000).pane 0).vrun = some (wrun 200000) ∧
      mxRun.cmd.part = 1 ∧ 2 * 100 * 1000 ≤ (wrun 200000).ran ∧ (wrun 199999).ran < 2 * (wrun 199999).bound * 1000 ∧ (wdog 200000).core.stopped.contains 0 = false ∧
      (wdog 200000).running = true ∧ (wdog 200000).pstate 1 = psActive) ∧
    ((grp [2, 0] 1 (fun x => { x with switching := [(0, 1)] })).afterMember 0 1 = [1] ∧ Tbl.get 0 (grp [2, 0] 1 id).part.debt 1 +
      (Tbl.get 0 (grp [2, 0] 1 id).part.overrun 0 - 1) < (grp [2, 0] 1 id).sliceTicks 1 ∧ ∀ a ∈ (grp [2, 0] 1 id).groupPanes 0, ((grp [2, 0] 1 id).pane a).cruns = []) ∧
    ((reg2 0 1 [] [] []).accepts = true ∧ (reg2 0 1 [] [] []).fld R.PTN_SREG_STATE [2] = 0 ∧ (reg2 0 1 [] [] []).margining = false ∧
      (Mach.takePages (64 + 2) (fun _ => 0xFFFF) 1 (reg2 0 1 [] [] []) 0 0 []).2.1 = 0 ∧ (put one [(R.PTN_SREG_PAGES, [2], 1)]).fld R.PTN_SREG_PAGES [2] ≠ 0) ∧
    ((reg2Map psActive).fld R.PTN_SREG_STATE [2] = 2 ∧
      (((reg2Map psActive).mappers 2).any (fun p => (reg2Map psActive).pstate p != psNone && (reg2Map psActive).pstate p != psDefined && (reg2Map psActive).pstate p != psTornDown)) = true ∧
      ((reg2 2 1 [512] [] []).mappers 2) = [] ∧ (reg2 2 1 [512] [] []).fld R.MEM_GOLD_CTL_STATE [2] ≠ 1) ∧
    ((reg2 1 1 [512] [2] [(R.PTN_SREG_SRC, [2], 0)]).provSegs 0 0 (2 ^ 21) = none ∧ ((reg2 3 1 [512] [] []).fld R.PTN_SREG_STATE [2] = 3) ∧
      (let m := { reg2 0 1 [] [] [(R.PRT_MARGIN_STAT_BUSY, [], 1)] with pwr := { one.pwr with margin := 1, target := 0 } }
       m.margining = true ∧ m.pwr.margin = 1)) ∧
    ((reg2 1 1 [512] [2] []).part.filling.contains 2 = true ∧ (reg2 1 1 [512] [2] []).regionFrames 2 = [512] ∧ (reg2 1 1 [512] [2] []).fld R.PTN_SREG_SRC [2] ≠ 0 ∧
      (reg2 1 1 [512] [2] []).provSegs 1 0 (2 ^ 21) = some [(hostKey 0 0 0, 2 ^ 21)] ∧ (reg2 1 1 [512] [2] []).gone (frameKey 512 0) = false ∧
      Memory.wf (reg2 1 1 [512] [2] []).mem = true) := by
  iterate 3 refine And.intro (by decide +kernel) ?_
  decide +kernel
/-! ### Counters and trace -/

/-- The provider's counter buffer with two slots in host memory, sampled each microsecond. -/
def smp (t : Nat) (f : SrvSt → SrvSt) : Mach :=
  put { one with now := t, srv := f one.srv } [(R.SRV_CCFG_INTERVAL_US, [0], 1), (R.SRV_CCFG_SLOTS, [0], 2), (R.SRV_CCFG_ENABLE, [0], 1)]
/-- A record of pane 0 stamped t, and one of 32 bytes after it. -/
def trace1 (t : Nat) : List Byte := entry 32 [(0, 8, t), (10, 1, 1)]
/-- The provider's trace in a state, a pre-trigger ring of 64 KiB records of four, and a port holding l. -/
def trcAt (st : Nat) (l : List (List Byte)) (x : List (Fld × List Nat × Nat)) : Mach :=
  put { one with now := 900, srv := { one.srv with ports := if l.isEmpty then [] else [(0, l)] } }
    ([(R.SRV_TSTAT_STATE, [0], st), (R.SRV_TREGION_PRE, [0], 1), (R.SRV_TREGION_SIZE, [0], 4)] ++ x)
theorem witness_CountersAndTrace :
    ((smp 1000 id).running = true ∧ (smp 1000 id).flag R.SRV_CCFG_ENABLE [0] = true ∧ (smp 1000 id).fld R.SRV_CCFG_INTERVAL_US [0] * 1000 ≠ 0 ∧
      (smp 1000 id).now % ((smp 1000 id).fld R.SRV_CCFG_INTERVAL_US [0] * 1000) = 0 ∧ ¬ (smp 1001 id).now % ((smp 1001 id).fld R.SRV_CCFG_INTERVAL_US [0] * 1000) = 0) ∧
    ((trcAt 0 [] []).accepts = true ∧ (trcAt 0 [] []).traceRegionOk 0 = true ∧ (trcAt 0 [] [(R.SRV_TREGION_PRE, [0], 4)]).traceRegionOk 0 = false ∧
      (trcAt 1 [] []).fld R.SRV_TTRIG_SOURCE [0] = 0 ∧ (trcAt 1 [] []).fld R.SRV_TSTAT_STATE [0] = 1 ∧
      (trcAt 1 [] [(R.SRV_TTRIG_SOURCE, [0], 1), (R.SRV_TTIME_TIME, [0], 900)]).fld R.SRV_TTIME_TIME [0] ≤ 900 ∧
      ¬ (trcAt 1 [] [(R.SRV_TTRIG_SOURCE, [0], 1), (R.SRV_TTIME_TIME, [0], 901)]).fld R.SRV_TTIME_TIME [0] ≤ 900) ∧
    ((trcAt 1 [trace1 5] []).tracePort 0 0 = trace1 5 :: [] ∧ (trace1 5).length = 32 ∧ (trcAt 2 [trace1 5] []).fld R.SRV_TSTAT_STATE [0] = 2 ∧
      (trcAt 3 [trace1 5] []).fld R.SRV_TSTAT_STATE [0] = 3 ∧
      leAt (trace1 5) 0 8 < (trcAt 2 [trace1 5] [(R.SRV_TTRIGT_TRIG_TIME, [0], 6)]).fld R.SRV_TTRIGT_TRIG_TIME [0] ∧ ¬ leAt (trace1 5) 0 8 < (trcAt 2 [trace1 5] []).fld R.SRV_TTRIGT_TRIG_TIME [0] ∧
      (trcAt 2 [trace1 5] []).flag R.SRV_TSTAT_WRAPPED [0] = false ∧ (trcAt 2 [trace1 5] [(R.SRV_TSTAT_WRAPPED, [0], 1)]).flag R.SRV_TSTAT_WRAPPED [0] = true ∧
      (∃ key, (trcAt 2 [trace1 5] []).traceKey 0 0 = some key ∧ Tbl.get 0 (trcAt 2 [trace1 5] []).srv.ringOldest 0 < (trcAt 2 [trace1 5] []).loadLe key 8 + 1 ∧
        (trcAt 2 [trace1 5] []).gone key = false) ∧
      1 * 65536 + (trcAt 2 [trace1 5] [(R.SRV_TSTAT_POST_COUNT, [0], 196607)]).fld R.SRV_TSTAT_POST_COUNT [0] + 1 = (trcAt 2 [] []).fld R.SRV_TREGION_SIZE [0] * 65536) := by
  refine ⟨by decide +kernel, by decide +kernel, ?_⟩
  iterate 8 refine And.intro (by decide +kernel) ?_
  refine ⟨⟨hostKey 0 0 0, by decide +kernel⟩, by decide +kernel⟩
/-- The provider's record of slot 0 lies in one piece from the start of its buffer. -/
theorem witness_CountersAndTrace_record (i : Nat) (h : 32 * i < 13856) :
    (smp 1000 id).bufKey 0 ((smp 1000 id).fld R.SRV_CBUF_SPACE [0]) ((smp 1000 id).fld R.SRV_CBUF_BASE [0]) (0 + 32 * i) = some (hostKey 0 0 0 + 32 * i) ∧
      (smp 1000 id).gone (hostKey 0 0 0 + 32 * i) = false := by
  have e : (smp 1000 id).fld R.SRV_CBUF_BASE [0] = 0 := by decide +kernel
  have k : hostKey 0 0 0 + 32 * i = 16 * 2 ^ 72 + 32 * i := rfl
  constructor
  · rw [e, k]
    simp only [Mach.bufKey, if_pos, hostKey, memKey, Option.some.injEq]
    omega
  · have g (m : Mach) (x : Nat) (d : x / 2 ^ 72 = 16) : m.gone x = false := by
      unfold Mach.gone
      rw [d]
      rfl
    exact g _ _ (by rw [k]; omega)
/-! ### The Shutter -/

/-- Module 9 with link 3 UP, the Shutter in a state for the whole module, a destination of 1 MiB in host memory. -/
def sht (st : Nat) (f : Mach → Mach) (l : List (Fld × List Nat × Nat)) : Mach :=
  put (f { lnk lkUp id [] with now := 5000 }) ([(R.SHT_STATUS_STATE, [], st), (R.SHT_DEST_SPACE, [], 8), (R.SHT_DESTLEN_MIB, [], 1)] ++ l)
/-- Its stop in force holds partition 1. -/
def shtHeld (noscan : Bool) (m : Mach) : Mach :=
  { m with sht := { m.sht with parts := [1], noscan := noscan }, part := { m.part with holds := [(1, hdShut)] } }
/-- A fabric-wide request of module 4 at a time. -/
def sreq (scope time : Nat) (reopen : Bool) : ShutReq := { origin := 4, job := 0, id := 17, time := time, reopen := reopen, scope := scope, part := 0, noscan := false }

theorem witness_ShutterStopAndReopen :
    ((sht 0 id []).accepts = true ∧ (sht 0 id []).lc ≠ 2 ∧ (sht 0 id []).fld R.SHT_DEST_SPACE [] = 8 ∧ (sht 0 id []).fld R.SHT_DESTLEN_MIB [] ≠ 0 ∧
      (sht 0 id [(R.SHT_DESTLEN_MIB, [], 0)]).fld R.SHT_DESTLEN_MIB [] = 0 ∧ (sht 1 id [(R.SHT_TSTOP_TIME, [], 9000)]).now + 64 < (sht 1 id [(R.SHT_TSTOP_TIME, [], 9000)]).fld R.SHT_TSTOP_TIME [] ∧
      (sht 1 id [(R.SHT_TSTOP_TIME, [], 5010)]).fld R.SHT_TSTOP_TIME [] < (sht 1 id []).now + 64 ∧ (sht 0 id []).fld R.SEC_LC_STATE [] = 0 ∧
      (sht 0 id [(R.SEC_LC_STATE, [], 2)]).lc = 2 ∧ (∀ st ∈ [0, 1, 2, 3, 4, 5, 6], (sht st id []).shtState = st)) ∧
    (scPartition = 1 ∧ (0 : Byte) = 0 ∧ 32 < (33 : Byte).toNat ∧ ¬ ((1 : Byte) = 0 ∨ 32 < (1 : Byte).toNat) ∧
      (sht 1 id [(R.SHT_TSTOP_TIME, [], 5064)]).now + 64 = (sht 1 id [(R.SHT_TSTOP_TIME, [], 5064)]).fld R.SHT_TSTOP_TIME [] ∧
      (sht 1 id []).scopeCovers (scModule, 0, 0) (scPartition, 1, 0) = true ∧ (sht 1 id []).scopeCovers (scPartition, 1, 0) (scModule, 0, 0) = false ∧
      (sht 1 id [(R.SHT_STATUS_SCOPE, [], scPartition)]).fld R.SHT_STATUS_SCOPE [] = scPartition) ∧
    (scModule = (sht 3 id []).fld R.SHT_STATUS_SCOPE [] ∧ ¬ scFabric = (sht 3 id []).fld R.SHT_STATUS_SCOPE []) ∧
    ((∀ p ∈ (sht 1 id []).shutParts scModule 0 0, ∀ q ∈ (sht 1 id []).conf.cfg.panes p, ((sht 1 id []).pane q).cruns = []) ∧
      (sht 3 id []).reopenFits (sreq scFabric 6000 true) = false ∧
      (sht 3 id [(R.SHT_STATUS_SCOPE, [], scFabric), (R.SHT_REQ_REQ_ID, [], 17)]).reopenFits (sreq scFabric 6000 true) = true) ∧
    ((sht 1 id []).running = true ∧ (sht 1 id []).fld R.SHT_TSTOP_TIME [] ≤ (sht 1 id []).now ∧ (sht 1 id []).fld R.GRT_STATUS_STATE [] ≠ gtSynced) ∧
    (∀ q ∈ (sht 2 (shtHeld false) []).shutIslands, 384 ≤ q ∨ (sht 2 (shtHeld false) []).paneStill q = true) ∧
    ((sht 2 (shtHeld false) []).sht.parts = [1] ∧ (sht 2 (shtHeld false) []).memberStill 1 = true) ∧
    (¬ ∀ q ∈ (sht 2 (fun m => shtHeld false (withPane m 0 (fun p => { p with mrun := some mxRun }))) []).shutIslands,
      384 ≤ q ∨ (sht 2 (fun m => shtHeld false (withPane m 0 (fun p => { p with mrun := some mxRun }))) []).paneStill q = true) ∧
    ((sht 2 (shtHeld true) []).sht.noscan = true ∧ (sht 2 (shtHeld false) []).sht.tears = [] ∧ (sht 2 (shtHeld false) []).sht.noscan = false) ∧
    ((sht 4 (shtHeld false) []).scanDest 0 = some ([(hostKey 0 0 0, 2 ^ 20)], 2 ^ 20) ∧ (sht 4 (shtHeld false) []).gone (hostKey 0 0 0) = false) ∧
    ((sht 6 (shtHeld false) []).fld R.SHT_TOPEN_TIME [] ≤ (sht 6 (shtHeld false) []).now ∧ (sht 6 (shtHeld false) []).sht.flits = [] ∧
      ¬ (sht 6 (shtHeld false) [(R.SHT_TOPEN_TIME, [], 6000)]).fld R.SHT_TOPEN_TIME [] ≤ (sht 6 (shtHeld false) []).now) ∧
    ((sht 0 id []).linkUp 3 = true ∧ ShutReq.ofBody [] = none ∧ ((sht 0 id []).link 3).viols = [] ∧ (sht 0 id []).fld R.MRD_LCFG_VIOL_LIMIT [3] ≠ 1 ∧
      (∀ sc ∈ [scFabric, scJob], ∀ t ∈ [4000, 6000], ∀ o ∈ [false, true], ShutReq.ofBody (sreq sc t o).body = some (sreq sc t o)) ∧
      (sreq scFabric 6000 false).key ∉ (sht 0 id []).mrd.seenReq ∧
      (sreq scFabric 6000 false).key ∈ (sht 0 (fun m => { m with mrd := { m.mrd with seenReq := [(4, 34)] } }) []).mrd.seenReq ∧
      (sht 0 id []).jobPart 0 = 0 ∧ (sht 0 id []).lc ≠ 4 ∧ (sht 0 id []).now ≤ 6000 ∧ 4000 < (sht 0 id []).now) := by
  iterate 11 refine And.intro (by decide +kernel) ?_
  decide +kernel
/-- Every image fits a destination of 256 bytes or more, whatever its open sections hold. -/
theorem witness_ShutterStopAndReopen_fits (m : Mach) (n : Nv) :
    let all := m.scanSections 0
    let l := scanFit (2 ^ 20) all.length all
    (m.scanImage n 0 l (decide (l.length < all.length))).length ≤ 2 ^ 20 := by
  intro all l
  rw [Laws.scanImage_length]
  exact Laws.scanFit_le _ (by decide) _ _ (Nat.le_refl _)
/-! ### Faults and repair -/

/-- Partition 1 with pane 0 present in slot 0 of die 0, where slots gs are good, and its stage 1 with SPARE. -/
def hurt (spare : Nat) (gs : Nat) (f : Mach → Mach) : Mach :=
  let c := one.conf.cfg
  let m := { one with conf := { one.conf with cfg := { c with stageMap := [entry 64 [(0, 2, 1), (2, 1, 1), (4, 1, spare), (8, 1, 1)]] } } }
  f (put { m with core := { m.core with goodSlots := [(0, gs)] } } [(R.PNE_ID_PRESENT, [0], 1), (R.PRT_PANE_MAP_SPARES, [0], 1)])
/-- Pane 0 has failed and waits for slot 1. -/
def waiting (f : Mach → Mach) : Mach :=
  f (hurt 1 2 (fun m => { m with core := { m.core with failed := [0] }, fix := { m.fix with panes := [(1, 0)] }, part := { m.part with holds := [(1, hdRepair)] },
                                 errs := { m.errs with handlers := [(1, { running := [(2, ecPaneRepaired)], queued := [] })] } }))
/-- A page of region 2 under repair, its golden copy in host memory with or without a digest. -/
def fixing (digest : Nat) (f : TierSt → TierSt) : Mach :=
  let m := gold 1 8 [(R.PTN_SREG_STATE, [2], 2), (R.MEM_GOLD_CTL_DIGEST_EN, [2], digest)]
  { m with fix := { m.fix with regions := [⟨2, 0, 1029, 7, []⟩] }, part := { m.part with regionFrames := [(2, [1029])] }, tier := f { m.tier with frameOwner := [(1029, 66)] } }
/-- The page's frame is retired; channel 0 is live or not. -/
def fixRetired (live : Nat) : Mach := put (fixing 0 (fun t => { t with retired := [1029] })) (if live = 0 then [] else [(R.MEM_CHAN_STATE, [0], live)])
/-- The same pane, which waits in a training that runs, with or without a checkpoint of step 4 in the shadow. -/
def waitTrain (shadow : Nat) : Mach :=
  waiting (fun m => put (m.setCkpt 1 { m.ckpt 1 with shadowStep := 4 }) [(R.COL_TSTATE_STATE, [1], tsRunning), (R.CKP_STATUS_SHADOW, [1], shadow)])
/-- SPARES of die 0 as the good slots of die 0 that back no pane, whatever the other dies have. -/
theorem spares_of_other_dies (F G : Mach → Nat → Nat) : ∀ (l : List Nat) (m : Mach), 0 ∉ l →
    (l.foldl (fun m d => m.setFlds [d] [(R.PRT_PANE_MAP_SPARES, F m d), (R.PRT_PANE_MAP_PRESENT, G m d)]) m).fld R.PRT_PANE_MAP_SPARES [0] = m.fld R.PRT_PANE_MAP_SPARES [0]
  | [], _, _ => rfl
  | d :: l, m, h => by
    have hd : d ≠ 0 := fun e => h (by simp [e])
    have a : ∀ f : Fld, f.base = 0x40 → f.strides = [0x8] → R.PRT_PANE_MAP_SPARES.addr [0] ≠ f.addr [d] := by
      intro f hb hs
      simp only [Fld.addr, hb, hs, R.PRT_PANE_MAP_SPARES, List.zip_cons_cons, List.zip_nil_right, List.map_cons, List.map_nil, List.sum_cons, List.sum_nil]
      omega
    rw [List.foldl_cons, spares_of_other_dies F G l _ (fun e => h (List.mem_cons_of_mem _ e))]
    simp only [Mach.setFlds, List.foldl_cons, List.foldl_nil]
    rw [Laws.fld_setFld_addr _ _ _ _ _ _ (a _ rfl rfl), Laws.fld_setFld_addr _ _ _ _ _ _ (a _ rfl rfl)]
theorem slotSync_spares (m : Mach) : m.slotSync.fld R.PRT_PANE_MAP_SPARES [0] =
    ((setBits 52 (Tbl.get 0 m.core.goodSlots 0)).filter (fun s => !(m.slotsUsed 0 384).contains s)).length % 16 := by
  have b : ∀ f : Fld, f = R.PRT_LAYOUT_PANES_ENABLED ∨ f = R.PRT_LAYOUT_SPARES_MIN → R.PRT_PANE_MAP_SPARES.addr [0] ≠ f.addr [] := by
    rintro f (rfl | rfl) <;> decide
  unfold Mach.slotSync
  generalize List.foldl min 4 = mn
  simp only
  rw [Mach.setFlds, List.foldl_cons, List.foldl_cons, List.foldl_nil, Laws.fld_setFld_addr _ _ _ _ _ _ (b _ (.inr rfl)), Laws.fld_setFld_addr _ _ _ _ _ _ (b _ (.inl rfl)),
    show List.range 8 = 0 :: [1, 2, 3, 4, 5, 6, 7] from rfl, List.foldl_cons]
  rw [spares_of_other_dies (fun m d => ((setBits 52 (Tbl.get 0 m.core.goodSlots d)).filter (fun s => !(m.slotsUsed d 384).contains s)).length)
    (fun m d => (List.range 48).foldl (fun a i => a + b2n (m.flag R.PNE_ID_PRESENT [d * 48 + i]) * 2 ^ i) 0) _ _ (by decide)]
  rw [Mach.setFlds, List.foldl_cons, List.foldl_cons, List.foldl_nil, Laws.fld_setFld_bits _ R.PRT_PANE_MAP_PRESENT R.PRT_PANE_MAP_SPARES [0] [0] _ (show Laws.FldOk R.PRT_PANE_MAP_PRESENT from ⟨by decide, by decide⟩) (.inr (show 47 < 48 by decide)),
    Laws.fld_setFld_same _ R.PRT_PANE_MAP_SPARES [0] _ (show Laws.FldOk R.PRT_PANE_MAP_SPARES from ⟨by decide, by decide⟩)]
  rfl
theorem fixRetired_none : ((fixRetired 0).repairFrame 2 1029).2 = none :=
  Laws.repairFrame_none (no_frame_free _ (show ∀ e ∈ (fixRetired 0).regs, e.1 < 0x800000 ∨ 0x800000 + 8 * 512 ≤ e.1 by decide +kernel)) 2 1029 (by decide +kernel)
theorem witness_FaultsAndRepair :
    (one.fld R.ERR_MSTATE_STATE [] = 0 ∧ (put one [(R.ERR_MSTATE_STATE, [], 1)]).fld R.ERR_MSTATE_STATE [] ≠ 0 ∧ Tbl.get 0 one.tier.sliceOwner 3 ≤ 32 ∧
      one.paneOwner 0 ≤ 32 ∧ ((Tbl.get [] one.tier.paneHits 0).filter (fun t => decide (one.now < t + 10 ^ 6))).length < 15 ∧
      15 ≤ ((Tbl.get [] { one.tier with paneHits := [(0, List.replicate 15 one.now)] }.paneHits 0).filter (fun t => decide (one.now < t + 10 ^ 6))).length) ∧
    ((hurt 1 3 id).running = true ∧ 0 ∉ (hurt 1 3 id).core.failed ∧ (hurt 1 3 id).flag R.PNE_ID_PRESENT [0] = true ∧ (hurt 1 3 id).conf.cfg.holders 0 = [1] ∧
      (hurt 1 3 id).pstate 1 = psActive ∧ (hurt 0 3 id).conf.cfg.mayMigrate 1 0 = false ∧ (hurt 1 3 id).conf.cfg.mayMigrate 1 0 = true ∧
      (hurt 1 3 id).fix.panes = [] ∧ (((hurt 1 3 id).slotBad 0).slotSync).fld R.PRT_PANE_MAP_SPARES [0] ≠ 0) ∧
    ((waiting id).running = true ∧ (waiting id).shut 1 = false ∧ (waiting id).anyStarted 1 = false ∧ (((waiting id).handlersOf 1).running.head?.map (fun h => h.2 == ecPaneRepaired)).getD false = true ∧
      (waiting id).fix.panes = [(1, 0)] ∧ 0 ∈ (waiting id).core.failed ∧ (waiting id).spareSlot 0 = some 1 ∧ (waiting id).paneOwner 0 = 1) ∧
    ((waiting id).conf.cfg.shared 1 = false ∧ (waiting id).tstate 1 ≠ tsRunning ∧ (∀ n : Nat, n < 32 → (waiting id).pipePart n ≠ 1) ∧
      (waiting (fun m => withPane m 0 (fun p => { p with mrun := some mxRun }))).anyStarted 1 = true) ∧
    ((∀ k ∈ [0, 1], (waitTrain k).tstate 1 = tsRunning ∧ (waitTrain k).fix.panes = [(1, 0)] ∧ (waitTrain k).spareSlot 0 = some 1 ∧ (waitTrain k).anyStarted 1 = false) ∧
      (waitTrain 1).ckptStep 1 = some 4 ∧ ((waitTrain 1).ckpt 1).rollTo = 0 ∧ (waitTrain 0).ckptStep 1 = none) ∧
    ((fixRetired 1).tier.retired.contains 1029 = true ∧ (fixRetired 1).fix.regions = [⟨2, 0, 1029, 7, []⟩] ∧ ((fixRetired 1).repairFrame 2 1029).2 = some 0 ∧
      (((fixRetired 1).repairFrame 2 1029).1.goldenInto 2 0 0).isSome = true ∧
      ((fixRetired 0).repairFrame 2 1029).2 = none) ∧
    ((fixing 0 id).fix.regions = [⟨2, 0, 1029, 7, []⟩] ∧ (fixing 0 (fun t => { t with rowMoves := [lineNo 1029 7] })).tier.rowMoves.contains (lineNo 1029 7) = true ∧
      (fixing 0 id).tier.rowMoves.contains (lineNo 1029 7) = false ∧ (fixing 0 id).tier.retired.contains 1029 = false ∧ (fixing 0 id).frameGone 1029 = false ∧
      ((fixing 0 id).goldenInto 2 0 1029).isSome = true ∧ ({ fixing 0 id with poison := [hostKey 0 0 0 / 64] }).goldenInto 2 0 1029 = none) := by
  refine ⟨by decide +kernel, ?_, by decide +kernel, by decide +kernel, by decide +kernel,
    ⟨by decide +kernel, by decide +kernel, by decide +kernel, by decide +kernel, fixRetired_none⟩, by decide +kernel⟩
  rw [slotSync_spares]
  decide +kernel

/-! ### Checkpoints, hierarchies and pairs -/

/-- A training window in a state, its checkpoints in another, with no Transom, two pages of HBM, the shadow in the second and slots in host memory, checkpoint contents x. -/
def ckt (tst cst : Nat) (x : Ckpt → Ckpt) (l : List (Fld × List Nat × Nat)) : Mach :=
  let m := trn tst id ([(R.CKP_STATUS_STATE, [1], cst), (R.CKP_CTL_DEST, [1], 1), (R.CKP_SHADOW_BASE, [1], 1), (R.CKP_SHADOW_PAGES, [1], 8),
    (R.CKP_DESTLEN_SLOT_MIB, [1], 16), (R.CKP_DEST_ADDR, [1], 256), (R.PRT_HP_LINK_UP, [0], 1)] ++ l)
  { m.setCkpt 1 (x (m.ckpt 1)) with tier := { m.tier with slices := [], pages := [(2 ^ 24, some ⟨5, none⟩), (2 ^ 24 + 1, some ⟨6, none⟩)] } }
/-- The gradients of the update table read a poisoned line. -/
def cktBad : Mach := { ckt 1 ckCopying id [] with poison := [frameKey 5 0x1000 / 64] }
/-- A slot in host memory with a header for step 4 and no body. -/
def ckSlotted : Mach := let m := ckt 0 ckIdle id []; m.spotStore 1 (m.ckSlot 1 0) (ckHeader 4 1 0 0 1)
/-- An export that reads the slot written next. -/
def cktOver : Mach := ckt 1 ckCopying (fun x => { x with expSlot := 1 }) [(R.COL_TEXPORT_STATUS_STATE, [1], 1)]
/-- A checkpoint state of partition 1 of module 9, whose buddy is module 5. -/
def cktB (st : Nat) (l : List (Fld × List Nat × Nat)) : Mach :=
  cll CollSt.init ([(R.CKP_STATUS_STATE, [1], st), (R.CKP_CTL_DEST, [1], 2), (R.CKP_CTL_BUDDY, [1], 5)] ++ l)
/-- A rollback to step 4 from the shadow, whose first line is poisoned. -/
def ckPoisoned : Mach := { ckt 1 ckRestoring (fun x => { x with rollTo := 5, step := 4 }) [] with poison := [frameKey 6 64 / 64] }

theorem witness_CheckpointsAndRollback :
    ((ckt 1 ckIdle id []).accepts = true ∧ (ckt 1 ckCopying id []).ckState 1 = ckCopying ∧ (ckt 1 ckCopying id []).anyStarted 1 = false ∧
      (ckt 1 ckCopying id []).running = true ∧ (ckt 1 ckCopying id []).shut 1 = false) ∧
    (let m := ckt 1 ckCopying id []
     (m.ckCopy 1 (laidOut (m.ckRanges 1) 0) (onward (m.ckShadow 1) 64) false).2 = false) ∧
    (let m := cktBad
     (m.ckCopy 1 (laidOut (m.ckRanges 1) 0) (onward (m.ckShadow 1) 64) false).2 = true) ∧
    (let m := ckt 1 ckDraining id []
     m.ckState 1 = ckDraining ∧ m.fld R.CKP_CTL_DEST [1] ≠ 2 ∧ (m.spotSegs 1 true (m.ckSlot 1 (m.ckNext 1)) (64 + leAt (m.spotLoad 1 (m.ckShadow 1) 64) 16 8)).isSome = true) ∧
    ((ckt 0 ckIdle id []).tstate 1 = tsStopped ∧ (ckt 0 ckIdle id []).ckState 1 = ckIdle ∧ (ckt 0 ckIdle id []).fld R.CKP_CTL_DEST [1] ≠ 2 ∧
      (ckt 0 ckIdle id []).ckValid 1 ((ckt 0 ckIdle id []).ckSlot 1 0) = none ∧ (ckt 0 ckIdle id [(R.CKP_CTL_DEST, [1], 2)]).fld R.CKP_CTL_DEST [1] = 2 ∧
      ckSlotted.pstate 1 = psActive ∧ (ckSlotted.ckRestore 1 (ckSlotted.ckSlot 1 0)).2.2 = false) ∧
    (let m := ckt 1 ckIdle (fun x => { x with rollTo := 5, shadowStep := 4 }) [(R.CKP_STATUS_SHADOW, [1], 1)]
     (m.ckpt 1).rollTo ≠ 0 ∧ m.anyStarted 1 = false ∧ m.ckState 1 = ckIdle ∧ m.tstate 1 ≠ tsStopped ∧ m.running = true ∧ m.shut 1 = false ∧
     m.fix.panes.any (fun f => f.1 == 1) = false ∧ m.flag R.CKP_STATUS_SHADOW [1] = true ∧ (m.ckpt 1).shadowStep = (m.ckpt 1).rollTo - 1) ∧
    (let m := ckt 1 ckIdle (fun x => { x with rollTo := 5 }) [(R.CKP_STATUS_VALID, [1], 0)]
     (m.flag R.CKP_STATUS_SHADOW [1] = false ∧ ∀ k < 2, bitAt (m.fld R.CKP_STATUS_VALID [1]) k = false)) ∧
    (let m := ckt 1 ckRestoring (fun x => { x with rollTo := 5, step := 4 }) []
     (m.ckpt 1).rollTo = (m.ckpt 1).step + 1 ∧ m.ckState 1 = ckRestoring ∧ (m.ckpt 1).why = 0 ∧ (m.ckpt 1).source = 0 ∧
     ((m.setCkpt 1 { m.ckpt 1 with rollTo := 0, why := 0, total := 0, got := 0 }).ckRestore 1 (m.ckShadow 1)).2.2 = false) ∧
    (cktOver.exporting 1 = true ∧ (cktOver.ckpt 1).expSlot = cktOver.ckNext 1 ∧ (ckt 1 ckCopying id []).exporting 1 = false ∧
      (let m := ckt 1 ckCopying id []
       m.spotSegs 1 true (m.ckShadow 1) 64 = some [(frameKey 6 0, 64)] ∧ m.gone (frameKey 6 0) = false ∧
       m.spotSegs 1 true (onward (m.ckSlot 1 (m.ckNext 1)) 56) 8 = some [(hostKey 0 1 0x1100038, 8)] ∧ frameKey 6 0 + 64 ≤ hostKey 0 1 0x1100038)) ∧
    ((cktB ckDraining []).ckState 1 = ckDraining ∧ ((cktB ckDraining []).routeLink 5 (cktB ckDraining []).moduleId ((cktB ckDraining []).jobOf 1) 0xC5000000).isSome = true ∧
      (cktB ckDraining []).fld R.CKP_CTL_BUDDY [1] = 5 ∧ (cktB ckDraining []).running = true ∧ (cktB ckDraining []).shut 1 = false ∧
      (let m := put (cktB ckDraining []) [(R.MRD_ROUTE_LINKS, [5], 0)]
       m.fld R.CKP_CTL_DEST [1] = 2 ∧ m.routeLink 5 m.moduleId (m.jobOf 1) 0xC5000000 = none) ∧
      (let m := ckt 1 ckDraining id [(R.CKP_CTL_DEST, [1], 0)]
       m.spotSegs 1 true (m.ckSlot 1 (m.ckNext 1)) (64 + leAt (m.spotLoad 1 (m.ckShadow 1) 64) 16 8) = none) ∧
      (let m := ckt 1 ckDraining id []
       m.spotSegs 1 true (m.ckSlot 1 (m.ckNext 1)) 64 = some [(hostKey 0 1 0x1100000, 64)] ∧ m.gone (hostKey 0 1 0x1100000) = false ∧
       (m.spotLoad 1 (m.ckShadow 1) 64).length = 64)) ∧
    ((cktB ckIdle []).tstate 1 = tsStopped ∧ (cktB ckIdle []).accepts = true ∧ (cktB ckIdle []).exporting 1 = false ∧ (cktB ckIdle []).ckState 1 = ckIdle ∧
      (cktB ckIdle [(R.COL_TEXPORT_STATUS_STATE, [1], 1)]).exporting 1 = true ∧ (cktB ckIdle [(R.COL_TEXPORT_STATUS_STATE, [1], 1)]).exportRead 1 = false) ∧
    (let m := ckt 1 ckIdle (fun x => { x with rollTo := 5, slots := [(1, 5)] }) [(R.CKP_STATUS_VALID, [1], 2)]
     m.flag R.CKP_STATUS_SHADOW [1] = false ∧ bitAt (m.fld R.CKP_STATUS_VALID [1]) 1 = true ∧ Tbl.get 0 (m.ckpt 1).slots 1 = (m.ckpt 1).rollTo - 1 + 1 ∧
     (∀ j < 1, bitAt (m.fld R.CKP_STATUS_VALID [1]) j = false) ∧ m.anyStarted 1 = false) ∧
    ((((ckt 1 ckRestoring (fun x => { x with rollTo := 3, step := 4 }) []).ckpt 1).rollTo ≠ ((ckt 1 ckRestoring (fun x => { x with rollTo := 3, step := 4 }) []).ckpt 1).step + 1) ∧
      ((ckPoisoned.setCkpt 1 { ckPoisoned.ckpt 1 with rollTo := 0, why := 0, total := 0, got := 0 }).ckRestore 1 (ckPoisoned.ckShadow 1)).2.2 = true ∧
      ckPoisoned.pstate 1 = psActive ∧ ckPoisoned.running = true ∧ ckPoisoned.shut 1 = false ∧
      (let m := ckt 1 ckRestoring (fun x => { x with rollTo := 5, step := 4, source := 1 }) []
       (m.ckpt 1).source ≠ 0 ∧ m.conf.cfg.shared 1 = false ∧ m.ckValid 1 (m.ckSlot 1 0) ≠ some 4)) ∧
    (let m := ckt 0 ckIdle (fun x => { x with rollTo := 5, shadowStep := 4 }) [(R.CKP_STATUS_SHADOW, [1], 1)]
     (m.ckpt 1).rollTo ≠ 0 ∧ m.anyStarted 1 = false ∧ m.ckState 1 = ckIdle ∧ m.tstate 1 = tsStopped ∧ m.running = true ∧ m.shut 1 = false ∧
     m.fix.panes.any (fun f => f.1 == 1) = false ∧ m.conf.cfg.shared 1 = false) := by
  iterate 14 refine And.intro (by decide +kernel) ?_
  decide +kernel
/-- The slot is valid where SM3, which the spec names and does not define, gives 0. -/
theorem witness_CheckpointsAndRollback_port :
    ((∀ st ∈ [ckIdle, ckDraining, ckRestoring], (ckt 0 st id []).ckAway 1 = false ∧ (ckt 0 st id portDown).ckAway 1 = true) ∧ (cktB ckDraining []).ckAway 1 = false ∧
      (ckt 1 ckDraining id [(R.CKP_CTL_DEST, [1], 0)]).ckAway 1 = false ∧ ckSlotted.ckAway 1 = false ∧ (ckt 0 ckIdle id portDown).tstate 1 = tsStopped) ∧
    (let m := ckt 1 ckRestoring (fun x => { x with rollTo := 5, step := 4, source := 1 }) portDown
     (m.ckpt 1).source ≠ 0 ∧ (m.ckpt 1).why = 0 ∧ m.ckAway 1 = true) := by
  decide +kernel
theorem witness_CheckpointSlotIsValid : Config.sm3 = (fun _ => 0) → ckSlotted.ckValid 1 (ckSlotted.ckSlot 1 0) ≠ none := by
  intro h
  unfold Mach.ckValid Mach.ckDigest
  rw [h]
  decide +kernel
/-- Partition 1 of module 9, job 7, in a hierarchy with a role and a manager; the roster names modules and roles. -/
def hie (role mgr : Nat) (roster : List (Nat × Nat)) (x : Hier → Hier) (l : List (Fld × List Nat × Nat)) : Mach :=
  let m := cll CollSt.init ([(R.HIER_CFG_ROLE, [1], role), (R.HIER_CFG_MANAGER, [1], mgr), (R.HIER_ROSTER_BASE, [1], 8192), (R.HIER_ROSTER_COUNT, [1], roster.length),
    (R.HIER_STAT_STATE, [1], hiRunning)] ++ l)
  let m := m.store (sliceKey 3 524288) (roster.flatMap (fun e => leBytes 2 e.1 ++ leBytes 2 e.2))
  { m.setHier 1 (x (m.hier 1)) with now := 10 ^ 10 }
/-- The manager of workers 9, 5 and 6; with 6 as a spare; with worker 5 alone. -/
def hieM (x : Hier → Hier) : Mach := hie 1 9 [(5, 2), (6, 2)] x []
def hieS (x : Hier → Hier) : Mach := hie 1 9 [(5, 2), (6, 3)] x []
def hie1 (x : Hier → Hier) : Mach := hie 1 9 [(5, 2)] x []
/-- A worker under manager 5, and a spare. -/
def hieW (x : Hier → Hier) (l : List (Fld × List Nat × Nat)) : Mach := hie 2 5 [] x l
def hieR (l : List (Fld × List Nat × Nat)) : Mach := hie 3 5 [] id l
/-- Spare 5 takes the place of worker 4; worker 5 fails after a checkpoint whose buddy is b. -/
def hieJ : Mach := hie 1 9 [(4, 2), (5, 3)] (fun h => { h with joining := [(4, 5)], lost := [4], rolled := true, epoch := 5 }) []
def hieB (b : Nat) : Mach := hieS (fun h => { h with epoch := 5, homes := [(5, 2 * 65536 + b + 1)] })
/-- A message of module 5 about step 6: REPLACE names module 4 as the failed one and 6 as its buddy. -/
def hh0 : HierHead := ⟨3, 5, 7, 6, BitVec.ofNat 64 (6 * 65536 + 4)⟩

theorem witness_TrainingHierarchy :
    ((hieM id).jobShut 7 = false ∧ (hieM id).jobPart 7 = 1 ∧ (hieM id).jobPart 8 = 0 ∧ (hieM id).jobShut 8 = false ∧ (put (prtShut 3) [(R.COL_CJOB_JOB, [1], 7)]).jobShut 7 = true) ∧
    ((hie 0 9 [] id []).hierRole 1 = 0 ∧ (hieM id).hierRole 1 = 1 ∧ (hieW id []).hierRole 1 = 2 ∧ (hieR []).hierRole 1 = 3 ∧ (hieW id []).hierMgr 1 = hh0.src.toNat ∧
      (hieR []).hierMgr 1 = hh0.src.toNat) ∧
    ((hieM id).hierWorkers 1 = [9, 5, 6] ∧ (∃ w ∈ (hieM id).hierWorkers 1, w ≠ 5 ∧ ∀ g ∈ ((hieM id).hier 1).gates, g.1 = w → g.2.1 ≠ 6) ∧
      (∃ w ∈ (hieM id).hierWorkers 1, w ≠ 5 ∧ (w, 6) ∉ ((hieM id).hier 1).readies) ∧
      (let m := hieM (fun h => { h with gates := [(9, 6, true), (6, 6, false)], readies := [(9, 6), (6, 6)] })
       (∀ w ∈ m.hierWorkers 1, w = 5 ∨ (w, 6, true) ∈ (m.hier 1).gates ∨ (w, 6, false) ∈ (m.hier 1).gates) ∧
       (∀ w ∈ m.hierWorkers 1, w = 5 ∨ (w, 6) ∈ (m.hier 1).readies) ∧ m.hierDue 1 (stepAdd 6 1) = false ∧
       (put m [(R.CKP_CTL_INTERVAL, [1], 1)]).hierDue 1 (stepAdd 6 1) = true)) ∧
    (((hieM id).hier 1).joining = [] ∧ (hieJ.hier 1).joining = [(4, 5)] ∧ (hieJ.roster 1)[0]? = some (4, 2) ∧
      hieJ.segs 1 none true (hieJ.rosterAt 1 0) 4 = some [(sliceKey 3 524288, 4)] ∧ hieJ.segs 1 none true (hieJ.rosterAt 1 4) 4 = some [(sliceKey 3 524292, 4)] ∧
      hieJ.gone (sliceKey 3 524288) = false ∧ (hieJ.roster 1).length = 2) ∧
    (((hieW id []).hier 1).rolling = 0 ∧ ((hieW (fun h => { h with rolling := 7, orphan := true }) []).hier 1).rolling ≠ 0 ∧ (hieW id []).tstate 1 = tsStopped ∧
      (hieW id [(R.COL_TSTATE_STATE, [1], tsRunning)]).tstate 1 ≠ tsStopped ∧ ((hieW id []).hier 1).orphan = false) ∧
    ((hieR []).tstate 1 = tsStopped ∧ (hieR []).ckState 1 = ckIdle ∧ hh0.arg.toNat / 65536 % 65536 ≠ (hieR []).moduleId ∧
      (hieR [(R.CKP_STATUS_STATE, [1], ckDraining)]).ckState 1 ≠ ckIdle ∧ (hieR []).exporting 1 = false ∧ (9 * 65536 + 4) / 65536 % 65536 = (hieR []).moduleId ∧
      (∀ k < 2, (hieR []).ckValid 1 ((hieR []).ckKept 1 k) ≠ some 6)) ∧
    (let m := hie1 id
     m.fld R.HIER_STAT_STATE [1] ≠ hiStopped ∧ m.moduleId ≠ 5 ∧ 5 ∉ (m.hier 1).lost ∧ 5 ∈ m.hierWorkers 1 ∧ (m.hier 1).joining = [] ∧
     (m.roster 1).filter (fun e => e.2 == 3 && !(5 :: (m.hier 1).lost).contains e.1 && !(m.hier 1).joining.any (fun j => j.2 == e.1)) = [] ∧ m.running = true ∧ Tbl.get 0 (m.hier 1).heard 5 + 3 * m.hbTicks 1 ≤ m.now) ∧
    (∀ b ∈ [6, 9, 77, 5], let m := hieB b
     ((m.roster 1).filter (fun e => e.2 == 3 && !(5 :: (m.hier 1).lost).contains e.1 && !(m.hier 1).joining.any (fun j => j.2 == e.1))).map (fun e => e.1) = [6] ∧
     (m.hier 1).epoch ≠ 0 ∧ Tbl.get 0 (m.hier 1).homes 5 = 2 * 65536 + b + 1 ∧ 5 ∈ m.hierWorkers 1 ∧ m.fld R.HIER_STAT_STATE [1] ≠ hiStopped ∧ (m.hier 1).rolled = false) ∧
    ((hieB 9).moduleId = 9 ∧ (hieB 77).routeLinks 77 = [] ∧ (hieB 6).routeLinks 6 ≠ [] ∧ ((hieS id).hier 1).epoch = 0 ∧ ¬ 5 ∈ (hie 1 9 [(6, 2)] id []).hierWorkers 1) ∧
    (let m := hieW id [(R.COL_TSTATE_STATE, [1], tsRunning)]
     m.running = true ∧ m.fld R.HIER_STAT_STATE [1] ≠ hiStopped ∧ (m.hier 1).mgrHeard + 3 * m.hbTicks 1 ≤ m.now ∧ (m.hier 1).mgrHeard + m.mgrTicks 1 ≤ m.now ∧
     m.now < { m.hier 1 with mgrHeard := m.now }.mgrHeard + 3 * m.hbTicks 1 ∧ m.jobOf 1 ≠ 0 ∧ m.routeLink (m.hierMgr 1) m.moduleId (m.jobOf 1) 0x80000000 = some 3 ∧
     (m.linkCls 3 clCollective).txq = [] ∧ (m.linkCls 3 clCollective).txOpen = 0 ∧ (m.linkCls 3 clCollective).credits ≠ 0 ∧
     (m.linkCls 3 clCollective).unacked.length < clSlots clCollective ∧ m.fullStop = false) := by
  iterate 9 refine And.intro (by decide +kernel) ?_
  decide +kernel
/-- Partition 1 of module 9, paired or to be paired with module 5, in a state with contents x. -/
def pai (st : Nat) (x : Pair → Pair) (l : List (Fld × List Nat × Nat)) : Mach :=
  let m := cll CollSt.init ([(R.GZT_PAIRCFG_PEER, [1], 5), (R.GZT_PAIRCFG_ENABLE, [1], 1), (R.GZT_PAIRSTAT_STATE, [1], st), (R.CFG_RUN_ID_IMAGE_ID, [], 77),
    (R.GZT_PQUOTA_ENTRY_COUNT, [1], 16), (R.PRT_STATUS_FEED_ID, [], 2)] ++ l)
  { m.setPair 1 (x (m.pair 1)) with now := 10 ^ 8 }
/-- A mirrored entry, and one kept. -/
def mEnt : MirrorEnt :=
  { idx := 3, tag := 77, prio := 0, pin := false, model := 2, modelVer := 3, ovl := 0xFFFF, ovlVer := 0, sprof := 0, deadline := 0, profile := List.replicate 64 0, seed := 0,
    gmask := 0, maxNew := 4, prompt := [1, 2], tokens := [] }
def kept3 (x : Pair) : Pair := { x with standby := [standbyOf mEnt] }
/-- Partition 1, which serves model 2 in version 3, paired with standby e. -/
def prm (e : MirrorEnt) (l : List (Fld × List Nat × Nat)) : Mach :=
  let m := srv rqAdmit id ([(R.GZT_PAIRCFG_PEER, [1], 5), (R.GZT_PAIRCFG_ENABLE, [1], 1), (R.GZT_PAIRSTAT_STATE, [1], 1)] ++ l)
  { m.setPair 1 { m.pair 1 with standby := [standbyOf e] } with now := 10 ^ 8 }

theorem witness_ServingPairs :
    ((pai 0 id []).accepts = true ∧ (pai 0 id []).prState 1 = prUnpaired ∧ (pai 3 id []).prState 1 = prPromoting ∧ (pai 1 id []).prState 1 ≠ prUnpaired) ∧
    (((pai 0 (fun x => { x with asked := 1 }) []).pair 1).asked ≠ 0 ∧ ((pai 0 (fun x => { x with asked := 1 }) []).pair 1).asked - 1 + 10 ^ 7 ≤ (pai 0 id []).now) ∧
    ((pai 0 id []).pairOn 1 = false ∧ (pai 1 id []).pairOn 1 = true ∧ (pai 2 id []).pairOn 1 = true ∧ (pai 1 id []).running = true) ∧
    (let m := pai 1 id []
     m.jobOf 1 ≠ 0 ∧ m.routeLink (m.fld R.GZT_PAIRCFG_PEER [1]) m.moduleId (m.jobOf 1) 0xA5000001 = some 3 ∧ (m.linkCls 3 clMemory).txq = [] ∧
     (m.linkCls 3 clMemory).txOpen = 0 ∧ (m.linkCls 3 clMemory).credits ≠ 0 ∧ (m.linkCls 3 clMemory).unacked.length < clSlots clMemory ∧ m.fullStop = false ∧
     m.jobShut (m.jobOf 1) = false) ∧
    (((pai 1 id []).pair 1).heard + 315000 ≤ (pai 1 id []).now ∧ (pai 1 id []).now < ((pai 1 (fun x => { x with heard := 10 ^ 8 }) []).pair 1).heard + 315000 ∧
      ((pai 1 id []).pair 1).waits = [] ∧ ((pai 1 (fun x => { x with waits := [5, 99999999] }) []).pair 1).waits = [5, 99999999] ∧ 5 + 300000 ≤ (pai 1 id []).now ∧
      (pai 1 id []).now < 99999999 + 300000 ∧ ((pai 1 id []).pair 1).standby = [] ∧ (pai 1 id []).shut 1 = false) ∧
    (((prm mEnt []).pair 1).standby = [standbyOf mEnt] ∧ (prm mEnt []).pairOn 1 = true ∧ (prm mEnt []).running = true ∧ (prm mEnt []).shut 1 = false ∧
      ((prm mEnt []).pair 1).heard + 315000 ≤ (prm mEnt []).now ∧ (standbyOf mEnt).ent.deadline = 0 ∧ (standbyOf { mEnt with deadline := 5 }).ent.deadline = 5 ∧
      (prm mEnt []).entsFree 1 = [0, 1, 2, 3, 4, 5, 6, 7] ∧ (prm mEnt [(R.GZT_PQUOTA_ENTRY_COUNT, [1], 0)]).entsFree 1 = [] ∧
      (prm mEnt []).resident 1 (standbyOf mEnt).ent = true ∧ (prm mEnt []).resident 1 (standbyOf { mEnt with modelVer := 4 }).ent = false ∧
      (prm mEnt []).stageRoom 1 8 = some 1048576 ∧ (prm mEnt [(R.GZT_PSTAGE_STAGE_MIB, [1], 0)]).stageRoom 1 8 = none ∧ ceilDiv (2 + 4) 64 ≤ (prm mEnt []).kvFree 1 ∧
      (prm mEnt [(R.GZT_PKV_UNITS, [1], 0)]).kvFree 1 < ceilDiv (2 + 4) 64 ∧ 4 * ((standbyOf mEnt).prompt ++ (standbyOf mEnt).ent.tokens).length = 8 ∧
      { prm mEnt [] with part := { (prm mEnt []).part with holds := [(1, hdShut)] } }.shut 1 = true) ∧
    ((pai 0 id []).jobPart 7 = 1 ∧ (pai 0 id []).jobPart 8 = 0 ∧ (put (prtShut 3) [(R.COL_CJOB_JOB, [1], 7)]).jobShut 7 = true ∧
      (prtShut 3).shut 1 = true ∧ (pai 0 id []).fld R.GZT_PAIRCFG_PEER [1] = (5#16).toNat ∧ (pai 0 id []).fld R.GZT_PAIRCFG_PEER [1] ≠ (6#16).toNat) ∧
    ((pai 0 id []).flag R.GZT_PAIRCFG_ENABLE [1] = true ∧ (pai 0 id []).pstate 1 = psActive ∧ (77#64).toNat = (pai 0 id []).runId ∧ (16#15).toNat = (pai 0 id []).entCount 1 ∧
      (pai 0 id []).feedId = 2 ∧ (pai 0 id []).flag R.GZT_PAIRCFG_PAIR_ALLOW_CORRELATED [1] = false ∧
      (pai 0 id [(R.GZT_PAIRCFG_PAIR_ALLOW_CORRELATED, [1], 1)]).flag R.GZT_PAIRCFG_PAIR_ALLOW_CORRELATED [1] = true) ∧
    (((pai 1 kept3 []).pair 1).standby.find? (fun z => z.idx == 3) = some (standbyOf mEnt) ∧ ((pai 1 id []).pair 1).sent ≤ ((pai 1 id []).pair 1).acked ∧
      ((pai 1 (fun x => { x with sent := 1 }) []).pair 1).acked < ((pai 1 (fun x => { x with sent := 1 }) []).pair 1).sent ∧ ([mEnt].map (fun e => e.idx)).Nodup) := by
  iterate 8 refine And.intro (by decide +kernel) ?_
  decide +kernel
/-! ### Life cycle, attestation, direct configuration -/

/-- A token from one state to another with nonce 0 for a signer: 0 the owner, 1 the maker. -/
def token (src dst signer : Nat) : List Byte := tokMagic ++ (entry 256 [(48, 1, src), (49, 1, dst), (224, 1, signer)]).drop 8
/-- The words of that token that are not 0, for the owner's half of SEC_TOKBUF or the maker's. -/
def tokenWords (half src dst signer : Nat) : List (Fld × List Nat × Nat) :=
  [(R.SEC_TOKBUF_WORD, [32 * half], ofLe tokMagic), (R.SEC_TOKBUF_WORD, [32 * half + 6], src + 256 * dst), (R.SEC_TOKBUF_WORD, [32 * half + 28], signer)]
/-- READY in the life-cycle state that the transitions end in, with words in SEC_TOKBUF and a current nonce. -/
def lcs (trans : List (Nat × Bool)) (w : List (Fld × List Nat × Nat)) : State :=
  let m := put ready ((R.SEC_LC_STATE, [], (trans.getLast?.getD (0, true)).1) :: w)
  { st { m with sec := { m.sec with nonceOk := true } } with nv := { State.reset.nv with trans := trans } }
def lcTest : State := lcs [] (tokenWords 1 0 1 1)
def lcProv : State := lcs [(1, true)] []
def lcDep : State := lcs [(1, true), (2, true)] (tokenWords 0 2 3 0 ++ tokenWords 1 2 3 1)
def lcRet : State := lcs [(1, true), (2, true), (3, true)] (tokenWords 1 3 1 1)
/-- The same with every owner slot used; with a partition live. -/
def lcFull : State := { lcProv with nv := { lcProv.nv with owners := List.replicate 8 (0, false) } }
def lcLive : State := { lcDep with m := put one [(R.SEC_LC_STATE, [], 2)] }
/-- The token of a release, of a scrap from DEPLOYED and of one from TEST; every fuse of the row burned. -/
def lcRel : State := lcs [(1, true), (2, true)] (tokenWords 0 2 1 0)
def lcScr : State := lcs [(1, true), (2, true)] (tokenWords 0 2 4 0)
def lcScr0 : State := lcs [] (tokenWords 1 0 4 1)
def lcRow : State := lcs (List.replicate 8 [(1, true), (2, true)]).flatten []
/-- A pending return: during boot, while its command runs, and in READY without a command. -/
def returning (m : Mach) : State := { st m with nv := { State.reset.nv with trans := [(1, true), (2, true), (3, false)] } }
def lcWiping : State := returning (phase 2)
def lcWipeRuns : State := returning { ready with sec := { ready.sec with target := 3 } }

/-- A token passes where its form, its nonce and its signature do. -/
theorem tokenCheck_of (s : State) (owner : Bool) (dst : Nat) (t : List Byte) (ht : ((s.m.window R.SEC_TOKBUF_WORD [] 64).drop (if owner then 0 else 256)).take 256 = t)
    (f : tokenForm t s.nv.serial.toNat s.nv.lc dst (b2n (!owner)) = true) (n : s.m.sec.nonceOk = true) (d : (t.drop 16).take 32 = s.m.window R.SEC_NONCE_WORD [] 4)
    (g : (if owner then s.nv.ownerCheck t (fun _ => false) else s.nv.makerCheck t) = rcOk) : s.tokenCheck owner dst = 0 := by
  unfold State.tokenCheck
  simp [ht, f, n, d, g, scOk]
theorem witness_LifeCycleTransitions :
    (∀ s ∈ [lcTest, lcProv, lcDep, lcRet, lcFull, lcLive], s.m.running = true ∧ s.m.fld R.SEC_CMDSTAT_BUSY [] = 0 ∧ s.m.conf.chartOp = none ∧ s.nv.trans.length < 16) ∧
    (lcTest.nv.lc = 0 ∧ lcProv.nv.lc = 1 ∧ lcDep.nv.lc = 2 ∧ lcRet.nv.lc = 3 ∧ (lcs [(4, true)] []).nv.lc = 4) ∧
    (lcProv.nv.owners.length < 8 ∧ 8 ≤ lcFull.nv.owners.length ∧ lcDep.m.lcFree = true ∧ lcRet.m.lcFree = true ∧ lcTest.m.lcFree = true ∧ lcLive.m.lcFree = false) ∧
    (16 ≤ lcRow.nv.trans.length ∧ State.reset.m.running = false ∧ (put ready [(R.SEC_CMDSTAT_BUSY, [], 1)]).running = true ∧
      (put ready [(R.SEC_CMDSTAT_BUSY, [], 1)]).fld R.SEC_CMDSTAT_BUSY [] = 1) ∧
    ((lcs [] []).tokensCheck false true 1 ≠ 0 ∧ (lcs [(1, true), (2, true)] []).tokensCheck true false 1 ≠ 0 ∧ (lcs [(1, true), (2, true)] []).tokensCheck true true 3 ≠ 0 ∧
      (lcs [(1, true), (2, true), (3, true)] []).tokensCheck false true 1 ≠ 0 ∧ (lcs [(1, true), (2, true)] []).tokensCheck true false 4 ≠ 0 ∧
      ∀ l ∈ [[], [(1, true)], [(1, true), (2, true), (3, true)]], (lcs l []).tokensCheck false true 4 ≠ 0) := by
  iterate 4 refine And.intro (by decide +kernel) ?_
  decide +kernel
/-- The clauses with a token have their hypotheses wherever its signature verifies, for which Config.sm2Verify gives no value. -/
theorem witness_LifeCycleTransitions_provision (h : lcTest.nv.makerCheck (token 0 1 1) = rcOk) : lcTest.tokensCheck false true 1 = 0 := by
  have b : lcTest.tokenCheck false 1 = 0 :=
    tokenCheck_of lcTest false 1 (token 0 1 1) (by decide +kernel) (by decide +kernel) (by decide +kernel) (by decide +kernel) (by rw [if_neg (by decide)]; exact h)
  simp [State.tokensCheck, b, scOk]
theorem witness_LifeCycleTransitions_reissue (h : lcRet.nv.makerCheck (token 3 1 1) = rcOk) : lcRet.tokensCheck false true 1 = 0 := by
  have b : lcRet.tokenCheck false 1 = 0 :=
    tokenCheck_of lcRet false 1 (token 3 1 1) (by decide +kernel) (by decide +kernel) (by decide +kernel) (by decide +kernel) (by rw [if_neg (by decide)]; exact h)
  simp [State.tokensCheck, b, scOk]
theorem witness_LifeCycleTransitions_return (h : lcDep.nv.ownerCheck (token 2 3 0) (fun _ => false) = rcOk) (g : lcDep.nv.makerCheck (token 2 3 1) = rcOk) :
    lcDep.tokensCheck true true 3 = 0 := by
  have a : lcDep.tokenCheck true 3 = 0 :=
    tokenCheck_of lcDep true 3 (token 2 3 0) (by decide +kernel) (by decide +kernel) (by decide +kernel) (by decide +kernel) (by rw [if_pos rfl]; exact h)
  have b : lcDep.tokenCheck false 3 = 0 :=
    tokenCheck_of lcDep false 3 (token 2 3 1) (by decide +kernel) (by decide +kernel) (by decide +kernel) (by decide +kernel) (by rw [if_neg (by decide)]; exact g)
  simp [State.tokensCheck, a, b, scOk]
theorem witness_LifeCycleTransitions_release (h : lcRel.nv.ownerCheck (token 2 1 0) (fun _ => false) = rcOk) : lcRel.tokensCheck true false 1 = 0 := by
  have a : lcRel.tokenCheck true 1 = 0 :=
    tokenCheck_of lcRel true 1 (token 2 1 0) (by decide +kernel) (by decide +kernel) (by decide +kernel) (by decide +kernel) (by rw [if_pos rfl]; exact h)
  simp [State.tokensCheck, a, scOk]
theorem witness_LifeCycleTransitions_scrap (h : lcScr.nv.ownerCheck (token 2 4 0) (fun _ => false) = rcOk) (g : lcScr0.nv.makerCheck (token 0 4 1) = rcOk) :
    lcScr.tokensCheck true false 4 = 0 ∧ lcScr0.tokensCheck false true 4 = 0 := by
  have a : lcScr.tokenCheck true 4 = 0 :=
    tokenCheck_of lcScr true 4 (token 2 4 0) (by decide +kernel) (by decide +kernel) (by decide +kernel) (by decide +kernel) (by rw [if_pos rfl]; exact h)
  have b : lcScr0.tokenCheck false 4 = 0 :=
    tokenCheck_of lcScr0 false 4 (token 0 4 1) (by decide +kernel) (by decide +kernel) (by decide +kernel) (by decide +kernel) (by rw [if_neg (by decide)]; exact g)
  exact ⟨by simp [State.tokensCheck, a, scOk], by simp [State.tokensCheck, b, scOk]⟩
theorem witness_WipeEndsInTheTargetState :
    (lcDep.nv.pendingLc = 0 ∧ lcDep.m.conf.chartOp = none) ∧
    (lcWiping.m.conf.chartOp = none ∧ lcWiping.nv.trans = [(1, true), (2, true)] ++ [(3, false)] ∧ (∀ y ∈ ([(1, true), (2, true)] : List (Nat × Bool)), y.2 = true) ∧
      lcWiping.m.fld R.PRT_STATUS_PHASE [] = 2) ∧
    ((returning (phase 1)).m.fld R.PRT_STATUS_PHASE [] = 1 ∧ lcWipeRuns.m.running = true ∧ lcWipeRuns.m.sec.target ≠ 0 ∧ (returning ready).nv.pendingLc ≠ 0 ∧
      (returning ready).m.fld R.PRT_STATUS_PHASE [] = 5 ∧ (returning ready).m.sec.target = 0) := by decide +kernel
/-- A report latched for partition 1, floors and a running SVN of 5. -/
def reporting : State :=
  let s := st { one with sec := { one.sec with imgSvn := 5, reports := [(1, List.replicate 384 0)] } }
  { s with nv := { s.nv with imgFloor := 3, fwFloor := 0 } }
theorem witness_FloorsNonceAndReports :
    (reporting.m.running = true ∧ reporting.m.fld R.SEC_LC_STATE [] < 4 ∧ reporting.m.fld R.SEC_CMDSTAT_BUSY [] = 0 ∧ reporting.nv.pendingLc = 0) ∧
    (reporting.nv.imgFloor ≤ (5#8).toNat ∧ (5#8).toNat ≤ 128 ∧ (5#8).toNat ≤ reporting.m.sec.imgSvn ∧ (2#8).toNat < reporting.nv.imgFloor ∧
      reporting.m.sec.imgSvn < (6#8).toNat ∧ reporting.nv.fwFloor ≤ (0#8).toNat ∧ (0#8).toNat ≤ reporting.m.fld R.SEC_FLOOR_FW_SVN []) ∧
    (reporting.m.conf.cfg.part 1 ≠ none ∧ reporting.m.fld R.ATT_STAT_BUSY [1] = 0 ∧ reporting.m.pstate 1 = psActive) ∧
    (reporting.m.sec.reports = (1, List.replicate 384 0) :: [] ∧ (List.replicate 384 (0 : Byte)).length = 384) ∧
    ((lcs [(4, true)] []).m.fld R.SEC_LC_STATE [] = 4 ∧ (lcs [(4, true)] []).m.running = true ∧ (returning ready).nv.pendingLc ≠ 0 ∧ reporting.m.conf.cfg.part 2 = none ∧
      (put one [(R.ATT_STAT_BUSY, [1], 1)]).fld R.ATT_STAT_BUSY [1] = 1 ∧ (put one [(R.PTN_PSTATE_STATE, [1], psFaulted)]).pstate 1 ≠ psActive ∧
      (put one [(R.PTN_PSTATE_STATE, [1], psFaulted)]).conf.cfg.part 1 ≠ none ∧ one.sec.reports = []) := by decide +kernel
/-- An unsigned image of 3,776 bytes at the start of host memory of port 0. -/
def imaged (lc : Nat) : Mach :=
  put { deployed with mem := writeBytes [] (hostKey 0 0 0) (image 0 77 0 mSig) }
    [(R.SEC_LC_STATE, [], lc), (R.CFG_CHART_LEN_LEN, [], 3776)]
theorem imaged_source : (imaged 0).chartSource 0 = image 0 77 0 mSig := by
  have e : (imaged 0).fld R.CFG_CHART_ADDR_ADDR [] * 4096 = 0 ∧ (imaged 0).fld R.CFG_CHART_LEN_LEN [] = (image 0 77 0 mSig).length := by decide +kernel
  have h : (imaged 0).mem = writeBytes [] (hostKey 0 0 0) (image 0 77 0 mSig) := by simp [imaged, put]
  unfold Mach.chartSource Mach.load
  rw [e.1, e.2, h]
  exact Laws.readBytes_writeBytes _ _ _
def imgHead (flags id base : Nat) : List Byte := (image flags id base []).take 560
def imgSects : List Sect := [⟨1, 1, 0, 0, 0, 0, 0⟩, ⟨2, 1, 0, 0, 0, 0, 0⟩, ⟨3, 1, 0, 0, 0, 0, 0⟩, ⟨4, 1, 0, 14, 448, 112, 0⟩, ⟨5, 1, 0, 384, 576, 3072, 0⟩, ⟨6, 1, 0, 0, 0, 0, 0⟩]
theorem img_split : image 0 77 0 mSig = imgHead 0 77 0 ++ (List.replicate 3088 0 ++ mSig) := by decide +kernel
theorem img_head : (imgHead 0 77 0).length = 560 := by decide +kernel
theorem sectEntries_length (b : List Byte) (s : Sect) : (sectEntries b s).length = s.count := by simp [sectEntries]
theorem img_islands : sectEntries (image 0 77 0 mSig) ⟨5, 1, 0, 384, 576, 3072, 0⟩ = List.replicate 384 (List.replicate 8 0) := by
  apply List.ext_getElem
  · rw [List.length_replicate, sectEntries_length]
  · intro j h _
    have hj : j < 384 := by have h := h; rw [sectEntries_length] at h; exact h
    simp only [sectEntries, sliceBytes, List.getElem_map, List.getElem_range, List.getElem_replicate, entrySize]
    rw [img_split, List.drop_append, img_head, List.drop_eq_nil_of_le (by rw [img_head]; omega), List.nil_append, List.drop_append, List.drop_replicate,
      List.take_append, List.take_replicate, List.length_replicate, show 8 - (3088 - (576 + j * 8 - 560)) = 0 by omega, List.take_zero, List.append_nil,
      Nat.min_eq_left (by omega)]
    rfl
theorem img_fabric : sectEntries (image 0 77 0 mSig) ⟨4, 1, 0, 14, 448, 112, 0⟩ = (List.range 14).map (fun i => entry 8 [(0, 1, i), (1, 1, 64)]) := by decide +kernel
theorem img_table : sectTable (image 0 77 0 mSig) = imgSects := by decide +kernel
theorem img_header : imHeaderOk (image 0 77 0 mSig) false false = true := by decide +kernel
def imgCfg : Cfg :=
  { Cfg.empty with fabric := (List.range 14).map (fun i => entry 8 [(0, 1, i), (1, 1, 64)]), islands := List.replicate 384 (List.replicate 8 0), types := [1, 2, 3, 4, 5, 6] }
theorem img_cfg : imageCfg (image 0 77 0 mSig) = imgCfg := by
  unfold imageCfg
  rw [img_table]
  have e : ∀ t, sectEntries (image 0 77 0 mSig) ⟨t, 1, 0, 0, 0, 0, 0⟩ = [] := fun _ => rfl
  simp only [imgSects, List.foldl_cons, List.foldl_nil, img_islands, img_fabric, e]
  decide +kernel
theorem img_sections : sectionCheck (image 0 77 0 mSig) false false = none := by
  unfold sectionCheck
  rw [img_table, img_header]
  simp only [imgSects, List.zipIdx_cons, List.zipIdx_nil, List.map_cons, List.map_nil, img_islands, img_fabric]
  decide +kernel
theorem imaged_passes : (imaged 0).imageCheck 0 false (image 0 77 0 mSig) = none := by
  have a : layoutCheck (image 0 77 0 mSig) = none ∧ versionCheck (image 0 77 0 mSig) = none := test_image_layout_passes
  have b : (imaged 0).contentCheck (imageCfg (image 0 77 0 mSig)) (fun t => ((sectTable (image 0 77 0 mSig)).findIdx? (fun s => s.type == t)).getD 0xFFFF)
      (imReq (image 0 77 0 mSig)) = none := by
    rw [img_cfg, img_table]
    exact contentCheck_bare _ _ _ _ (panes_absent _ (by decide +kernel)) ⟨rfl, rfl, rfl, rfl, rfl, rfl⟩ (by decide +kernel)
  unfold Mach.imageCheck
  simp only [List.findSome?_cons, a.1, a.2, img_sections, b, Nat.not_lt_zero, and_false, if_false, List.findSome?_nil]
/-- The clause on a firmware image that passes has its hypothesis wherever its signature verifies (Config.sm2Verify). -/
theorem witness_DirectConfigurationAndFirmware :
    (∀ lc ∈ [0, 3], (imaged lc).running = true ∧ (imaged lc).fld R.SEC_CMDSTAT_BUSY [] = 0 ∧ (imaged lc).fld R.SEC_LC_STATE [] = lc ∧ (imaged lc).lcFree = true) ∧
    (imaged 0).imageCheck 0 false ((imaged 0).chartSource 0) = none ∧ (ready.imageCheck 0 false (ready.chartSource 0)).isSome = true ∧
    (ready.running = true ∧ ready.lcFree = true ∧ ready.fld R.SEC_LC_STATE [] = 0 ∧ deployed.fld R.SEC_LC_STATE [] = 2) ∧
    (one.running = true ∧ one.lcFree = false ∧ one.fld R.SEC_LC_STATE [] = 0) ∧
    (ready.fld R.PRT_STATUS_PHASE [] = 5 ∧ ready.fld R.ERR_MSTATE_STATE [] ≠ 2 ∧ State.reset.nv.lc ≠ 4 ∧ State.reset.nv.pendingLc = 0 ∧ State.reset.nv.fwOk [] = false) ∧
    ((phase 1).fld R.PRT_STATUS_PHASE [] = 1 ∧ (phase 1).sec.fwRun = 0) ∧
    (let b := fwMagic ++ (entry 160 [(16, 8, 160), (128, 1, 1)]).drop 8
     State.reset.nv.makerCheck b = rcOk → State.reset.nv.fwOk b = true) := by
  refine ⟨by decide +kernel, by rw [imaged_source]; exact imaged_passes, by decide +kernel, by decide +kernel, by decide +kernel, by decide +kernel, by decide +kernel, fun h => ?_⟩
  have e : (fwMagic ++ (entry 160 [(16, 8, 160), (128, 1, 1)]).drop 8).take 8 = fwMagic ∧ leAt (fwMagic ++ (entry 160 [(16, 8, 160), (128, 1, 1)]).drop 8) 16 8 = 160 ∧
    (fwMagic ++ (entry 160 [(16, 8, 160), (128, 1, 1)]).drop 8).length = 160 ∧ State.reset.nv.fwFloor = 0 := by decide +kernel
  simp [Nv.fwOk, e.1, e.2.1, e.2.2.1, e.2.2.2, h]
/-! ### The whole machine -/

theorem witness_VectorArithmetic : (0 : Nat) < 1 ∧ Fp.nan ∈ [Fp.nan] ∧ Fp.inf false ∈ [Fp.zero, Fp.inf false] ∧ [Fp.zero].length ≤ 1 := by decide +kernel
/-- A state with sound fuses from which a step answers a next state. -/
theorem witness_FusesOnlyBurn : FusesSound State.reset.nv ∧ ∃ t, step State.reset = .next t := ⟨by unfold FusesSound; decide +kernel, _, rfl⟩
theorem witness_OnlyTheirOwnCommandsTouchFlashFusesAndPins :
    (∃ t, exec (.halt 0 .f) (st (lin (wRI 7))) = .next t) ∧ nvRow (.halt 0 .f) = false ∧ pinRow (.halt 0 .f) = false := ⟨⟨_, rfl⟩, rfl, rfl⟩
theorem witness_EveryWellFormedCommandAnswers :
    (Instr.flitReceive 3 flit0 ⟨false, [some 0]⟩).wf = true ∧ (Instr.halt 0 .f).wf = true ∧ ∃ f, exec (.flitReceive 3 [] ⟨false, [some 0]⟩) State.reset = .fault f := by
  refine ⟨?_, rfl, _, rfl⟩
  simp [Instr.wf, flit0, flitOf, show (flitBody flitH).length = 248 by decide +kernel]
/-! ### Ill-formed commands -/

def wfHead : CollHead := ⟨0, 0, 0, 0, 0, 0⟩
def wfLine (pins : List (Fin 72)) : LineErr := ⟨0, 0, pins⟩
/-- An admission whose profile has 63 bytes. -/
def mBad : MirrorEnt := { mEnt with profile := List.replicate 63 0 }

theorem test_wf_refuses_accesses :
    (Instr.registerWrite 0 0 (2 ^ 28) 8 0).wf = false ∧ (Instr.registerWrite 0 1 (2 ^ 26) 8 0).wf = false ∧ (Instr.registerWrite 0 0 (2 ^ 32 + 2 ^ 16) 8 0).wf = false ∧ (Instr.registerWrite 0 1 (2 ^ 32 + 2 ^ 14) 8 0).wf = false ∧ (Instr.registerWrite 0 0 0 3 0).wf = false ∧
    (Instr.registerWrite 0 0 0 4 (2 ^ 32)).wf = false ∧ (Instr.rcRead 0 1 (2 ^ 26) 8).wf = false ∧ (Instr.rcRead 0 0 0 16).wf = false ∧
    (Instr.outOfContractAccess 0 0 (2 ^ 28) 2 false).wf = false ∧ (Instr.outOfContractAccess 0 0 0 5 false).wf = false ∧
    (Instr.outOfContractAccess 0 0 8 8 true).wf = false ∧ (Instr.outOfContractAccess 0 0 4 4 true).wf = false ∧ (Instr.unoccupiedOffsetAccess 0 0 (2 ^ 28) false).wf = false ∧
    (Instr.hatchEnable 0 0 384).wf = false ∧ (Instr.dmaReadError 0 0 (.ep 0 0)).wf = false := by decide
theorem test_wf_refuses_boot_findings :
    (Instr.selftestDone ⟨[], [3, 3], [], [], [], []⟩).wf = false ∧ (Instr.selftestDone ⟨[(1, 2), (1, 2)], [], [], [], [], []⟩).wf = false ∧
    (Instr.selftestDone ⟨[], [], [(3, 4), (3, 4)], [], [], []⟩).wf = false ∧ (Instr.selftestDone ⟨[], [], [], [7, 7], [], []⟩).wf = false ∧
    (Instr.hostLinkUp 0 0 16).wf = false ∧ (Instr.hostLinkUp 0 6 16).wf = false ∧ (Instr.hostLinkUp 0 1 3).wf = false ∧
    (Instr.cxlEnumerationDone 0 (some ⟨1, 4⟩) 0).wf = false ∧ (Instr.cxlEnumerationDone 0 (some ⟨0, 8⟩) 0).wf = false ∧
    (Instr.currentReductionDone []).wf = false ∧ (Instr.currentReductionDone [(0, .copy), (0, .copy)]).wf = false ∧ (Instr.marginLink 180).wf = false := by decide
theorem test_wf_refuses_corrections :
    (Instr.copy 0 [wfLine [1], wfLine [2]]).wf = false ∧ (Instr.copy 0 [wfLine [1, 2, 3]]).wf = false ∧ (Instr.copy 0 [wfLine [1, 1]]).wf = false ∧
    (Instr.updatePass1 0 0 0 [wfLine [1, 1]]).wf = false ∧ (Instr.patrolScrub [wfLine [], wfLine []]).wf = false := by decide
theorem test_wf_refuses_messages :
    (Instr.peerOpenReply 0 ⟨false, true, 1025, 0, false, 0, 1, 0, 1⟩).wf = false ∧ (Instr.peerOpenReply 0 ⟨false, true, 0, 2 ^ 16, false, 0, 1, 0, 1⟩).wf = false ∧
    (Instr.peerOpenReply 0 ⟨false, true, 0, 0, false, 256, 1, 0, 1⟩).wf = false ∧ (Instr.negMsg 0 0 0 0 [1, 2, 3, 4, 5] 0 0).wf = false ∧
    (Instr.negMsg 0 0 0 0 [1, 2, 3, 4, 5, 6] 2 1).wf = false ∧ (Instr.flitReceive 0 [0] ⟨false, [some 0]⟩).wf = false ∧ (Instr.flitReceive 3 flit0 ⟨false, []⟩).wf = false ∧ (Instr.flitReceive 3 flit0 ⟨true, [none, some 2]⟩).wf = false ∧
    (Instr.shutterReq 0 (List.replicate 257 0)).wf = false ∧ (Instr.setMsg wfHead [1, 1] [] 0).wf = false ∧ (Instr.setMsg wfHead [] [2, 2] 0).wf = false ∧
    (Instr.mirror 0 0 0 (.admitted mBad)).wf = false ∧ (Instr.mirror 0 0 0 (.tokens [(1, 0, 0), (1, 1, 1)])).wf = false ∧
    (Instr.snapshot 0 0 0 [mBad]).wf = false ∧ (Instr.snapshot 0 0 0 [mEnt, mEnt]).wf = false := by decide +kernel
/-- A message longer than what LENGTH can name. -/
theorem test_wf_refuses_long_messages (bytes : List Byte) (h : 2 ^ 26 < bytes.length) :
    (Instr.shareMsg wfHead 0 0 0 bytes false).wf = false ∧ (Instr.resultMsg wfHead [] bytes false).wf = false ∧ (Instr.sendData wfHead bytes false).wf = false ∧
    (Instr.conduitRec ⟨0, 0⟩ 0 0 bytes false).wf = false ∧ (Instr.conduitTap ⟨0, 0⟩ 0 0 bytes false).wf = false := by
  have e : msgOk bytes = false := by simp only [msgOk, decide_eq_false_iff_not]; omega
  exact ⟨e, e, e, e, e⟩
theorem test_wf_refuses_long_messages_applies : 2 ^ 26 < (List.replicate (2 ^ 26 + 1) (0 : Byte)).length := by rw [List.length_replicate]; omega
theorem test_wf_accepts :
    (Instr.registerWrite 1 32 (2 ^ 26 - 8) 8 (2 ^ 64 - 1)).wf = true ∧ (Instr.registerWrite 1 32 (2 ^ 32 + 2 ^ 14 - 8) 8 0).wf = true ∧ (Instr.outOfContractAccess 0 0 4 8 true).wf = true ∧
    (Instr.hostLinkUp 0 5 16).wf = true ∧ (Instr.cxlEnumerationDone 0 (some ⟨1, 16⟩) 0).wf = true ∧ (Instr.copy 0 [wfLine [1, 2]]).wf = true ∧
    (Instr.negMsg 0 0 0 0 [1, 2, 3, 4, 5, 6] 1 1).wf = true ∧ (Instr.snapshot 0 0 0 [mEnt]).wf = true ∧ (Instr.marginLink 179).wf = true ∧
    (Instr.sendData wfHead [] false).wf = true := by decide +kernel

end Sys2Proof.Tests
end

section
/-! SUPPORT. What the register file lists after a reset (O3). -/

namespace Sys2Proof.Proofs
open Sys2Proof.Machine

/-- An address that no entry of a register file lists reads 0. -/
theorem word_of_unlisted {t : Regs} {a : Nat} (h : a ∉ t.map Prod.fst) : Regs.word t a = 0 := by
  unfold Regs.word
  induction t with
  | nil => rfl
  | cons e t ih =>
    simp only [List.map_cons, List.mem_cons, not_or] at h
    rw [Tbl.get, if_neg h.1]
    exact ih h.2

/-- The registers that a reset gives a word other than 0, by the fields of their tables (R18). -/
theorem regsReset_addr {a : Nat} (h : a ∈ regsReset.map Prod.fst) :
    a ∈ [R.PRT_ID_GEN.addr [], R.PRT_PWRCAP_CAP_W.addr [], R.MRD_ID_MODULE.addr [], R.GRT_STATUS_DISTANCE.addr []] ∨
    (∃ n : LinkId, a = R.MRD_LPEER_MODULE.addr [n]) ∨
    ∃ p : PartId, ∃ f ∈ [R.COL_TCTL_GEXP_MIN, R.COL_TSTATE_CLOSED, R.COL_CCFG_MANAGER, R.CKP_CTL_BUDDY, R.CKP_STATUS_LAST_STEP, R.HIER_CFG_MANAGER,
      R.GZT_PAIRCFG_PEER], a = f.addr [p + 1] := by
  revert a
  decide +kernel

/-- Settles O3: the fields that the tables number, by evaluation of the reset file; every other address is listed by no entry of it. -/
theorem resetLeavesTheValuesOfTheSpec : Obligations.ResetLeavesTheValuesOfTheSpec := by
  unfold Obligations.ResetLeavesTheValuesOfTheSpec
  refine ⟨by decide +kernel, by decide +kernel, by decide +kernel, fun a hone hlink hpart => ?_, by decide +kernel⟩
  refine word_of_unlisted (fun hmem => ?_)
  rcases regsReset_addr hmem with h | ⟨n, h⟩ | ⟨p, f, hf, h⟩
  · exact hone h
  · exact hlink n h
  · exact hpart p f hf h
end Sys2Proof.Proofs
end

section
/-! SUPPORT. What every command keeps of the queue, of flash and fuses and of the pins, and that it answers (O59, O60). -/

namespace Sys2Proof.Proofs
open Sys2Proof.Machine

/-! ### What a meaning leaves of the queue, of flash and fuses, and of the pins -/

/-- The queue, and where asked flash and fuses (`nv`) and the pins (`pins`), are in t as they are in s. -/
def Outer (nv pins : Bool) (s t : State) : Prop :=
  t.pending = s.pending ∧ (nv = true → t.nv = s.nv) ∧ (pins = true → t.ext = s.ext)

/-- A meaning answers a next state that keeps what `Outer` names. -/
def Answers (nv pins : Bool) (s : State) (r : Res) : Prop := ∃ t, r = .next t ∧ Outer nv pins s t

section
variable {nv pins : Bool} {s t u : State}

theorem Outer.refl (s : State) : Outer nv pins s s := ⟨Eq.refl _, fun _ => Eq.refl _, fun _ => Eq.refl _⟩

theorem Outer.trans (h : Outer nv pins s t) (g : Outer nv pins t u) : Outer nv pins s u := by
  obtain ⟨hq, hn, hp⟩ := h
  obtain ⟨gq, gn, gp⟩ := g
  exact ⟨gq.trans hq, fun e => (gn e).trans (hn e), fun e => (gp e).trans (hp e)⟩

/-- Where only the volatile state changes, all three stay. -/
theorem Outer.volatile (s : State) (m : Mach) : Outer nv pins s { s with m := m } := Outer.refl s

/-- Where flash and fuses change beside the volatile state, the queue and the pins stay. -/
theorem Outer.flash (s : State) (n : Nv) (m : Mach) : Outer false pins s { s with nv := n, m := m } :=
  ⟨rfl, nofun, fun _ => rfl⟩

theorem Outer.pinsFree (h : Outer nv true s t) : Outer nv false s t := ⟨h.1, h.2.1, nofun⟩

theorem Answers.volatile (s : State) (m : Mach) : Answers nv pins s (.next { s with m := m }) := ⟨_, rfl, Outer.volatile s m⟩

theorem Answers.next (h : Outer nv pins s t) : Answers nv pins s (.next t) := ⟨t, rfl, h⟩

theorem Answers.of_volatile {r : Res} {m : Mach} (h : Answers nv pins { s with m := m } r) : Answers nv pins s r := by
  obtain ⟨t, ht, hk⟩ := h
  exact ⟨t, ht, (Outer.volatile s m).trans hk⟩

/-! ### Resets and chart commands -/

theorem chartWritten_outer (s : State) (x : ChartOp) (fetched ok : Bool) : Outer false true s (s.chartWritten x fetched ok) := by
  unfold State.chartWritten
  dsimp only
  split
  · exact Outer.volatile s _
  · split
    · exact Outer.volatile s _
    · split
      · exact Outer.volatile s _
      · split <;> exact Outer.flash s _ _

theorem chartErased_outer (s : State) (x : ChartOp) (ok : Bool) : Outer false true s (s.chartErased x ok) := by
  unfold State.chartErased
  dsimp only
  split <;> exact Outer.flash s _ _

theorem chartReverted_outer (s : State) (x : ChartOp) (ok : Bool) : Outer false true s (s.chartReverted x ok) := by
  unfold State.chartReverted
  dsimp only
  split
  · exact Outer.volatile s _
  · split
    · exact Outer.volatile s _
    · split
      · exact Outer.volatile s _
      · split
        · exact Outer.volatile s _
        · exact Outer.flash s _ _

theorem chartDone_outer (s : State) (fetched ok : Bool) (tear : Mach → Nat → Mach) : Outer false true s (s.chartDone fetched ok tear) := by
  unfold State.chartDone
  split
  · exact Outer.refl s
  · split
    · exact Outer.refl s
    · split
      · exact Outer.volatile s _
      · exact chartWritten_outer s _ _ _
      · exact chartErased_outer s _ _
      · exact chartReverted_outer s _ _

theorem cutChart_outer (s : State) : Outer false true s s.cutChart := by
  unfold State.cutChart
  dsimp only
  split
  · exact Outer.refl s
  · split
    · exact Outer.volatile s _
    · split
      · split <;> exact Outer.flash s _ _
      · exact Outer.flash s _ _
      · exact Outer.flash s _ _
      · exact Outer.volatile s _

theorem enterReset_outer (s : State) : Outer false true s s.enterReset :=
  (cutChart_outer s).trans (Outer.volatile _ _)

/-- A boot moves the pins it latches, and repairs the rows that were recorded (R379, R637). -/
theorem boot_outer (s : State) (cause sel feed smb : Nat) : Outer false false s (s.boot cause sel feed smb) :=
  ⟨(enterReset_outer s).1, nofun, nofun⟩

theorem selfReset_outer (s : State) : Outer false false s s.selfReset := boot_outer s _ _ _ _

theorem flushCommit_outer (s : State) : Outer false true s s.flushCommit := by
  unfold State.flushCommit
  dsimp only
  split
  · exact Outer.refl s
  · split
    · exact Outer.flash s _ _
    · exact (Outer.flash s _ _).trans (enterReset_outer _)

theorem powerFail_outer (s : State) (unannounced : Bool) : Outer true true s (s.powerFail unannounced) := by
  unfold State.powerFail
  dsimp only
  split
  · exact Outer.refl s
  · exact Outer.volatile s _

theorem tempReading_outer (s : State) (d sensor : Nat) (celsius : Int) : Outer false false s (s.tempReading d sensor celsius) := by
  unfold State.tempReading
  split
  · exact Outer.refl s
  · split
    · exact ⟨(enterReset_outer _).1, nofun, nofun⟩
    · split
      · exact Outer.volatile s _
      · exact Outer.refl s

/-! ### Identity, life cycle and firmware (16_identity_and_lifecycle.md) -/

/-- A command of SEC_CMD keeps what its action keeps: the rest of it is volatile. -/
theorem secCmd_outer (s : State) (op : Nat) {f : State → State} (h : ∀ m, Outer nv pins { s with m := m } (f { s with m := m })) :
    Outer nv pins s (s.secCmd op f) := by
  unfold State.secCmd
  split
  · exact Outer.refl s
  · split
    · exact Outer.volatile s _
    · exact (Outer.volatile s _).trans (h _)

theorem transition_outer (s : State) (froms : List Nat) (target : Nat) (owner maker : Bool) :
    Outer false true s (s.transition froms target owner maker) := by
  refine secCmd_outer s 3 (fun m => ?_)
  dsimp only
  split
  · exact Outer.volatile _ _
  · split
    · exact Outer.volatile _ _
    · split
      · exact Outer.volatile _ _
      · exact Outer.flash _ _ _

theorem provision_outer (s : State) : Outer false false s s.provision := by
  refine secCmd_outer s 3 (fun m => ?_)
  dsimp only
  split
  · exact Outer.volatile _ _
  · split
    · exact Outer.volatile _ _
    · exact (Outer.flash _ _ _).trans (selfReset_outer _)

theorem claim_outer (s : State) : Outer false false s s.claim := by
  refine secCmd_outer s 2 (fun m => ?_)
  dsimp only
  split
  · exact Outer.volatile _ _
  · split
    · exact Outer.volatile _ _
    · exact (Outer.flash _ _ _).trans (selfReset_outer _)

theorem transitionTo_outer (s : State) (target : Nat) : Outer false false s (s.transitionTo target) := by
  unfold State.transitionTo
  split
  · exact provision_outer s
  all_goals exact (transition_outer s _ _ _ _).pinsFree

/-- SCRAP resets nothing: it is a transition with a wipe from every state. -/
theorem scrap_outer (s : State) : Outer false true s (s.transitionTo 4) := by
  by_cases h : s.nv.lc = 2
  · have e : s.transitionTo 4 = s.transition [2] 4 true false := by simp [State.transitionTo, h]
    exact e ▸ transition_outer s _ _ _ _
  · have e : s.transitionTo 4 = s.transition [0, 1, 3] 4 false true := by simp [State.transitionTo]
    exact e ▸ transition_outer s _ _ _ _

theorem wipeDone_outer (s : State) : Outer false false s s.wipeDone := by
  unfold State.wipeDone
  dsimp only
  split
  · exact Outer.refl s
  · exact (Outer.flash s _ _).trans (selfReset_outer _)

theorem setImgFloor_outer (s : State) (v : Nat) : Outer false true s (s.setImgFloor v) := by
  refine secCmd_outer s 4 (fun m => ?_)
  split
  · exact Outer.volatile _ _
  · split
    · exact Outer.volatile _ _
    · exact Outer.flash _ _ _

theorem setFwFloor_outer (s : State) (v : Nat) : Outer false true s (s.setFwFloor v) := by
  refine secCmd_outer s 5 (fun m => ?_)
  split
  · exact Outer.volatile _ _
  · split
    · exact Outer.volatile _ _
    · exact Outer.flash _ _ _

theorem moduleReport_outer (s : State) : Outer true true s s.moduleReport := by
  refine secCmd_outer s 6 (fun m => ?_)
  split <;> exact Outer.volatile _ _

theorem factoryWrite_outer (s : State) (port : Nat) : Outer false true s (s.factoryWrite port) := by
  refine secCmd_outer s 8 (fun m => ?_)
  split
  · exact Outer.volatile _ _
  · exact Outer.flash _ _ _

theorem attReport_outer (s : State) (p : Nat) : Outer true true s (s.attReport p) := by
  unfold State.attReport
  dsimp only
  split
  · exact Outer.refl s
  · split
    · exact Outer.volatile s _
    · split <;> exact Outer.volatile s _

theorem reportReady_outer (s : State) : Outer true true s s.reportReady := by
  unfold State.reportReady
  split
  · exact Outer.refl s
  · split
    · exact Outer.refl s
    · exact Outer.volatile s _

theorem fwUpdate_outer (s : State) (medium : Nat) (image : List Byte) : Outer false true s (s.fwUpdate medium image) := by
  unfold State.fwUpdate
  dsimp only
  split
  · exact Outer.refl s
  · exact Outer.flash s _ _

end

/-! ### Register writes: every command register's command keeps the queue -/

/-- Every result that an optional command gives keeps the queue. -/
def CommandAnswers (s : State) (o : Option Res) : Prop := ∀ r, o = some r → Answers false false s r

section
variable {s : State}

theorem CommandAnswers.noCommand : CommandAnswers s none := fun _ e => nomatch e

theorem CommandAnswers.command {x : Res} (h : Answers false false s x) : CommandAnswers s (some x) := by
  intro y e
  cases e
  exact h

theorem CommandAnswers.volatile (m : Mach) : CommandAnswers s (some (.next { s with m := m })) := .command (Answers.volatile s m)

theorem CommandAnswers.next {t : State} {nv pins : Bool} (h : Outer nv pins s t) : CommandAnswers s (some (.next t)) :=
  .command ⟨t, rfl, h.1, nofun, nofun⟩

theorem CommandAnswers.orElse {o : Option Res} {f : Unit → Option Res} (h : CommandAnswers s o) (g : CommandAnswers s (f ())) :
    CommandAnswers s (o.orElse f) := by
  cases o with
  | none => exact g
  | some r => exact h

theorem CommandAnswers.getD {o : Option Res} (h : CommandAnswers s o) : Answers false false s (o.getD (.next s)) := by
  cases o with
  | none => exact .next (Outer.refl s)
  | some r => exact h r rfl

theorem CommandAnswers.ite {p : Prop} [Decidable p] {a b : Option Res} (h : CommandAnswers s a) (g : CommandAnswers s b) :
    CommandAnswers s (if p then a else b) := by
  split
  · exact h
  · exact g

variable (c : RegCmd) (r : RegArr)

theorem porter_answers : CommandAnswers s (c.porter r s) := by
  unfold RegCmd.porter
  refine .ite ?_ (.ite ?_ (.ite (.volatile _) (.ite (.volatile _) (.ite (.volatile _) (.ite (.volatile _) (.ite (.volatile _) .noCommand))))))
  · split
    · exact .ite (.volatile _) (.volatile _)
    · exact .volatile _
    · exact .volatile _
    · exact .noCommand
  · dsimp only
    split
    · exact .volatile _
    · exact .volatile _
    · exact .volatile _
    · exact .volatile _
    · exact .noCommand

theorem partition_answers : CommandAnswers s (c.partition r s) := by
  unfold RegCmd.partition
  refine .ite ?_ (.ite (.volatile _) (.ite (.volatile _) (.ite ?_ (.ite (.volatile _) (.ite (.volatile _) .noCommand)))))
  · split
    iterate 5 exact .volatile _
    exact .noCommand
  · split
    · exact .volatile _
    · exact .volatile _
    · exact .noCommand

theorem serving_answers : CommandAnswers s (c.serving r s) := by
  unfold RegCmd.serving
  refine .ite (.volatile _) (.ite (.ite (.volatile _) (.ite (.volatile _) .noCommand)) (.ite (.ite (.volatile _) (.ite (.volatile _) .noCommand))
    (.ite ?_ (.ite ?_ (.ite (.ite (.volatile _) .noCommand) (.ite ?_ .noCommand))))))
  · split
    · exact .volatile _
    · exact .volatile _
    · exact .noCommand
  · dsimp only
    split
    iterate 3 exact .volatile _
    exact .noCommand
  · split
    · exact .volatile _
    · exact .volatile _
    · exact .noCommand

theorem fabric_answers : CommandAnswers s (c.fabric r s) := by
  unfold RegCmd.fabric
  refine .ite (.volatile _) (.ite ?_ (.ite ?_ (.ite ?_ (.ite (.volatile _) .noCommand))))
  · dsimp only
    split
    iterate 5 exact .volatile _
    exact .noCommand
  · split
    iterate 5 exact .volatile _
    exact .noCommand
  · split
    · exact .volatile _
    · exact .volatile _
    · exact .noCommand

theorem service_answers : CommandAnswers s (c.service r s) := by
  unfold RegCmd.service
  refine .ite (.volatile _) (.ite (.volatile _) (.ite ?_ (.ite ?_ (.ite (.volatile _) .noCommand))))
  · split
    iterate 3 exact .volatile _
    exact .noCommand
  · dsimp only
    split
    iterate 3 exact .volatile _
    exact .noCommand

theorem newNonce_outer (s : State) : Outer true true s (s.secCmd 1 (fun s => { s with m := s.m.newNonce })) :=
  secCmd_outer s 1 (fun _ => Outer.volatile _ _)

theorem directLoad_outer (s : State) (port : PortId) : Outer true true s (s.secCmd 7 (fun s => { s with m := s.m.directLoad s.nv port })) :=
  secCmd_outer s 7 (fun _ => Outer.volatile _ _)

theorem secure_answers : CommandAnswers s (c.secure r s) := by
  unfold RegCmd.secure
  refine .ite ?_ (.ite ?_ .noCommand)
  · split
    · exact .next (newNonce_outer s)
    · exact .next (claim_outer s)
    · exact .next (transitionTo_outer s _)
    · exact .next (setImgFloor_outer s _)
    · exact .next (setFwFloor_outer s _)
    · exact .next (moduleReport_outer s)
    · exact .next (directLoad_outer s _)
    · exact .next (factoryWrite_outer s _)
    · exact .noCommand
  · split
    · exact .next (attReport_outer s _)
    · exact .volatile _
    · exact .noCommand

/-- Whatever command a write gives, or none, the write answers and keeps the queue. -/
theorem run_answers : Answers false false s (c.run r s) := by
  unfold RegCmd.run
  exact CommandAnswers.getD (.orElse (.orElse (.orElse (.orElse (.orElse (porter_answers c r) (partition_answers c r)) (serving_answers c r)) (fabric_answers c r))
    (service_answers c r)) (secure_answers c r))

end

theorem regWrite_answers (s : State) (port : PortId) (p a off width : Nat) (data : Word) : Answers false false s (s.regWrite port p a off width data) := by
  unfold State.regWrite
  split
  · exact .next (Outer.refl s)
  · dsimp only
    split
    · exact (run_answers _ _).of_volatile
    · exact .volatile s _

theorem registerWrite_answers (port : PortId) (fn : FnId) (offset width data : Nat) (s : State) :
    Answers false false s (execRegisterWrite port fn offset width data s) := by
  unfold execRegisterWrite
  dsimp only
  split
  · exact .next (Outer.refl s)
  · split
    · exact .volatile s _
    · split
      · exact .volatile s _
      · split
        · split
          · exact .volatile s _
          · exact .next (Outer.refl s)
        · split
          · exact .volatile s _
          · split
            · exact .next (Outer.refl s)
            · split
              · exact regWrite_answers s _ _ _ _ _ _
              · exact .volatile s _
              · exact .next (Outer.refl s)

theorem rcRead_answers (port : PortId) (fn : FnId) (offset width : Nat) (s : State) :
    Answers true true s (execRcRead port fn offset width s) := by
  unfold execRcRead
  dsimp only
  split
  · exact .next (Outer.refl s)
  · split
    · exact .volatile s _
    · split
      · exact .volatile s _
      · split <;> exact .volatile s _

theorem epWrite_answers (port : PortId) (fn : FnId) (offset : BitVec 28) (s : State) :
    Answers true true s (execEpWrite port fn offset s) := by
  unfold execEpWrite
  dsimp only
  split
  · exact .next (Outer.refl s)
  · split
    · exact .volatile s _
    · split
      · exact .volatile s _
      · exact .next (Outer.refl s)
      · exact .volatile s _
      · exact .volatile s _

theorem inputPowerOn_answers (s : State) : Answers true false s (execInputPowerOn s) := by
  refine .next ?_
  split
  · exact Outer.refl s
  · exact ⟨rfl, fun _ => rfl, nofun⟩

theorem inputPowerOff_answers (s : State) : Answers false false s (execInputPowerOff s) := by
  refine .next ?_
  split
  · exact Outer.refl s
  · exact ⟨(enterReset_outer _).1, nofun, nofun⟩

theorem resetNAssert_answers (s : State) : Answers false false s (execResetNAssert s) := by
  refine .next ?_
  split
  · exact ⟨rfl, nofun, nofun⟩
  · exact ⟨(enterReset_outer _).1, nofun, nofun⟩

theorem resetNRelease_answers (sel : Fin 4) (feed : Fin 16) (smb : Fin 8) (s : State) : Answers false false s (execResetNRelease sel feed smb s) := by
  refine .next ?_
  split
  · exact Outer.refl s
  · dsimp only
    split
    · exact ⟨rfl, nofun, nofun⟩
    · exact ⟨(boot_outer _ _ _ _ _).1, nofun, nofun⟩

theorem waitPowerEnd_answers (s : State) : Answers true false s (execWaitPowerEnd s) := by
  refine .next ?_
  split
  · exact ⟨rfl, fun _ => rfl, nofun⟩
  · exact Outer.refl s

theorem pwrfailN_answers (s : State) : Answers true false s (execPwrfailN s) := by
  refine .next ?_
  obtain ⟨hq, hn, -⟩ := powerFail_outer { s with ext := { s.ext with pwrfailN := false } } false
  exact ⟨hq, hn, nofun⟩

theorem inputUndervoltage_answers (s : State) : Answers true true s (execInputUndervoltage s) := by
  refine .next ?_
  split
  · exact powerFail_outer s true
  · exact Outer.refl s

theorem sysRefclkLoss_answers (s : State) : Answers true false s (execSysRefclkLoss s) := by
  refine .next ?_
  split
  · exact ⟨rfl, fun _ => rfl, nofun⟩
  · exact Outer.refl s

theorem rowMapOutDone_answers (frame : Fin 524288) (line : Fin 32768) (spare : Bool) (s : State) :
    Answers false true s (execRowMapOutDone frame line spare s) := .next (Outer.flash s _ _)

/-! ### Every command -/

/-- The operands of a FLIT_RECEIVE that a link can carry (R415, R416). -/
def FlitOk (bytes : List Byte) (fec : FlitCode) : Prop :=
  bytes.length = 256 ∧ fec.codewords.length + b2n fec.cont ≤ 2 ∧ (fec.cont = true ∨ fec.codewords ≠ [])

/-- Every command but a FLIT_RECEIVE answers, and keeps the queue, flash and fuses outside `nvRow`, and the pins outside `pinRow`. All but
those named here change the volatile state alone. -/
theorem exec_answers (c : Instr) (s : State) (h : ∀ link bytes fec, c ≠ .flitReceive link bytes fec) :
    Answers (!nvRow c) (!pinRow c) s (exec c s) := by
  cases c with
  | flitReceive link bytes fec => exact absurd rfl (h link bytes fec)
  | registerWrite port fn offset width data => exact registerWrite_answers port fn offset width data s
  | rcRead port fn offset width => exact rcRead_answers port fn offset width s
  | epWrite port fn offset => exact epWrite_answers port fn offset s
  | inputPowerOn => exact inputPowerOn_answers s
  | inputPowerOff => exact inputPowerOff_answers s
  | resetNAssert => exact resetNAssert_answers s
  | resetNRelease sel feed smb => exact resetNRelease_answers sel feed smb s
  | waitPowerEnd => exact waitPowerEnd_answers s
  | pwrfailN => exact pwrfailN_answers s
  | inputUndervoltage => exact inputUndervoltage_answers s
  | sysRefclkLoss => exact sysRefclkLoss_answers s
  | dieTempReading die sensor celsius => exact .next (tempReading_outer s _ _ _)
  | flushCommit => exact .next (flushCommit_outer s)
  | chartCommandDone fetched ok => exact .next (chartDone_outer s _ _ _)
  | rowMapOutDone frame line spare => exact rowMapOutDone_answers frame line spare s
  | newNonce => exact .next (newNonce_outer s)
  | claim => exact .next (claim_outer s)
  | provision => exact .next (provision_outer s)
  | lcRelease => exact .next (transition_outer s _ _ _ _)
  | lcReturn => exact .next (transition_outer s _ _ _ _)
  | reissue => exact .next (transition_outer s _ _ _ _)
  | scrap => exact .next (scrap_outer s)
  | wipeDone => exact .next (wipeDone_outer s)
  | imgFloor value => exact .next (setImgFloor_outer s _)
  | fwFloor value => exact .next (setFwFloor_outer s _)
  | moduleReport => exact .next (moduleReport_outer s)
  | directLoad port => exact .next (directLoad_outer s port)
  | factoryWrite port => exact .next (factoryWrite_outer s _)
  | attReport part => exact .next (attReport_outer s _)
  | reportReady => exact .next (reportReady_outer s)
  | pldmFirmwareUpdate medium image => exact .next (fwUpdate_outer s _ _)
  | _ => exact .volatile s _

/-- A flit that a link can carry has its effect on the volatile state. -/
theorem flitReceive_answers {bytes : List Byte} {fec : FlitCode} (h : FlitOk bytes fec) (link : LinkId) (s : State) :
    Answers true true s (exec (.flitReceive link bytes fec) s) := by
  have e : exec (.flitReceive link bytes fec) s = s.withM _ := if_pos h
  rw [e]
  exact .volatile s _

/-- Bytes or codewords that no link carries stop the command (log entry 44). -/
theorem flitReceive_fault {bytes : List Byte} {fec : FlitCode} (h : ¬ FlitOk bytes fec) (link : LinkId) (s : State) :
    exec (.flitReceive link bytes fec) s = .fault .illFormed := if_neg h

/-- A FLIT_RECEIVE is well formed where a link can carry its operands. -/
theorem flitReceive_wf (link : LinkId) (bytes : List Byte) (fec : FlitCode) : (Instr.flitReceive link bytes fec).wf = true ↔ FlitOk bytes fec := by
  have e : fec.cont.toNat = b2n fec.cont := by cases fec.cont <;> rfl
  simp [Instr.wf, FlitOk, e, and_assoc]

/-- What a command does: it answers and keeps what `nvRow` and `pinRow` say, or it is a FLIT_RECEIVE that no link carries and stops with
the fault illFormed. -/
theorem exec_outcome (c : Instr) (s : State) :
    Answers (!nvRow c) (!pinRow c) s (exec c s) ∨
    (exec c s = .fault .illFormed ∧ c.wf = false ∧ ∃ link bytes fec, c = .flitReceive link bytes fec) := by
  by_cases h : ∃ link bytes fec, c = .flitReceive link bytes fec
  · obtain ⟨link, bytes, fec, rfl⟩ := h
    by_cases ok : FlitOk bytes fec
    · exact .inl (flitReceive_answers ok link s)
    · exact .inr ⟨flitReceive_fault ok link s, Bool.eq_false_iff.mpr (fun w => ok ((flitReceive_wf link bytes fec).mp w)), link, bytes, fec, rfl⟩
  · exact .inl (exec_answers c s (fun link bytes fec e => h ⟨link, bytes, fec, e⟩))

/-- Settles O59, by what each command keeps of flash and fuses, pins and queue. -/
theorem onlyTheirOwnCommandsTouchFlashFusesAndPins : Obligations.OnlyTheirOwnCommandsTouchFlashFusesAndPins := by
  unfold Obligations.OnlyTheirOwnCommandsTouchFlashFusesAndPins
  intro c s t ht
  rcases exec_outcome c s with ⟨u, hu, hq, hn, hp⟩ | ⟨hf, -⟩
  · cases hu.symm.trans ht
    exact ⟨hq, fun e => hn (by rw [e]; rfl), fun e => hp (by rw [e]; rfl)⟩
  · exact nomatch hf.symm.trans ht

/-- Settles O60, by the outcomes that a command can have. -/
theorem everyWellFormedCommandAnswers : Obligations.EveryWellFormedCommandAnswers := by
  unfold Obligations.EveryWellFormedCommandAnswers
  have answers : ∀ (c : Instr) (s : State), c.wf = true → ∃ t, exec c s = .next t ∧ t.pending = s.pending := by
    intro c s w
    rcases exec_outcome c s with ⟨t, ht, hq, -⟩ | ⟨-, hw, -⟩
    · exact ⟨t, ht, hq⟩
    · exact absurd w (by rw [hw]; decide)
  refine fun c s => ⟨fun w => ?_, fun rest w => answers c { s with pending := rest } w, fun f hf => ?_, fun r hr => ?_⟩
  · obtain ⟨t, ht, -⟩ := answers c s w
    exact ⟨t, ht⟩
  · rcases exec_outcome c s with ⟨t, ht, -⟩ | ⟨he, hw, hc⟩
    · exact nomatch ht.symm.trans hf
    · cases he.symm.trans hf
      exact ⟨rfl, hw, hc⟩
  · rcases exec_outcome c s with ⟨t, ht, -⟩ | ⟨he, -⟩
    · exact nomatch ht.symm.trans hr
    · exact nomatch he.symm.trans hr
end Sys2Proof.Proofs
end

section
/-! SUPPORT. Register accesses of a physical function: what reads and writes make of fields, and the runs of command registers (O24, O25, O26). -/

namespace Sys2Proof.Proofs
open Sys2Proof.Machine

/-! ### Register words and their fields -/

@[simp] theorem word_setWord_same (r : Regs) (a : Nat) (w : Word) : Regs.word (Regs.setWord r a w) a = w := Laws.get_set_same 0 r a w

theorem word_setWord_other (r : Regs) {a b : Nat} (w : Word) (h : b ≠ a) : Regs.word (Regs.setWord r a w) b = Regs.word r b :=
  Laws.get_set_other 0 r w h

theorem wordField_lt (w : Word) (hi lo : Nat) : wordField w hi lo < 2 ^ (hi + 1 - lo) := Laws.bits_lt _ _ _

/-- The whole word as a field. -/
theorem wordField_whole (w : Word) : wordField w 63 0 = w.toNat := by
  rw [wordField, Laws.bits_eq]
  have := w.isLt
  omega

/-- A field put at its own value of another word reads as there. -/
theorem wordField_put_field (v w : Word) {hi lo : Nat} (h : lo ≤ hi) (h64 : hi < 64) :
    wordField (wordPut v hi lo (wordField w hi lo)) hi lo = wordField w hi lo := by
  rw [Laws.wordField_put_same _ _ _ _ h h64, Nat.mod_eq_of_lt (wordField_lt w hi lo)]

/-- Two words that agree on a range still do when one takes a field of the other. -/
theorem wordField_put_agree {v w : Word} {top bot : Nat} (agree : wordField v top bot = wordField w top bot) {hi lo : Nat} (h : lo ≤ hi)
    (h64 : hi < 64) : wordField (wordPut v hi lo (wordField w hi lo)) top bot = wordField w top bot := by
  have bit : ∀ i, (wordField v top bot).testBit i = (wordField w top bot).testBit i := fun i => by rw [agree]
  refine Nat.eq_of_testBit_eq (fun i => ?_)
  have e := bit i
  simp only [wordField, Laws.bits_testBit] at e ⊢
  rw [Laws.wordPut_toNat _ _ _ _ h h64, Laws.putBits_testBit _ _ _ _ _ h, Laws.bits_testBit]
  split
  · rename_i inside
    have hb : bot + i - lo < hi + 1 - lo := by omega
    rw [decide_eq_true hb, Bool.true_and, Nat.add_sub_cancel' inside.1]
  · exact e

/-- A field of a range of bits, read from the range. -/
theorem wordField_of_range (w : Word) {top bot hi lo : Nat} (h : lo ≤ hi) (hb : bot ≤ lo) (ht : hi ≤ top) (h64 : top < 64) :
    wordField (BitVec.ofNat 64 (wordField w top bot)) (hi - bot) (lo - bot) = wordField w hi lo := by
  have small : wordField w top bot < 2 ^ 64 := Nat.lt_of_lt_of_le (wordField_lt w top bot) (Nat.pow_le_pow_right (by omega) (by omega))
  refine Nat.eq_of_testBit_eq (fun i => ?_)
  rw [wordField, BitVec.toNat_ofNat, Nat.mod_eq_of_lt small]
  simp only [wordField, Laws.bits_testBit]
  by_cases inside : i < hi + 1 - lo
  · have e1 : i < hi - bot + 1 - (lo - bot) := by omega
    have e2 : lo - bot + i < top + 1 - bot := by omega
    have e3 : bot + (lo - bot + i) = lo + i := by omega
    simp [inside, e1, e2, e3]
  · have e1 : ¬ i < hi - bot + 1 - (lo - bot) := by omega
    simp [inside, e1]

/-! ### The fields of a register array -/

/-- The bits of a field lie in order within the word. -/
def Fits (f : FieldSpec) : Prop := f.lo ≤ f.hi ∧ f.hi < 64
/-- Two fields share no bit. -/
def Apart (f g : FieldSpec) : Prop := f.hi < g.lo ∨ g.hi < f.lo
/-- The fields of a table: each fits the word, and no two share a bit. -/
def FieldsOk (fs : List FieldSpec) : Prop := (∀ f ∈ fs, Fits f) ∧ fs.Pairwise Apart

theorem Apart.symm {f g : FieldSpec} (h : Apart f g) : Apart g f := Or.symm h

theorem FieldsOk.fits {fs : List FieldSpec} (ok : FieldsOk fs) {f : FieldSpec} (h : f ∈ fs) : f.lo ≤ f.hi ∧ f.hi < 64 := ok.1 f h

/-- The tables of the spec give every register fields that fit and share no bit. -/
theorem regMap_fieldsOk : ∀ r ∈ regMap, FieldsOk r.fields := by
  unfold FieldsOk Fits Apart
  decide +kernel

/-- No W1C field lies in both halves of its register. -/
theorem regMap_w1c_half : ∀ r ∈ regMap, ∀ f ∈ r.fields, f.acc = .w1c → f.hi < 32 ∨ 32 ≤ f.lo := by
  decide +kernel

theorem regAt_mem {a : Nat} {r : RegArr} (h : regAt a = some r) : r ∈ regMap := List.mem_of_find?_eq_some h

/-! ### Words made field by field -/

/-- An update that acts on each field alone: it leaves the bits apart from the field, and what it puts there hangs on nothing else. -/
def FieldLocal (upd : Word → FieldSpec → Word) : Prop :=
  ∀ f : FieldSpec, f.lo ≤ f.hi → f.hi < 64 → ∀ v : Word,
    (∀ hi lo, hi < f.lo ∨ f.hi < lo → wordField (upd v f) hi lo = wordField v hi lo) ∧
    ∀ v' : Word, wordField v' f.hi f.lo = wordField v f.hi f.lo → wordField (upd v' f) f.hi f.lo = wordField (upd v f) f.hi f.lo

/-- Putting a value of the field alone, where a test of the field alone asks for it. -/
theorem fieldLocal_put (test : FieldSpec → Prop) [DecidablePred test] (val : FieldSpec → Nat) :
    FieldLocal (fun v f => if test f then wordPut v f.hi f.lo (val f) else v) := by
  intro f h h64 v
  dsimp only
  split
  · refine ⟨fun hi lo d => Laws.wordField_put_other _ _ _ _ _ _ h h64 d, fun v' _ => ?_⟩
    rw [Laws.wordField_put_same _ _ _ _ h h64, Laws.wordField_put_same _ _ _ _ h h64]
  · exact ⟨fun _ _ _ => rfl, fun _ e => e⟩

section
variable {fs : List FieldSpec} {upd : Word → FieldSpec → Word}

/-- Bits apart from every field stay. -/
theorem foldl_apart (alone : FieldLocal upd) (ok : ∀ f ∈ fs, f.lo ≤ f.hi ∧ f.hi < 64) {hi lo : Nat} (d : ∀ f ∈ fs, hi < f.lo ∨ f.hi < lo) :
    ∀ w : Word, wordField (fs.foldl upd w) hi lo = wordField w hi lo := by
  induction fs with
  | nil => exact fun w => rfl
  | cons f fs ih =>
    intro w
    obtain ⟨h, h64⟩ := ok f (by simp)
    rw [List.foldl_cons, ih (fun g m => ok g (by simp [m])) (fun g m => d g (by simp [m])), (alone f h h64 w).1 hi lo (d f (by simp))]

/-- A field of the table reads as its own update leaves it. -/
theorem foldl_field (alone : FieldLocal upd) (ok : FieldsOk fs) {f : FieldSpec} (hf : f ∈ fs) :
    ∀ w : Word, wordField (fs.foldl upd w) f.hi f.lo = wordField (upd w f) f.hi f.lo := by
  induction fs with
  | nil => exact absurd hf (by simp)
  | cons g fs ih =>
    intro w
    obtain ⟨fits, apart⟩ := ok
    obtain ⟨gApart, apart⟩ := List.pairwise_cons.mp apart
    rw [List.foldl_cons]
    rcases List.mem_cons.mp hf with rfl | hf
    · exact foldl_apart alone (fun k m => fits k (by simp [m])) gApart _
    · obtain ⟨h, h64⟩ := fits g (by simp)
      obtain ⟨fh, fh64⟩ := fits f (by simp [hf])
      rw [ih ⟨fun k m => fits k (by simp [m]), apart⟩ hf]
      exact (alone f fh fh64 w).2 _ ((alone g h h64 w).1 _ _ (gApart f hf).symm)

end

/-! ### Accesses of a physical function to its BAR0 (R12, R13) -/

/-- An access of 8 bytes to the register at a, or of 4 bytes to one of its halves. -/
def Covers (a off width : Nat) : Prop := (off, width) = (a, 8) ∨ (off, width) = (a, 4) ∨ (off, width) = (a + 4, 4)

/-- Where such an access lies: it is within the contract, its register is at a, and it covers bits [hi:lo]. -/
theorem Covers.lies {a off width : Nat} (h : Covers a off width) (aligned : a % 8 = 0) :
    inContract off width = true ∧ off - off % 8 = a ∧ off ≤ a + 4 ∧
    ((off = a ∧ width = 8 ∧ loBit off = 0 ∧ hiBit off width = 63) ∨ (off = a ∧ width = 4 ∧ loBit off = 0 ∧ hiBit off width = 31) ∨
      (off = a + 4 ∧ width = 4 ∧ loBit off = 32 ∧ hiBit off width = 63)) := by
  have e4 : (a + 4) % 8 = 4 := by omega
  have c4 : a % 4 = 0 := by omega
  rcases h with h | h | h <;> obtain ⟨rfl, rfl⟩ := Prod.mk.inj h <;> simp [inContract, loBit, hiBit, aligned, e4, c4]

/-- Registers of the provider's BAR0 lie below 256 MiB (R12). -/
theorem pfSpot_reg_lt {x a : Nat} (h : pfSpot x = .reg a) : x < 2 ^ 28 := by
  refine Nat.lt_of_not_le (fun hx => ?_)
  rw [pfSpot, if_pos (by omega)] at h
  cases h

/-- An access by a PF to a register lands there. -/
theorem Covers.lands {a off width : Nat} (h : Covers a off width) (m : Mach) (aligned : a % 8 = 0) (spot : pfSpot a = .reg a) :
    inContract off width = true ∧ ¬ bar4 ≤ off ∧ m.spotOf 0 off = .reg a := by
  obtain ⟨inC, at_, le, -⟩ := h.lies aligned
  have := pfSpot_reg_lt spot
  exact ⟨inC, by unfold bar4; omega, by rw [Mach.spotOf, if_pos rfl, at_, spot]⟩

theorem viewer_pf (m : Mach) (port : PortId) : m.viewer port (0 : FnId) = some 0 := rfl

/-! ### Register reads (R14, R16, R17) -/

section
variable {r : RegArr} (ok : FieldsOk r.fields) {f : FieldSpec} (hf : f ∈ r.fields)
include ok hf

/-- A read shows every field that is not WO. -/
theorem field_shown (w : Word) : wordField (r.shown w) f.hi f.lo = if f.acc = .wo then 0 else wordField w f.hi f.lo := by
  obtain ⟨h, h64⟩ := ok.fits hf
  have alone : FieldLocal (fun v f => if f.acc = .wo then v else wordPut v f.hi f.lo (wordField w f.hi f.lo)) := by
    simpa only [ite_not] using fieldLocal_put (fun f => ¬ f.acc = .wo) (fun f => wordField w f.hi f.lo)
  rw [RegArr.shown, foldl_field alone ok hf]
  split
  · simp [wordField, Laws.bits_eq]
  · exact wordField_put_field _ _ h h64

/-- A read shows an RC counter without the increments of the present tick. -/
theorem field_tickShown (was w : Word) :
    wordField (r.tickShown was w) f.hi f.lo = if f.acc = .rc ∧ r.counts f = true then f.shown was w else wordField w f.hi f.lo := by
  obtain ⟨h, h64⟩ := ok.fits hf
  rw [RegArr.tickShown, foldl_field (fieldLocal_put (fun f => f.acc = .rc ∧ r.counts f = true) (fun f => f.shown was w)) ok hf]
  split
  · rw [Laws.wordField_put_same _ _ _ _ h h64, Nat.mod_eq_of_lt]
    exact Nat.lt_of_le_of_lt (Nat.min_le_right _ _) (wordField_lt _ _ _)
  · rfl

/-- A read clears the RC fields that it wholly covers. -/
theorem field_cleared (was w : Word) (moved : Nat → Nat) (hi lo : Nat) :
    wordField (r.cleared was w moved hi lo) f.hi f.lo =
      if f.acc = .rc ∧ lo ≤ f.lo ∧ f.hi ≤ hi then (if r.counts f then f.left was w (moved f.lo) else rcAfter r w) % 2 ^ (f.hi + 1 - f.lo)
      else wordField w f.hi f.lo := by
  obtain ⟨h, h64⟩ := ok.fits hf
  rw [RegArr.cleared, foldl_field (fieldLocal_put (fun f => f.acc = .rc ∧ lo ≤ f.lo ∧ f.hi ≤ hi)
    (fun f => if r.counts f then f.left was w (moved f.lo) else rcAfter r w)) ok hf]
  split
  · exact Laws.wordField_put_same _ _ _ _ h h64
  · rfl

end

/-- What is left of a counter fits it. -/
theorem left_lt (f : FieldSpec) (was w : Word) (n : Nat) : f.left was w n < 2 ^ (f.hi + 1 - f.lo) := by
  have top := Nat.two_pow_pos (f.hi + 1 - f.lo)
  have cur := wordField_lt w f.hi f.lo
  unfold FieldSpec.left
  split <;> omega

/-- A register that is neither GRT_NOW nor a SPACE window reads as its fields are shown. -/
theorem regRead_eq {m : Mach} {a : Nat} {r : RegArr} (hr : regAt a = some r) (now : a ≠ R.GRT_NOW_TIME.addr []) (space : spaceEight a = false) :
    m.regRead a = r.tickShown (Regs.word m.tickRegs a) (r.shown (Regs.word m.regs a)) := by
  simp only [Mach.regRead, hr, if_neg now, space, Bool.false_eq_true, if_false]

/-- A read by a PF of a register that answers: the answer leaves, and the RC fields that it covers are cleared. -/
theorem rcRead_reg {s : State} {port : PortId} {a off width : Nat} {r : RegArr} (up : s.m.hostUp = true) (cov : Covers a off width)
    (aligned : a % 8 = 0) (spot : pfSpot a = .reg a) (hr : regAt a = some r) (answers : s.m.answers (.reg a) = true) :
    exec (.rcRead port 0 off width) s = s.withM (Mach.emit
      { s.m with
        regs := Regs.setWord s.m.regs a (r.cleared (Regs.word s.m.tickRegs a) (Regs.word s.m.regs a) (fun b => Tbl.get 0 s.m.moved (a * 64 + b))
          (hiBit off width) (loBit off)),
        tickRegs := Regs.setWord s.m.tickRegs a (r.readOut (Regs.word s.m.tickRegs a) (hiBit off width) (loBit off)) }
      (.readData port 0 off (BitVec.ofNat 64 (wordField (s.m.regRead a) (hiBit off width) (loBit off))))) := by
  obtain ⟨inC, low, sp⟩ := cov.lands s.m aligned spot
  have ro : roForTenant 0 a = false := rfl
  show execRcRead port 0 off width s = _
  simp only [execRcRead, up, viewer_pf, inC, low, sp, Mach.spotRead, answers, Mach.readClear, hr, ro, Bool.not_true, Bool.false_eq_true, if_false,
    reduceCtorEq, or_self]
  rfl

/-- Settles O26, by what the word of a read and the word that it leaves hold in each field. -/
theorem readsThatClear : Obligations.ReadsThatClear := by
  unfold Obligations.ReadsThatClear
  intro s port a off width r up cov aligned spot hr answers now space w was isCount old reads
  have ok := regMap_fieldsOk r (regAt_mem hr)
  have shows : ∀ f ∈ r.fields, reads f (wordField (s.m.regRead a) f.hi f.lo) := by
    intro f hf
    rw [regRead_eq hr now space, field_tickShown ok hf]
    refine ⟨fun wo => ?_, fun count => ?_, fun wo count => ?_⟩
    · rw [if_neg (by simp [wo]), field_shown ok hf, if_pos wo]
    · rw [if_pos count, FieldSpec.shown, field_shown ok hf, if_neg (by simp [count.1])]
    · rw [if_neg count, field_shown ok hf, if_neg wo]
  obtain ⟨-, -, -, lies⟩ := Covers.lies cov aligned
  refine ⟨_, rcRead_reg up cov aligned spot hr answers, _, rfl, rfl, fun b hb => ?_, fun b hb => ?_, fun h8 f hf => ?_, fun hoff f hf hlo => ?_,
    fun f hf hlo hhi => ?_, fun f hf out => ?_⟩
  · exact word_setWord_other _ _ (by simpa using hb)
  · exact word_setWord_other _ _ hb
  · obtain ⟨h, h64⟩ := ok.fits hf
    have e := wordField_of_range (s.m.regRead a) h (Nat.zero_le f.lo) (Nat.le_of_lt_succ h64) (by decide : 63 < 64)
    rcases lies with ⟨-, -, l, u⟩ | ⟨-, h4, -⟩ | ⟨-, h4, -⟩
    · rw [l, u]
      exact e ▸ shows f hf
    · omega
    · omega
  · obtain ⟨h, h64⟩ := ok.fits hf
    have e := wordField_of_range (s.m.regRead a) h hlo (Nat.le_of_lt_succ h64) (by decide : 63 < 64)
    rcases lies with ⟨ha, -⟩ | ⟨ha, -⟩ | ⟨-, -, l, u⟩
    · omega
    · omega
    · rw [l, u, e]
      exact shows f hf
  · have e := field_cleared ok hf was w (fun b => Tbl.get 0 s.m.moved (a * 64 + b)) (hiBit off width) (loBit off)
    refine ⟨fun count => ?_, fun rc count => ?_⟩
    · rw [if_pos ⟨count.1, hlo, hhi⟩, if_pos count.2, Nat.mod_eq_of_lt (left_lt _ _ _ _)] at e
      exact (congrArg (wordField · f.hi f.lo) (word_setWord_same _ _ _)).trans e
    · rw [if_pos ⟨rc, hlo, hhi⟩, if_neg (fun c => count ⟨rc, c⟩)] at e
      exact (congrArg (wordField · f.hi f.lo) (word_setWord_same _ _ _)).trans e
  · have e := field_cleared ok hf was w (fun b => Tbl.get 0 s.m.moved (a * 64 + b)) (hiBit off width) (loBit off)
    have missed : ¬ (f.acc = .rc ∧ loBit off ≤ f.lo ∧ f.hi ≤ hiBit off width) := by
      rintro ⟨rc, hlo, hhi⟩
      rcases out with o | o | o
      · exact o rc
      · omega
      · omega
    rw [if_neg missed] at e
    exact (congrArg (wordField · f.hi f.lo) (word_setWord_same _ _ _)).trans e

/-! ### Register writes (R14, R15) -/

/-- A write by a PF of a register whose block takes writes. -/
theorem registerWrite_reg {s : State} {port : PortId} {a off width data : Nat} (up : s.m.hostUp = true) (cov : Covers a off width)
    (aligned : a % 8 = 0) (spot : pfSpot a = .reg a) (takes : s.m.takes (.reg a) = true) :
    exec (.registerWrite port 0 off width data) s = s.regWrite port 0 a off width (BitVec.ofNat 64 data) := by
  obtain ⟨inC, low, sp⟩ := cov.lands s.m aligned spot
  show execRegisterWrite port 0 off width data s = _
  simp only [execRegisterWrite, up, viewer_pf, inC, low, sp, takes, Bool.not_true, Bool.false_eq_true, if_false, reduceCtorEq]

/-- A write by a PF of a register whose block takes none is discarded. -/
theorem registerWrite_refused {s : State} {port : PortId} {a off width data : Nat} (up : s.m.hostUp = true) (cov : Covers a off width)
    (aligned : a % 8 = 0) (spot : pfSpot a = .reg a) (takes : s.m.takes (.reg a) = false) :
    exec (.registerWrite port 0 off width data) s = .next s := by
  obtain ⟨inC, low, sp⟩ := cov.lands s.m aligned spot
  show execRegisterWrite port 0 off width data s = _
  simp only [execRegisterWrite, up, viewer_pf, inC, low, sp, takes, Bool.not_true, Bool.not_false, Bool.false_eq_true, if_false, if_true, reduceCtorEq]

/-- The data of an 8-byte access stand as they come. -/
theorem placed_whole {off width : Nat} (data : Word) (l : loBit off = 0) (u : hiBit off width = 63) : placed off width data = data := by
  refine BitVec.eq_of_toNat_eq ?_
  rw [← wordField_whole, ← wordField_whole, placed, l, u, Laws.wordField_put_same _ _ _ _ (by decide) (by decide), wordField_whole]
  exact Nat.mod_eq_of_lt (BitVec.isLt _)

/-- What a write makes of a field hangs on the field alone. -/
theorem fieldLocal_written (test : FieldSpec → Bool) (set : FieldSpec → Nat) (w d : Word) :
    FieldLocal (fun v f => if test f then f.written (set f) v w d else v) := by
  intro f h h64 v
  dsimp only
  split
  · unfold FieldSpec.written
    split
    · refine ⟨fun hi lo e => Laws.wordField_put_other _ _ _ _ _ _ h h64 e, fun v' _ => ?_⟩
      rw [wordField_put_field _ _ h h64, wordField_put_field _ _ h h64]
    · refine ⟨fun hi lo e => Laws.wordField_put_other _ _ _ _ _ _ h h64 e, fun v' e => ?_⟩
      rw [Laws.wordField_put_same _ _ _ _ h h64, Laws.wordField_put_same _ _ _ _ h h64, e]
    · exact ⟨fun _ _ _ => rfl, fun _ e => e⟩
  · exact ⟨fun _ _ _ => rfl, fun _ e => e⟩

/-- The word that a write of bits [hi:lo] leaves: the fields that it meets take it. -/
def writtenWord (r : RegArr) (set : FieldSpec → Nat) (hi lo : Nat) (old w d : Word) : Word :=
  r.fields.foldl (fun v f => if f.meets hi lo then f.written (set f) v w d else v) old

/-- A write of a register with no action of its own that every RW field accepts changes the register's word alone. -/
theorem fieldsWrite_eq {m : Mach} {a : Nat} {r : RegArr} {ix : List Nat} {hi lo : Nat} {w d : Word}
    (own : ∀ f ∈ r.fields, ownAction r f.lo = false)
    (base : r.base ∉ [R.PRT_PWRCAP_CAP_W.base, R.GZT_PQUOTA_ENTRY_BASE.base, R.GZT_PKV_BASE.base, R.GZT_PPLIST_BASE.base, R.GZT_ATLAS_DESC_WORD.base])
    (rings : r.base = R.HTC_CRCFG_PAGES.base → ∀ p h : Nat, (m.hatch p h).holding = [])
    (gates : ∀ f ∈ r.fields, f.acc = .rw → m.gate false a r ix f.lo w = true) :
    m.fieldsWrite false a r ix hi lo w d =
      { m with regs := Regs.setWord m.regs a (writtenWord r (fun f => Tbl.get 0 m.moved (a * 64 + f.lo)) hi lo (Regs.word m.regs a) w d) } := by
  simp only [List.mem_cons, List.not_mem_nil, or_false, not_or] at base
  obtain ⟨cap, quota, kv, plist, desc⟩ := base
  have keep : keepVersion r ix (Regs.word m.regs a) w = w := by simp [keepVersion, RegArr.isOf, desc]
  have mine : r.fields.filter (fun f => f.meets hi lo && !ownAction r f.lo) = r.fields.filter (fun f => f.meets hi lo) :=
    List.filter_congr (fun f hf => by rw [own f hf, Bool.not_false, Bool.and_true])
  have ok : ∀ f ∈ r.fields, (f.acc != .rw || m.gate false a r ix f.lo w) = true := by
    intro f hf
    by_cases h : f.acc = .rw
    · rw [gates f hf h, Bool.or_true]
    · simp [h]
  have okAll : (r.fields.filter (fun f => f.meets hi lo)).filter (fun f => f.acc != .rw || m.gate false a r ix f.lo w) =
      r.fields.filter (fun f => f.meets hi lo) := List.filter_eq_self.mpr (fun f hf => ok f ((List.mem_filter.mp hf).1))
  have all : (r.fields.filter (fun f => f.meets hi lo)).all (fun f => f.acc != .rw || m.gate false a r ix f.lo w) = true :=
    List.all_eq_true.mpr (fun f hf => ok f ((List.mem_filter.mp hf).1))
  have after : ∀ g : Regs, Mach.afterWrite { m with regs := g } r ix = { m with regs := g } := by
    intro g
    have clk : ¬ r.base = R.PRT_PWRCAP_CLK_MHZ.base := cap
    simp only [Mach.afterWrite, RegArr.isOf, RegArr.isAny, List.any_cons, List.any_nil, beq_iff_eq, clk, quota, kv, plist, Bool.or_false, Bool.or_eq_true,
      or_self, if_false]
    split
    · rename_i hring
      rw [Mach.ringDrain]
      have none : (Mach.hatch { m with regs := g } (ix.getD 0 0) (ix.getD 1 0)).holding = [] := rings hring _ _
      rw [none]
    · rfl
  simp only [Mach.fieldsWrite, keep, mine, okAll, all, if_true, after, List.foldl_filter, writtenWord]

section
variable {r : RegArr} {set : FieldSpec → Nat} {hi lo : Nat} {old w d : Word} (ok : FieldsOk r.fields) {f : FieldSpec} (hf : f ∈ r.fields)
include ok hf

theorem field_writtenWord : wordField (writtenWord r set hi lo old w d) f.hi f.lo =
    wordField (if f.meets hi lo then f.written (set f) old w d else old) f.hi f.lo :=
  foldl_field (fieldLocal_written (fun f => f.meets hi lo) set w d) ok hf old

/-- An RW field takes the data; one that the access does not meet stands in the merged word as it stood. -/
theorem field_written_rw (h : f.acc = .rw) (outside : f.meets hi lo = false → wordField w f.hi f.lo = wordField old f.hi f.lo) :
    wordField (writtenWord r set hi lo old w d) f.hi f.lo = wordField w f.hi f.lo := by
  obtain ⟨fits, f64⟩ := ok.fits hf
  rw [field_writtenWord ok hf]
  split
  · rw [FieldSpec.written, h]
    exact wordField_put_field _ _ fits f64
  · exact (outside (Bool.eq_false_iff.mpr ‹_›)).symm

/-- A W1C field that the access meets loses the bits at which the data hold 1, but for those set in the present tick (R15). -/
theorem field_written_w1c (h : f.acc = .w1c) (m : f.meets hi lo = true) :
    wordField (writtenWord r set hi lo old w d) f.hi f.lo =
      wordField old f.hi f.lo - (wordField old f.hi f.lo &&& wordField d f.hi f.lo) + (wordField old f.hi f.lo &&& wordField d f.hi f.lo &&& set f) := by
  obtain ⟨fits, f64⟩ := ok.fits hf
  rw [field_writtenWord ok hf, if_pos m, FieldSpec.written, h]
  dsimp only
  have hit : wordField old f.hi f.lo &&& wordField d f.hi f.lo ≤ wordField old f.hi f.lo := Nat.and_le_left
  have kept : wordField old f.hi f.lo &&& wordField d f.hi f.lo &&& set f ≤ wordField old f.hi f.lo &&& wordField d f.hi f.lo := Nat.and_le_left
  have lt := wordField_lt old f.hi f.lo
  rw [Laws.wordField_put_same _ _ _ _ fits f64, Nat.mod_eq_of_lt (by omega)]

theorem field_written_other (h : f.acc ≠ .rw) (h' : f.acc ≠ .w1c) :
    wordField (writtenWord r set hi lo old w d) f.hi f.lo = wordField old f.hi f.lo := by
  rw [field_writtenWord ok hf]
  split
  · unfold FieldSpec.written
    split
    · exact absurd ‹_› h
    · exact absurd ‹_› h'
    · rfl
  · rfl

end

/-- A half that the access does not cover stays: an RW field in both halves takes it from the merged word, a W1C field lies in one half. -/
theorem half_writtenWord {r : RegArr} {set : FieldSpec → Nat} {hi lo top bot : Nat} {old w d : Word} (ok : FieldsOk r.fields)
    (w1c : ∀ f ∈ r.fields, f.acc = .w1c → f.meets hi lo = true → f.hi < bot ∨ top < f.lo)
    (merged : wordField w top bot = wordField old top bot) :
    wordField (writtenWord r set hi lo old w d) top bot = wordField old top bot := by
  refine Eq.trans ?_ merged
  refine List.foldlRecOn (motive := fun v => wordField v top bot = wordField w top bot) r.fields _ merged.symm (fun v e f hf => ?_)
  obtain ⟨fits, f64⟩ := ok.fits hf
  split
  · rename_i meets
    unfold FieldSpec.written
    split
    · exact wordField_put_agree e fits f64
    · rename_i acc
      exact (Laws.wordField_put_other _ _ _ _ _ _ fits f64 ((w1c f hf acc meets).symm)).trans e
    · exact e
  · exact e

/-- A write leaves the word of a register that has WO fields only. -/
theorem writtenWord_wo {r : RegArr} {set : FieldSpec → Nat} {hi lo : Nat} {old w d : Word} (wo : ∀ f ∈ r.fields, f.acc = .wo) :
    writtenWord r set hi lo old w d = old := by
  refine List.foldlRecOn (motive := fun v => v = old) r.fields _ rfl (fun v e f hf => ?_)
  rw [FieldSpec.written, wo f hf, ite_self]
  exact e

/-- A write by a PF of a register with no command in it, whose block takes writes: its fields are written. -/
theorem registerWrite_fields {s : State} {port : PortId} {a off width data : Nat} {r : RegArr} (up : s.m.hostUp = true) (cov : Covers a off width)
    (aligned : a % 8 = 0) (spot : pfSpot a = .reg a) (hr : regAt a = some r) (takes : s.m.takes (.reg a) = true)
    (plain : ∀ f ∈ r.fields, f.acc ≠ .wo ∧ ownAction r f.lo = false) :
    exec (.registerWrite port 0 off width data) s = s.withM (s.m.fieldsWrite false a r ((r.at a).getD []) (hiBit off width) (loBit off)
      (mergedWord (Regs.word s.m.regs a) off width (BitVec.ofNat 64 data)) (placed off width (BitVec.ofNat 64 data))) := by
  have none : r.fields.any (fun f => f.meets (hiBit off width) (loBit off) && (f.acc == .wo || ownAction r f.lo)) = false :=
    List.any_eq_false.mpr (fun f hf => by simp [plain f hf])
  rw [registerWrite_reg up cov aligned spot takes]
  simp only [State.regWrite, hr, none, Bool.false_eq_true, if_false]
  rfl

/-- Settles O24, by what the written word holds in each field and in the half that a 4-byte write leaves. -/
theorem registerWritesFollowTheAccessType : Obligations.RegisterWritesFollowTheAccessType := by
  unfold Obligations.RegisterWritesFollowTheAccessType
  intro s port a off width data r up cov aligned spot hr
  refine ⟨?_, fun fatal => ?_⟩
  · intro takes plain base rings w gates
    have ok := regMap_fieldsOk r (regAt_mem hr)
    have half := regMap_w1c_half r (regAt_mem hr)
    have eq := fieldsWrite_eq (hi := hiBit off width) (lo := loBit off) (d := placed off width (BitVec.ofNat 64 data))
      (fun f hf => (plain f hf).2) base rings gates
    obtain ⟨-, -, -, lies⟩ := Covers.lies cov aligned
    have range : loBit off ≤ hiBit off width ∧ hiBit off width < 64 := by omega
    have merged : ∀ hi lo, hi < loBit off ∨ hiBit off width < lo → wordField w hi lo = wordField (Regs.word s.m.regs a) hi lo :=
      fun hi lo d => Laws.wordField_put_other _ _ _ _ _ _ range.1 range.2 d
    have missed : ∀ f : FieldSpec, f.meets (hiBit off width) (loBit off) = false → f.hi < loBit off ∨ hiBit off width < f.lo := by
      intro f hf
      simp only [FieldSpec.meets, decide_eq_false_iff_not] at hf
      omega
    have met : ∀ f : FieldSpec, f.meets (hiBit off width) (loBit off) = true → f.lo ≤ hiBit off width ∧ loBit off ≤ f.hi :=
      fun f hf => of_decide_eq_true hf
    refine ⟨_, (registerWrite_fields up cov aligned spot hr takes plain).trans (congrArg s.withM eq), ⟨rfl, fun b hb => ?_⟩, fun f hf rw_ => ?_,
      fun f hf w1c h8 => ?_, fun f hf acc => ?_, fun h4 hoff => ?_, fun hoff => ?_⟩
    · exact word_setWord_other _ _ (by simpa using hb)
    · exact (congrArg (wordField · f.hi f.lo) (word_setWord_same _ _ _)).trans
        (field_written_rw ok hf rw_ (fun out => merged _ _ (missed f out)))
    · obtain ⟨fits, f64⟩ := ok.fits hf
      rcases lies with ⟨-, -, l, u⟩ | ⟨-, h, -⟩ | ⟨-, h, -⟩
      · have meets : f.meets (hiBit off width) (loBit off) = true := decide_eq_true (by omega)
        have e := field_written_w1c (hi := hiBit off width) (lo := loBit off) (set := fun f => Tbl.get 0 s.m.moved (a * 64 + f.lo))
          (old := Regs.word s.m.regs a) (w := w) (d := placed off width (BitVec.ofNat 64 data)) ok hf w1c meets
        rw [placed_whole _ l u] at e ⊢
        exact (congrArg (wordField · f.hi f.lo) (word_setWord_same _ _ _)).trans e
      · omega
      · omega
    · exact (congrArg (wordField · f.hi f.lo) (word_setWord_same _ _ _)).trans
        (field_written_other ok hf (by rcases acc with e | e <;> simp [e]) (by rcases acc with e | e <;> simp [e]))
    · refine (congrArg (wordField · 63 32) (word_setWord_same _ _ _)).trans (half_writtenWord ok (fun f hf w1c meets => ?_) (merged _ _ (by omega)))
      have := met f meets
      have := half f hf w1c
      omega
    · refine (congrArg (wordField · 31 0) (word_setWord_same _ _ _)).trans (half_writtenWord ok (fun f hf w1c meets => ?_) (merged _ _ (by omega)))
      have := met f meets
      have := half f hf w1c
      omega
  · have stopped : s.m.takes (.reg a) = false := by simp [Mach.takes, Mach.running, fatal]
    exact ⟨s, registerWrite_refused up cov aligned spot stopped, rfl⟩

/-! ### Command registers (R14) -/

/-- A register array whose write is nothing but a command: WO fields alone, one of them at bit 63, and no action beside the command. -/
def CommandArray (r : RegArr) : Prop :=
  (∀ f ∈ r.fields, f.acc = .wo ∧ ownAction r f.lo = false) ∧ (∃ f ∈ r.fields, f.hi = 63) ∧
  r.base ∉ [R.PRT_PWRCAP_CAP_W.base, R.GZT_PQUOTA_ENTRY_BASE.base, R.GZT_PKV_BASE.base, R.GZT_PPLIST_BASE.base, R.GZT_ATLAS_DESC_WORD.base] ∧
  r.base ≠ R.HTC_CRCFG_PAGES.base
/-- The register of a command array at an address, with its indices. -/
def CommandReg (r : RegArr) (a : Nat) (ix : List Nat) : Prop :=
  a % 8 = 0 ∧ pfSpot a = .reg a ∧ regAt a = some r ∧ r.at a = some ix

/-- An 8-byte write by a PF to a command register whose block takes writes runs its command, on a state in which every register reads as before. -/
theorem commandWrite_runs {s : State} {port : PortId} {a data : Nat} {r : RegArr} {ix : List Nat} (up : s.m.hostUp = true) (arr : CommandArray r)
    (reg : CommandReg r a ix) (takes : s.m.takes (.reg a) = true) :
    ∃ (u : State) (w : Word), OnlyRegs [] s u ∧
      exec (.registerWrite port 0 a 8 data) s = RegCmd.run { port := port, viewer := 0, ix := ix, d := BitVec.ofNat 64 data, w := w } r u := by
  obtain ⟨wo, ⟨f, hf, top⟩, base, rings⟩ := arr
  obtain ⟨aligned, spot, hr, hix⟩ := reg
  have lo : loBit a = 0 := by simp [loBit, aligned]
  have hi : hiBit a 8 = 63 := by simp [hiBit, lo]
  have eq := fieldsWrite_eq (m := s.m) (a := a) (ix := ix) (hi := 63) (lo := 0) (w := mergedWord (Regs.word s.m.regs a) a 8 (BitVec.ofNat 64 data))
    (d := BitVec.ofNat 64 data) (fun f hf => (wo f hf).2) base (fun h => absurd h rings) (fun f hf h => absurd ((wo f hf).1.symm.trans h) (by decide))
  rw [writtenWord_wo (fun f hf => (wo f hf).1)] at eq
  have any : r.fields.any (fun f => f.meets 63 0 && (f.acc == .wo || ownAction r f.lo)) = true :=
    List.any_eq_true.mpr ⟨f, hf, by
      have fits := (regMap_fieldsOk r (regAt_mem hr)).fits hf
      simp [FieldSpec.meets, (wo f hf).1]
      omega⟩
  refine ⟨{ s with m := { s.m with regs := Regs.setWord s.m.regs a (Regs.word s.m.regs a) } }, mergedWord (Regs.word s.m.regs a) a 8 (BitVec.ofNat 64 data), ⟨rfl, fun b _ => ?_⟩, ?_⟩
  · by_cases h : b = a
    · rw [h]
      exact word_setWord_same _ _ _
    · exact word_setWord_other _ _ h
  · rw [registerWrite_reg up (.inl rfl) aligned spot takes]
    simp only [State.regWrite, hr, hix, lo, hi, placed_whole _ lo hi, any, if_true, Option.getD_some]
    rw [show ((0 : Nat) != 0) = false from rfl, eq]

/-- The command arrays of nine blocks. -/
def chartCmd : RegArr := ⟨0x100040, [], [⟨63, 60, .wo, 0⟩, ⟨59, 58, .wo, 0⟩, ⟨57, 57, .wo, 0⟩]⟩
def partitionCmd : RegArr := ⟨0x200008, [⟨1, 32, 0x100⟩], [⟨63, 60, .wo, 0⟩]⟩
def conduitCmd : RegArr := ⟨0x701020, [⟨0, 64, 0x80⟩], [⟨63, 60, .wo, 0⟩]⟩
def linkCmd : RegArr := ⟨0xc01008, [⟨0, 10, 0x100⟩], [⟨63, 60, .wo, 0⟩]⟩
def trainingCmd : RegArr := ⟨0xd10008, [⟨1, 32, 0x100⟩], [⟨63, 60, .wo, 0⟩, ⟨59, 58, .wo, 0⟩, ⟨31, 0, .wo, 0⟩]⟩
def traceCmd : RegArr := ⟨0xf00048, [⟨0, 33, 0x200⟩], [⟨63, 60, .wo, 0⟩]⟩
def shutterCmd : RegArr := ⟨0x1000000, [], [⟨63, 60, .wo, 0⟩, ⟨59, 58, .wo, 0⟩, ⟨57, 57, .wo, 0⟩, ⟨55, 32, .wo, 0⟩, ⟨31, 24, .wo, 0⟩, ⟨23, 8, .wo, 0⟩]⟩
def securityCmd : RegArr := ⟨0x1200040, [], [⟨63, 60, .wo, 0⟩, ⟨59, 57, .wo, 0⟩, ⟨55, 48, .wo, 0⟩]⟩
def marginCmd : RegArr := ⟨0xe00, [], [⟨63, 60, .wo, 0⟩, ⟨59, 51, .wo, 0⟩, ⟨50, 49, .wo, 0⟩]⟩

theorem commandArrays : ∀ r ∈ [chartCmd, partitionCmd, conduitCmd, linkCmd, trainingCmd, traceCmd, shutterCmd, securityCmd, marginCmd], CommandArray r := by
  unfold CommandArray
  decide +kernel

theorem commandReg_module : CommandReg chartCmd (R.CFG_CHART_CMD_OP.addr []) [] ∧ CommandReg shutterCmd (R.SHT_CMD_OP.addr []) [] ∧
    CommandReg securityCmd (R.SEC_CMD_OP.addr []) [] ∧ CommandReg marginCmd (R.PRT_MARGIN_CMD_OP.addr []) [] := by
  unfold CommandReg
  decide +kernel
theorem commandReg_partition : ∀ k : Fin 32, CommandReg partitionCmd (R.PTN_PCMD_OP.addr [k.val + 1]) [k.val + 1] ∧
    CommandReg trainingCmd (R.COL_TCMD_OP.addr [k.val + 1]) [k.val + 1] := by
  unfold CommandReg
  decide +kernel
theorem commandReg_conduit : ∀ k : Fin 64, CommandReg conduitCmd (R.LVR_CCMD_OP.addr [k.val]) [k.val] := by
  unfold CommandReg
  decide +kernel
theorem commandReg_link : ∀ k : Fin 10, CommandReg linkCmd (R.MRD_LCMD_OP.addr [k.val]) [k.val] := by
  unfold CommandReg
  decide +kernel
theorem commandReg_trace : ∀ k : Fin 33, CommandReg traceCmd (R.SRV_TCMD_OP.addr [k.val]) [k.val] := by
  unfold CommandReg
  decide +kernel

section
variable {c : RegCmd} (s : State)

theorem run_chartErase (op : c.op = 3) : c.run chartCmd s = execChartErase (Fin.ofNat 4 (c.f 59 58)) s := by
  have e : c.porter chartCmd s = some (execChartErase (Fin.ofNat 4 (c.f 59 58)) s) := by
    rw [RegCmd.porter, if_neg (by decide), if_pos (by decide), op]
    rfl
  rw [RegCmd.run, e]
  rfl

theorem run_marginAbort (op : c.op = 3) : c.run marginCmd s = execMarginAbort s := by
  have e : c.porter marginCmd s = some (execMarginAbort s) := by
    rw [RegCmd.porter, if_pos (by decide), op]
    rfl
  rw [RegCmd.run, e]
  rfl

theorem run_pause (op : c.op = 2) : c.run partitionCmd s = execPause (partId c.i) s := by
  have e : c.partition partitionCmd s = some (execPause (partId c.i) s) := by
    rw [RegCmd.partition, if_pos (by decide), op]
    rfl
  rw [RegCmd.run, e]
  rfl

theorem run_conduitOpen (op : c.op = 1) : c.run conduitCmd s = execConduitOpen (Fin.ofNat 64 c.i) s := by
  have e : c.serving conduitCmd s = some (execConduitOpen (Fin.ofNat 64 c.i) s) := by
    rw [RegCmd.serving, if_neg (by decide), if_neg (by decide), if_neg (by decide), if_neg (by decide), if_pos (by decide), op]
    rfl
  rw [RegCmd.run, e]
  rfl

theorem run_linkEnable (op : c.op = 1) : c.run linkCmd s = execLinkEnable (Fin.ofNat 10 c.i) s := by
  have e : c.fabric linkCmd s = some (execLinkEnable (Fin.ofNat 10 c.i) s) := by
    rw [RegCmd.fabric, if_neg (by decide), if_pos (by decide), op]
    rfl
  rw [RegCmd.run, e]
  rfl

theorem run_trainingStop (op : c.op = 2) : c.run trainingCmd s = execTrainingStop (partId c.i) s := by
  have e : c.fabric trainingCmd s = some (execTrainingStop (partId c.i) s) := by
    rw [RegCmd.fabric, if_neg (by decide), if_neg (by decide), if_pos (by decide), op]
    rfl
  rw [RegCmd.run, e]
  rfl

theorem run_traceArm (op : c.op = 1) : c.run traceCmd s = execTraceArm (Fin.ofNat 33 c.i) s := by
  have e : c.service traceCmd s = some (execTraceArm (Fin.ofNat 33 c.i) s) := by
    rw [RegCmd.service, if_neg (by decide), if_neg (by decide), if_pos (by decide), op]
    rfl
  rw [RegCmd.run, e]
  rfl

theorem run_abortScan (op : c.op = 3) : c.run shutterCmd s = execAbortScan s := by
  have e : c.service shutterCmd s = some (execAbortScan s) := by
    rw [RegCmd.service, if_neg (by decide), if_neg (by decide), if_neg (by decide), if_pos (by decide), op]
    rfl
  rw [RegCmd.run, e]
  rfl

theorem run_newNonce (op : c.op = 1) : c.run securityCmd s = execNewNonce s := by
  have e : c.secure securityCmd s = some (execNewNonce s) := by
    rw [RegCmd.secure, if_pos (by decide), op]
    rfl
  rw [RegCmd.run, e]
  rfl

end

/-- A number as an operand is its remainder. -/
theorem ofNat_mod (n k : Nat) [NeZero k] : Fin.ofNat k (n % k) = Fin.ofNat k n := Fin.ext (Nat.mod_mod n k)

section
variable {c : RegCmd}

/-! OP, and the chart of the ERASE, in the values that the rows write. -/

theorem op_of_one (h : c.d = BitVec.ofNat 64 (2 ^ 60)) : c.op = 1 := by rw [RegCmd.op, h]; decide
theorem op_of_two (h : c.d = BitVec.ofNat 64 (2 * 2 ^ 60)) : c.op = 2 := by rw [RegCmd.op, h]; decide
theorem op_of_three (h : c.d = BitVec.ofNat 64 (3 * 2 ^ 60)) : c.op = 3 := by rw [RegCmd.op, h]; decide
theorem op_of_erase (h : c.d = BitVec.ofNat 64 (3 * 2 ^ 60 + 2 * 2 ^ 58)) : c.op = 3 := by rw [RegCmd.op, h]; decide
theorem chart_of_erase (h : c.d = BitVec.ofNat 64 (3 * 2 ^ 60 + 2 * 2 ^ 58)) : c.f 59 58 = 2 := by rw [RegCmd.f, h]; decide

end

/-- The first index. -/
theorem i_of_ix {c : RegCmd} {k : Nat} (h : c.ix = [k]) : c.i = k := by rw [RegCmd.i, h]; rfl
/-- A partition's index names its operand. -/
theorem partId_mod (n : Nat) : partId (n % 32 + 1) = Fin.ofNat 32 n := ofNat_mod n 32

/-- A write of a command register is the command, where the register's run is. -/
theorem commandWrite_is {s : State} {port : PortId} {a data : Nat} {r : RegArr} {ix : List Nat} {c : Instr} (up : s.m.hostUp = true)
    (arr : CommandArray r) (reg : CommandReg r a ix)
    (runs : ∀ x : RegCmd, x.ix = ix → x.d = BitVec.ofNat 64 data → ∀ u, x.run r u = exec c u)
    (takes : s.m.takes (.reg a) = true) : ∃ u : State, OnlyRegs [] s u ∧ exec (.registerWrite port 0 a 8 data) s = exec c u := by
  obtain ⟨u, w, kept, e⟩ := commandWrite_runs (port := port) (data := data) up arr reg takes
  exact ⟨u, kept, e.trans (runs _ rfl rfl u)⟩

/-- Settles O25, by the run of each command register. -/
theorem commandRegistersActAsTheirRows : Obligations.CommandRegistersActAsTheirRows := by
  unfold Obligations.CommandRegistersActAsTheirRows
  intro s port n up x hx takes
  obtain ⟨chart, shutter, security, margin⟩ := commandReg_module
  have part (k : Nat) := commandReg_partition (Fin.ofNat 32 k)
  have arrays := commandArrays
  simp only [List.forall_mem_cons] at arrays
  obtain ⟨aChart, aPart, aConduit, aLink, aTrain, aTrace, aShutter, aSecurity, aMargin, -⟩ := arrays
  simp only [List.mem_cons, List.not_mem_nil, or_false] at hx
  rcases hx with rfl | rfl | rfl | rfl | rfl | rfl | rfl | rfl | rfl
  · refine commandWrite_is up aChart chart (fun c _ d u => ?_) takes
    rw [run_chartErase u (op_of_erase d), chart_of_erase d]
    rfl
  · refine commandWrite_is up aPart (part n).1 (fun c ix d u => ?_) takes
    rw [run_pause u (op_of_two d), i_of_ix ix]
    exact congrArg (execPause · u) (partId_mod n)
  · refine commandWrite_is up aConduit (commandReg_conduit (Fin.ofNat 64 n)) (fun c ix d u => ?_) takes
    rw [run_conduitOpen u (op_of_one d), i_of_ix ix]
    exact congrArg (execConduitOpen · u) (ofNat_mod n 64)
  · refine commandWrite_is up aLink (commandReg_link (Fin.ofNat 10 n)) (fun c ix d u => ?_) takes
    rw [run_linkEnable u (op_of_one d), i_of_ix ix]
    exact congrArg (execLinkEnable · u) (ofNat_mod n 10)
  · refine commandWrite_is up aTrain (part n).2 (fun c ix d u => ?_) takes
    rw [run_trainingStop u (op_of_two d), i_of_ix ix]
    exact congrArg (execTrainingStop · u) (partId_mod n)
  · refine commandWrite_is up aTrace (commandReg_trace (Fin.ofNat 33 n)) (fun c ix d u => ?_) takes
    rw [run_traceArm u (op_of_one d), i_of_ix ix]
    exact congrArg (execTraceArm · u) (ofNat_mod n 33)
  · exact commandWrite_is up aShutter shutter (fun c _ d u => run_abortScan u (op_of_three d)) takes
  · exact commandWrite_is up aSecurity security (fun c _ d u => run_newNonce u (op_of_one d)) takes
  · exact commandWrite_is up aMargin margin (fun c _ d u => run_marginAbort u (op_of_three d)) takes
end Sys2Proof.Proofs
end

section
/-! SUPPORT. Host traffic outside the contract: counted accesses, poisoned writes and MCTP (O27). -/

namespace Sys2Proof.Proofs
open Sys2Proof.Machine

/-! ### What placing a record of the provider changes (R561, R564, R565, R525) -/

/-- The registers of trace and of the error log: blocks SRV and ERR (R12). -/
def LogAddr (a : Nat) : Prop := (0xF00000 ≤ a ∧ a < 0x1000000) ∨ (0x1100000 ≤ a ∧ a < 0x1200000)

/-- Memory, and every register but those of trace and of the error log, is in m' as in m. -/
def LogFrame (m m' : Mach) : Prop := m'.mem = m.mem ∧ ∀ a, ¬ LogAddr a → Regs.word m'.regs a = Regs.word m.regs a

section
variable {m m' m'' : Mach}

theorem LogFrame.of_eq (mem : m'.mem = m.mem) (regs : m'.regs = m.regs) : LogFrame m m' := ⟨mem, fun _ _ => by rw [regs]⟩

theorem LogFrame.refl (m : Mach) : LogFrame m m := .of_eq rfl rfl

theorem LogFrame.trans (h : LogFrame m m') (g : LogFrame m' m'') : LogFrame m m'' :=
  ⟨g.1.trans h.1, fun a ha => (g.2 a ha).trans (h.2 a ha)⟩

/-- A field of another register reads as before. -/
theorem LogFrame.fld (h : LogFrame m m') {f : Fld} {ix : List Nat} (ha : ¬ LogAddr (f.addr ix)) : m'.fld f ix = m.fld f ix := by
  simp only [Mach.fld, Regs.fld, h.2 _ ha]

theorem word_setFld_other (m : Mach) (f : Fld) (ix : List Nat) (v : Nat) {a : Nat} (h : a ≠ f.addr ix) :
    Regs.word (m.setFld f ix v).regs a = Regs.word m.regs a := word_setWord_other _ _ h

theorem LogFrame.setFld (m : Mach) {f : Fld} {ix : List Nat} (v : Nat) (h : LogAddr (f.addr ix)) : LogFrame m (m.setFld f ix v) :=
  ⟨rfl, fun _ ha => word_setFld_other m f ix v (fun e => ha (e ▸ h))⟩

theorem LogFrame.addSat (m : Mach) {f : Fld} {ix : List Nat} (n : Nat) (h : LogAddr (f.addr ix)) : LogFrame m (m.addSat f ix n) :=
  (LogFrame.setFld m _ h).trans (.of_eq rfl rfl)

theorem LogFrame.raise (m : Mach) {f : Fld} {ix : List Nat} (n : Nat) (h : LogAddr (f.addr ix)) : LogFrame m (m.raise f ix n) :=
  (LogFrame.setFld m _ h).trans (.of_eq rfl rfl)

/-- Steps over a list, each of which keeps the frame. -/
theorem LogFrame.foldl {α : Type} {step : Mach → α → Mach} (l : List α) (h : ∀ m, ∀ x ∈ l, LogFrame m (step m x)) (m : Mach) :
    LogFrame m (l.foldl step m) :=
  List.foldlRecOn (motive := fun x => LogFrame m x) l step (LogFrame.refl m) (fun m' kept x hx => kept.trans (h m' x hx))

theorem words64_length (n : Nat) (bs : List Byte) : (words64 n bs).length = n := by
  induction n generalizing bs with
  | zero => rfl
  | succ n ih => rw [words64, List.length_cons, ih]

/-- The address of word i of a slot of the provider's log. -/
theorem logWord_addr {slot i : Nat} (hs : slot < 1024) (hi : i < 8) : LogAddr (R.ERR_LOG_WORD.addr ([slot] ++ [i])) := by
  have e : R.ERR_LOG_WORD.addr ([slot] ++ [i]) = 0x1100000 + (0x40 * slot + (0x8 * i + 0)) := rfl
  rw [e]
  exact .inr (by omega)

theorem putWords_frame (m : Mach) {slot : Nat} (hs : slot < 1024) (bs : List Byte) : LogFrame m (m.putWords R.ERR_LOG_WORD [slot] bs) := by
  refine LogFrame.foldl _ (fun m p hp => LogFrame.setFld m _ (logWord_addr hs ?_)) m
  have := List.snd_lt_of_mem_zipIdx hp
  rwa [words64_length] at this

/-- ERR_LSTAT lies in the error log. -/
theorem logAddr_stat {f : Fld} (h : f.addr [] = 0x1110000) : LogAddr (f.addr []) := .inr (by omega)

/-- Bytes placed in the provider's log (R564). -/
theorem placeBytes_frame (m : Mach) (sev : Nat) (bs : List Byte) : LogFrame m (m.placeBytes 0 sev bs) := by
  unfold Mach.placeBytes
  simp only [if_true]
  refine LogFrame.trans ?_ (LogFrame.setFld _ _ (logAddr_stat rfl))
  split
  · exact ((putWords_frame m (Nat.mod_lt _ (by decide)) bs).trans (LogFrame.raise _ _ (logAddr_stat rfl))).trans (LogFrame.addSat _ _ (logAddr_stat rfl))
  · exact (putWords_frame m (Nat.mod_lt _ (by decide)) bs).trans (LogFrame.setFld _ _ (logAddr_stat rfl))

theorem traceFire_frame (m : Mach) : LogFrame m (m.traceFire 0) := by
  unfold Mach.traceFire
  split
  · exact ((LogFrame.setFld _ _ (.inl (by decide))).trans (LogFrame.setFld _ _ (.inl (by decide)))).trans (.of_eq rfl rfl)
  · exact LogFrame.refl m

theorem triggerError_frame (m : Mach) (sev : Nat) : LogFrame m (m.triggerError 0 sev) := by
  unfold Mach.triggerError
  split
  · exact traceFire_frame m
  · exact LogFrame.refl m

theorem fireVector_frame (m : Mach) (port fn v : Nat) : LogFrame m (m.fireVector port fn v) := by
  unfold Mach.fireVector
  dsimp only
  split <;> exact .of_eq rfl rfl

theorem pfVector_frame (m : Mach) (v : Nat) : LogFrame m (m.pfVector v) := (fireVector_frame m 0 0 v).trans (fireVector_frame _ 1 0 v)

theorem errs_frame (m : Mach) (e : ErrSt) : LogFrame m { m with errs := e } := .of_eq rfl rfl

/-- The interval count of a record's severity (R519). -/
theorem sevCount_frame (m : Mach) (sev : Nat) :
    LogFrame m (if sev = 1 then m.countFor 0 islPart 4 1 else if sev = 2 then m.countFor 0 islPart 5 1 else m) := by
  split
  · exact .of_eq rfl rfl
  · split
    · exact .of_eq rfl rfl
    · exact LogFrame.refl m

/-- A record in the provider's log, with its vector and its trigger. -/
theorem placeFor_frame (m : Mach) (r : ErrRec) (count addr info0 info1 : Nat) : LogFrame m (m.placeFor 0 r count addr info0 info1) := by
  unfold Mach.placeFor
  simp only [if_true]
  refine LogFrame.trans ?_ (pfVector_frame _ 0)
  refine LogFrame.trans (LogFrame.trans ?_ (triggerError_frame _ r.sev)) (sevCount_frame _ r.sev)
  exact LogFrame.trans (placeBytes_frame m r.sev _) (errs_frame _ _)

/-- A record that is not FATAL and names no partition goes to the provider's log alone (R563). -/
theorem placeCount_frame (m : Mach) {r : ErrRec} (sev : r.sev ≠ 4) (part : r.part = 0) (count : Nat) : LogFrame m (m.placeCount r count) := by
  unfold Mach.placeCount
  simp only [if_neg sev, if_pos part]
  exact placeFor_frame m r _ _ _ _

theorem placeLimited_frame (m : Mach) (key period : Nat) {r : ErrRec} (sev : r.sev ≠ 4) (part : r.part = 0) :
    LogFrame m (m.placeLimited key period r) := by
  unfold Mach.placeLimited
  split
  · split
    · exact .of_eq rfl rfl
    · exact (placeCount_frame m sev part _).trans (.of_eq rfl rfl)
  · exact (placeCount_frame m sev part _).trans (.of_eq rfl rfl)

theorem hostMisuse_frame (m : Mach) (port fn : Nat) : LogFrame m (m.hostMisuse 0 port fn) :=
  (LogFrame.of_eq (m' := m.count 0 (isl 6 port) 2 1) rfl rfl).trans (placeLimited_frame _ _ _ (by decide : sevCorrected ≠ 4) rfl)

end

/-! ### Counted accesses of a physical function (R50, R474) -/

/-- An access of the PF of a port is counted in f, with its offset; the other count g, memory and every other register stay but for the
error log and trace. -/
def Counted (f g : Fld) (port : PortId) (o : Nat) (m m' : Mach) : Prop :=
  m'.fld f [port] = min (m.fld f [port] + 1) 65535 ∧ m'.fld R.PRT_HOSTERR_LAST_OFFSET [port] = o % 2 ^ 32 ∧ m'.fld g [port] = m.fld g [port] ∧
  (∀ a, a ≠ R.PRT_HOSTERR_UNMAPPED.addr [port] → ¬ LogAddr a → Regs.word m'.regs a = Regs.word m.regs a) ∧ m'.mem = m.mem

theorem hostErr_addr (port : PortId) : ¬ LogAddr (R.PRT_HOSTERR_UNMAPPED.addr [port]) := by
  revert port
  unfold LogAddr
  decide

/-- A counter of 16 bits raised by one. -/
theorem fld_addSat_same (m : Mach) {f : Fld} (ok : Laws.FldOk f) (w : f.hi + 1 - f.lo = 16) (ix : List Nat) :
    (m.addSat f ix 1).fld f ix = min (m.fld f ix + 1) 65535 := by
  refine (Laws.fld_setFld_same m f ix _ ok).trans ?_
  rw [w]
  omega

/-- A field beside a counter raised. -/
theorem fld_addSat_bits (m : Mach) {f : Fld} (g : Fld) (ok : Laws.FldOk f) (ix jx : List Nat) (n : Nat) (d : g.hi < f.lo ∨ f.hi < g.lo) :
    (m.addSat f ix n).fld g jx = m.fld g jx := Laws.fld_setFld_bits m f g ix jx _ ok d

/-- The two counts of PRT_HOSTERR: f is raised where g is the other. -/
theorem counted_of {f g : Fld} (hf : f.base = 0xa00 ∧ f.strides = [0x8]) (ok : Laws.FldOk f) (w : f.hi + 1 - f.lo = 16)
    (hg : g.base = 0xa00 ∧ g.strides = [0x8]) (d : g.hi < f.lo ∨ f.hi < g.lo) (low : f.hi < 32 ∧ g.hi < 32) (m : Mach) (port : PortId) (o : Nat) :
    Counted f g port o m (((m.addSat f [port] 1).setFld R.PRT_HOSTERR_LAST_OFFSET [port] o).hostMisuse 0 port 0) := by
  have fa : f.addr [port] = R.PRT_HOSTERR_UNMAPPED.addr [port] := by simp only [Fld.addr, hf]; rfl
  have ga : g.addr [port] = R.PRT_HOSTERR_UNMAPPED.addr [port] := by simp only [Fld.addr, hg]; rfl
  have last : Laws.FldOk R.PRT_HOSTERR_LAST_OFFSET := by unfold Laws.FldOk; decide
  have log := hostErr_addr port
  have frame := hostMisuse_frame ((m.addSat f [port] 1).setFld R.PRT_HOSTERR_LAST_OFFSET [port] o) port 0
  refine ⟨?_, ?_, ?_, fun a ha hlog => ?_, frame.1⟩
  · rw [frame.fld (by rwa [fa]), Laws.fld_setFld_bits _ _ _ _ _ _ last (.inl low.1), fld_addSat_same m ok w]
  · rw [frame.fld (f := R.PRT_HOSTERR_LAST_OFFSET) log, Laws.fld_setFld_same _ _ _ _ last]
    rfl
  · rw [frame.fld (by rwa [ga]), Laws.fld_setFld_bits _ _ _ _ _ _ last (.inl low.2), fld_addSat_bits m g ok _ _ _ d]
  · rw [frame.2 a hlog]
    refine (word_setFld_other _ R.PRT_HOSTERR_LAST_OFFSET _ _ ha).trans ?_
    exact word_setFld_other m f [port] _ (by rwa [fa])

theorem hostCount_bad (m : Mach) (port : PortId) (o : Nat) :
    Counted R.PRT_HOSTERR_BADACCESS R.PRT_HOSTERR_UNMAPPED port o m (m.hostCount port 0 o false) :=
  counted_of ⟨rfl, rfl⟩ (by unfold Laws.FldOk; decide) rfl ⟨rfl, rfl⟩ (by decide) (by decide) m port o

theorem hostCount_unmapped (m : Mach) (port : PortId) (o : Nat) :
    Counted R.PRT_HOSTERR_UNMAPPED R.PRT_HOSTERR_BADACCESS port o m (m.hostCount port 0 o true) :=
  counted_of ⟨rfl, rfl⟩ (by unfold Laws.FldOk; decide) rfl ⟨rfl, rfl⟩ (by decide) (by decide) m port o

/-- What a counted access leaves of a state, as O27 says it. -/
theorem Counted.state {f g : Fld} {port : PortId} {o : Nat} {s t : State} (h : Counted f g port o s.m t.m) (nv : t.nv = s.nv) (ext : t.ext = s.ext) :
    t.m.fld f [port] = min (s.m.fld f [port] + 1) 65535 ∧ t.m.fld R.PRT_HOSTERR_LAST_OFFSET [port] = o % 2 ^ 32 ∧ t.m.fld g [port] = s.m.fld g [port] ∧
    (∀ a, a ≠ R.PRT_HOSTERR_UNMAPPED.addr [port] → a < 0xF00000 ∨ (0x1000000 ≤ a ∧ a < 0x1100000) ∨ 0x1200000 ≤ a →
      Regs.word t.m.regs a = Regs.word s.m.regs a) ∧ MemKept s t ∧ OuterKept s t := by
  obtain ⟨count, last, other, regs, mem⟩ := h
  exact ⟨count, last, other, fun a ha out => regs a ha (by unfold LogAddr; omega), fun k => by rw [mem], nv, ext⟩

/-- A read out of contract leaves its answer last. -/
theorem getLast_emit (m : Mach) (x : Out) : (m.emit x).out.getLast? = some x := List.getLast?_concat

section
variable {s : State} {port : PortId} (up : s.m.hostUp = true)
include up

theorem outOfContract_write (off width : Nat) :
    exec (.outOfContractAccess port 0 off width true) s = s.withM (s.m.hostCount port 0 off false) := by
  show execOutOfContractAccess port 0 off width true s = _
  simp [execOutOfContractAccess, up]

theorem outOfContract_read (off width : Nat) : exec (.outOfContractAccess port 0 off width false) s =
    s.withM ((s.m.hostCount port 0 off false).emit (.readData port 0 off 0xFFFFFFFFFFFFFFFF)) := by
  show execOutOfContractAccess port 0 off width false s = _
  simp [execOutOfContractAccess, up]

theorem registerWrite_outOfContract {off width : Nat} (out : inContract off width = false) (data : Nat) :
    exec (.registerWrite port 0 off width data) s = s.withM (s.m.hostCount port 0 off false) := by
  show execRegisterWrite port 0 off width data s = _
  simp only [execRegisterWrite, up, viewer_pf, out, Bool.not_true, Bool.not_false, Bool.false_eq_true, if_false, if_true]
  rfl

theorem rcRead_outOfContract {off width : Nat} (out : inContract off width = false) : exec (.rcRead port 0 off width) s =
    s.withM ((s.m.hostCount port 0 off false).emit (.readData port 0 off 0xFFFFFFFFFFFFFFFF)) := by
  show execRcRead port 0 off width s = _
  simp only [execRcRead, up, viewer_pf, out, Bool.not_true, Bool.not_false, Bool.false_eq_true, if_false, if_true]
  rfl

/-- A poisoned write by a PF to a register is counted as a bad access (R460). -/
theorem epWrite_reg {o : BitVec 28} {a : Nat} (spot : pfSpot (o.toNat - o.toNat % 8) = .reg a) :
    exec (.epWrite port 0 o) s = s.withM (s.m.hostCount port 0 o.toNat false) := by
  have sp : s.m.spotOf 0 o.toNat = .reg a := spot
  show execEpWrite port 0 o s = _
  simp only [execEpWrite, up, viewer_pf, sp, Bool.not_true, Bool.false_eq_true, if_false]
  rfl

/-- A poisoned write by a PF to an offset that nothing occupies is counted there. -/
theorem epWrite_unmapped {o : BitVec 28} (spot : pfSpot (o.toNat - o.toNat % 8) = .none) :
    exec (.epWrite port 0 o) s = s.withM (s.m.hostCount port 0 o.toNat true) := by
  have sp : s.m.spotOf 0 o.toNat = .none := spot
  show execEpWrite port 0 o s = _
  simp only [execEpWrite, up, viewer_pf, sp, Bool.not_true, Bool.false_eq_true, if_false]
  rfl

/-- A poisoned write to the admission window poisons its slot, unless the slot is sealed (log entry 94). -/
theorem epWrite_window {fn : FnId} {o : BitVec 28} {p k : Nat} (accepts : s.m.accepts = true) (viewer : s.m.viewer port fn = some p)
    (spot : s.m.spotOf p o.toNat = .window 4 k) (free : ∀ e ∈ (s.m.adm p).isSealed, e.1 ≠ k / 64) :
    exec (.epWrite port fn o) s =
      s.withM (s.m.setAdm p { s.m.adm p with poison := insertNat (k / 64) (s.m.adm p).poison }) := by
  have sealed_ : (s.m.adm p).isSealed.any (fun e => e.1 == k / 64) = false := List.any_eq_false.mpr (fun e he => by simp [free e he])
  show execEpWrite port fn o s = _
  simp only [execEpWrite, up, viewer, spot, accepts, sealed_, Bool.not_true, Bool.false_eq_true, if_false]

end

theorem adm_setAdm (m : Mach) (p : Nat) (x : AdmWin) : (m.setAdm p x).adm p = x := Laws.get_set_same AdmWin.init m.gzt.adms p x

/-! ### MCTP (R477, R478) -/

/-- A message leaves in units of 64 bytes, and nothing else changes. -/
theorem mctpSend_eq (m : Mach) (medium : Nat) (bs : List Byte) :
    m.mctpSend medium bs = { m with out := m.out ++ (List.range ((bs.length + 63) / 64)).map (fun i => .mctp medium ((bs.drop (64 * i)).take 64)) } := by
  have emits : ∀ (l : List (List Byte)) (m : Mach), l.foldl (fun m u => m.emit (.mctp medium u)) m = { m with out := m.out ++ l.map (fun u => .mctp medium u) } := by
    intro l
    induction l with
    | nil => intro m; simp
    | cons u l ih => intro m; rw [List.foldl_cons, ih]; simp [Mach.emit]
  rw [Mach.mctpSend, emits, List.map_map]
  rfl

/-- The times of the last second's messages of a medium, this one with them (R478). -/
def mctpTimesWith (m : Mach) (g : McMsg) : List Nat :=
  (Tbl.get [] m.host.mctpTimes g.medium).filter (fun t => decide (m.now < t + second)) ++ [m.now]

/-- The state with those times. -/
def mctpTimed (m : Mach) (g : McMsg) : Mach :=
  { m with host := { m.host with mctpTimes := Tbl.set [] m.host.mctpTimes g.medium (mctpTimesWith m g) } }

section
variable {m : Mach} {g : McMsg} (phase : 3 ≤ m.fld R.PRT_STATUS_PHASE [])
  (few : ((Tbl.get [] m.host.mctpTimes g.medium).filter (fun t => decide (m.now < t + 10 ^ 9))).length < 1000)
include phase few

/-- A message that is served, with no answer to its sender under way, is answered. -/
theorem mctp_served (served : mctpServed g (m.fld R.PRT_STATUS_PHASE [] == phaseReady) = true) (well : g.malformed = false)
    (idle : Tbl.get 0 m.host.mctpBusy (g.medium.val * 256 + g.eid.toNat) ≤ m.now) :
    m.mctp g = Mach.mctpSend (Mach.drew { mctpTimed m g with host := { (mctpTimed m g).host with
      mctpBusy := Tbl.set 0 m.host.mctpBusy (g.medium.val * 256 + g.eid.toNat) (m.now + g.takes.toNat) } }) g.medium
        (Config.mctpAnswer m.freeCtr g.kind.toNat g.bytes) := by
  have ph : ¬ m.fld R.PRT_STATUS_PHASE [] < 3 := by omega
  have n : ¬ 1000 ≤ ((Tbl.get [] m.host.mctpTimes g.medium).filter (fun t => decide (m.now < t + second))).length := Nat.not_le.mpr few
  have busy : ¬ m.now < Tbl.get 0 m.host.mctpBusy (g.medium.val * 256 + g.eid.toNat) := by omega
  simp only [Mach.mctp, ph, n, served, well, busy, Bool.not_true, Bool.false_eq_true, or_self, if_false]
  rfl

/-- A malformed message is counted; an error answer may leave (log entry 37). -/
theorem mctp_malformed (bad : g.malformed = true) : ∃ out, m.mctp g = { (mctpTimed m g).mctpCount g with out := out } := by
  have ph : ¬ m.fld R.PRT_STATUS_PHASE [] < 3 := by omega
  have n : ¬ 1000 ≤ ((Tbl.get [] m.host.mctpTimes g.medium).filter (fun t => decide (m.now < t + second))).length := Nat.not_le.mpr few
  simp only [Mach.mctp, ph, n, bad, true_or, or_true, if_true, if_false]
  split
  · exact ⟨_, mctpSend_eq _ _ _⟩
  · exact ⟨_, rfl⟩

end

/-- The count of a message that is not served: BADACCESS of its medium. -/
theorem mctpCount_fld (m : Mach) (g : McMsg) :
    (m.mctpCount g).fld R.PRT_HOSTERR_BADACCESS [g.medium] = min (m.fld R.PRT_HOSTERR_BADACCESS [g.medium] + 1) 65535 := by
  have bad : Laws.FldOk R.PRT_HOSTERR_BADACCESS := by unfold Laws.FldOk; decide
  have last : Laws.FldOk R.PRT_HOSTERR_LAST_OFFSET := by unfold Laws.FldOk; decide
  unfold Mach.mctpCount
  dsimp only
  split
  · rw [Laws.fld_setFld_bits _ _ _ _ _ _ last (by decide), fld_addSat_same _ bad rfl]
  · exact fld_addSat_same m bad rfl _

/-- Such a count changes no other register. -/
theorem mctpCount_word (m : Mach) (g : McMsg) {a : Nat} (h : a ≠ R.PRT_HOSTERR_BADACCESS.addr [g.medium]) :
    Regs.word (m.mctpCount g).regs a = Regs.word m.regs a := by
  have count : Regs.word (m.addSat R.PRT_HOSTERR_BADACCESS [g.medium] 1).regs a = Regs.word m.regs a := word_setFld_other m _ _ _ h
  unfold Mach.mctpCount
  dsimp only
  split
  · rename_i two
    refine (word_setFld_other _ R.PRT_HOSTERR_LAST_OFFSET [2] _ ?_).trans count
    rwa [two] at h
  · exact count

theorem mctpCount_mem (m : Mach) (g : McMsg) : (m.mctpCount g).mem = m.mem := by
  unfold Mach.mctpCount
  dsimp only
  split <;> rfl

/-! ### The statement -/

/-- Settles O27, by the meaning of each row of host traffic outside the contract. -/
theorem hostTrafficOutsideTheContract : Obligations.HostTrafficOutsideTheContract := by
  unfold Obligations.HostTrafficOutsideTheContract
  intro s port off width fn counted1 counted
  have bad (o : Nat) : counted o { s with m := s.m.hostCount port 0 o false } := (hostCount_bad s.m port o).state rfl rfl
  have badRead (o : Nat) (x : Out) : counted o { s with m := (s.m.hostCount port 0 o false).emit x } := bad o
  have unmapped (o : Nat) : counted1 R.PRT_HOSTERR_UNMAPPED R.PRT_HOSTERR_BADACCESS o { s with m := s.m.hostCount port 0 o true } :=
    (hostCount_unmapped s.m port o).state rfl rfl
  refine ⟨fun up => ⟨?_, ?_, fun out => ⟨fun data => ?_, ?_⟩, fun o => ⟨fun a spot => ?_, fun spot => ?_, fun p k accepts viewer spot free => ?_⟩⟩,
    ⟨_, rfl, rfl⟩, ⟨_, rfl, rfl⟩, fun g phase few => ⟨fun served well idle => ?_, fun malformed => ?_⟩, fun eid phase => ⟨fun h0 hff => ?_, fun h => ?_⟩⟩
  · exact ⟨_, outOfContract_write up off width, bad off⟩
  · exact ⟨_, outOfContract_read up off width, badRead off _, getLast_emit _ _⟩
  · exact ⟨_, registerWrite_outOfContract up out data, bad off⟩
  · exact ⟨_, rcRead_outOfContract up out, badRead off _, getLast_emit _ _⟩
  · exact ⟨_, epWrite_reg up spot, bad _⟩
  · exact ⟨_, epWrite_unmapped up spot, unmapped _⟩
  · exact ⟨_, epWrite_window up accepts viewer spot free, adm_setAdm _ _ _, fun _ => rfl, fun _ => rfl, rfl, rfl⟩
  · refine ⟨_, congrArg s.withM ((mctp_served phase few served well idle).trans (mctpSend_eq _ _ _)), rfl, fun _ => rfl, fun _ => rfl, rfl, rfl⟩
  · obtain ⟨out, e⟩ := mctp_malformed phase few malformed
    exact ⟨_, congrArg s.withM e, mctpCount_fld _ g, fun k => congrArg (readByte · k) (mctpCount_mem _ g), ⟨rfl, rfl⟩,
      fun a ha => mctpCount_word _ g (by simpa using ha)⟩
  · have no : ¬ (eid = 0 ∨ eid = 0xFF ∨ s.m.fld R.PRT_STATUS_PHASE [] < 3) := by
      rintro (h | h | h)
      · exact h0 h
      · exact hff h
      · omega
    exact ⟨_, congrArg s.withM (if_neg no), rfl⟩
  · exact ⟨_, congrArg s.withM (if_pos (h.imp_right .inl)), rfl⟩
end Sys2Proof.Proofs
end

section
/-! SUPPORT. The common maximum of a conversion in mode CURRENT, and the start of a command held for its scale record (O17). -/

namespace Sys2Proof.Proofs
open Sys2Proof.Machine

/-! ### Panes -/

@[simp] theorem pane_setPane_same (m : Mach) (n : Nat) (x : Pane) : (m.setPane n x).pane n = x := Laws.get_set_same Pane.init m.core.panes n x

theorem pane_setPane_other (m : Mach) {n o : Nat} (x : Pane) (h : o ≠ n) : (m.setPane n x).pane o = m.pane o :=
  Laws.get_set_other Pane.init m.core.panes x h

/-- The panes stand in the core part of the state. -/
theorem pane_of_core {m m' : Mach} (h : m'.core = m.core) (n : Nat) : m'.pane n = m.pane n := by rw [Mach.pane, h, Mach.pane]

/-! ### The common maximum (R71, R96) -/

/-- The vector command of a pane waits for its common maximum, nothing holds it back, and its result stays off the routes. -/
structure AwaitsMax (m : Mach) (p : PaneId) (r : Run) : Prop where
  goes : m.core.stopped.contains p.val = false
  clear : m.memTested p r.cmd = false
  run : (m.pane p).vrun = some r
  needs : r.needsMax = true
  offRoute : r.cmd.overRoute = false

/-- The common maximum of two runs, as the reduction gives it. -/
def commonMax (a b : Run) : Nat := toF32 (Fp.max (Fp.max .zero a.localMax) b.localMax)

section
variable {m : Mach} {p : PaneId} {r : Run}

theorem awaiting_vector (run : (m.pane p).vrun = some r) (needs : r.needsMax = true) : m.awaiting (p, .vector) = some r := by
  simp [Mach.awaiting, run, needs]

/-- A vector command off the routes only keeps the maximum, for its completion. -/
theorem giveMax_vector (c : Nat) (run : (m.pane p).vrun = some r) (needs : r.needsMax = true) (offRoute : r.cmd.overRoute = false) :
    m.giveMax c (p, .vector) = m.setPane p { m.pane p with vrun := some { r with amax := some c } } := by
  simp [Mach.giveMax, awaiting_vector run needs, offRoute]

/-- A command that waits for a common maximum is a part of itself: it converts in mode CURRENT. -/
theorem partOf_self_of_needsMax (needs : r.needsMax = true) : r.cmd.partOf r.cmd = true := by
  simp only [Run.needsMax, Bool.and_eq_true] at needs
  simp [QCmd.partOf, needs]

end

section
variable {m : Mach} {p q : PaneId} {a b : Run} (wa : AwaitsMax m p a) (wb : AwaitsMax m q b) (part : b.cmd.partOf a.cmd = true)
  (all : m.partsLeft a [(p, .vector), (q, .vector)] = false)
include wa wb part all

/-- The reduction takes place, on the first pane and then on the second. -/
theorem currentDone_gives : m.currentDone [(p, .vector), (q, .vector)] = (m.giveMax (commonMax a b) (p, .vector)).giveMax (commonMax a b) (q, .vector) := by
  simp [-List.contains_eq_mem, Mach.currentDone, commonMax, awaiting_vector wa.run wa.needs, awaiting_vector wb.run wb.needs,
    wa.goes, wb.goes, wa.clear, wb.clear, partOf_self_of_needsMax wa.needs, part, all]

/-- Each of the two panes keeps the maximum with its own run. -/
theorem currentDone_vector_pair (apart : q.val ≠ p.val) : m.currentDone [(p, .vector), (q, .vector)] =
    (m.setPane p { m.pane p with vrun := some { a with amax := some (commonMax a b) } }).setPane q
      { m.pane q with vrun := some { b with amax := some (commonMax a b) } } := by
  have other (x : Pane) : (m.setPane p x).pane q = m.pane q := pane_setPane_other m x apart
  rw [currentDone_gives wa wb part all, giveMax_vector _ wa.run wa.needs wa.offRoute,
    giveMax_vector _ ((congrArg Pane.vrun (other _)).trans wb.run) wb.needs wb.offRoute, other]

end

/-! ### What observation leaves of the panes (R162, R519 to R525) -/

theorem queueSync_core (m : Mach) (pane : Nat) : (m.queueSync pane).core = m.core := by
  unfold Mach.queueSync
  dsimp only
  split <;> rfl

theorem traceFor_core (m : Mach) (p o pane ty stream layer op : Nat) (rcd : List Byte) :
    (m.traceFor p o pane ty stream layer op rcd).core = m.core := by
  unfold Mach.traceFor
  dsimp only
  split
  · rfl
  · split
    · split <;> rfl
    · split <;> rfl

theorem traceCmd_core (m : Mach) (pane ty : Nat) (q : QCmd) (code : Nat) (poisoned : Bool) :
    (m.traceCmd pane ty q code poisoned).core = m.core := by
  unfold Mach.traceCmd Mach.trace
  dsimp only
  rw [traceFor_core]
  split
  · rfl
  · exact traceFor_core ..

theorem traceFire_core (m : Mach) (o : Nat) : (m.traceFire o).core = m.core := by
  unfold Mach.traceFire
  split <;> rfl

theorem triggerIf_core (m : Mach) (p pane : Nat) (c : Nat → Bool) : (m.triggerIf p pane c).core = m.core := by
  have fires (m : Mach) (o : Nat) : (if m.traceSelected p o pane && c o then m.traceFire o else m).core = m.core := by
    split
    · exact traceFire_core m o
    · rfl
  unfold Mach.triggerIf
  dsimp only
  split
  · exact fires m 0
  · exact (fires _ p).trans (fires m 0)

theorem traceStart_core (m : Mach) (pane : Nat) (q : QCmd) : (m.traceStart pane q).core = m.core := by
  rw [Mach.traceStart, Mach.triggerStart, triggerIf_core, traceCmd_core]

/-! ### The start of the head of a queue (R101, R163) -/

section
variable {m : Mach} {pane : Nat} {e : EngineId} {q : QCmd} {l : List QCmd} (head : (m.pane pane).queue e = q :: l)
include head

/-- What is left in a queue whose head has left it. -/
theorem popHead_queue (consume : Bool) : ((m.popHead pane e consume).pane pane).queue e = l := by
  simp only [Mach.popHead, head, pane_of_core (queueSync_core _ _), pane_setPane_same]
  cases e <;> rfl

theorem headDelayed_cons : m.headDelayed pane e = m.cvtWaits q.part q.cvt q.desc.step := by
  simp only [Mach.headDelayed, head]

theorem headTested_cons : m.headTested pane e = m.memTested pane q := by
  simp [Mach.headTested, head]

end

/-- A head that may start, and that the checks of the matrix engine pass, starts. -/
theorem matrixStart_ok {m v : Mach} {pane : Nat} {q : QCmd} {l : List QCmd} (head : (m.pane pane).queue .matrix = q :: l)
    (rolled : m.cvtWaits q.part q.cvt q.desc.step = false) (clear : m.memTested pane q = false) (starts : m.headOf pane .matrix = .starts q)
    (go : ((m.popHead pane .matrix true).traceStart pane (m.watchFrom q)).mxStart pane (m.watchFrom q) = .ok v) : m.matrixStart pane = v := by
  simp only [Mach.matrixStart, headDelayed_cons head, headTested_cons head, rolled, clear, Mach.startHead, starts, go, Mach.orCut,
    Bool.or_self, Bool.false_eq_true, if_false]

/-- A check that answers a code where it fails has passed where the whole answers. -/
theorem ok_of_check {α : Type} {c : Prop} [Decidable c] {code : Nat} {x : Except Nat α} {v : α} (h : (if c then .error code else x) = .ok v) :
    x = .ok v := by
  split at h
  · exact nomatch h
  · exact h

/-- A matrix command that passes its checks takes the place of the newest in flight, and nothing else changes (R104, R126). -/
theorem mxStart_ok {m v : Mach} {pane : Nat} {q : QCmd} (h : m.mxStart pane q = .ok v) :
    ∃ r, r.cmd = q ∧ v = m.setPane pane { m.pane pane with mrun := some r, mdrain := (m.pane pane).front } := by
  unfold Mach.mxStart at h
  dsimp only at h
  repeat replace h := ok_of_check h
  split at h
  · exact nomatch h
  · exact nomatch h
  · split at h
    · exact nomatch h
    · exact ⟨_, rfl, (Except.ok.inj h).symm⟩

/-! ### A held command (R74, R77) -/

/-- Held still, the head of a queue stays. -/
theorem delayedStart_held {m : Mach} {pane : Nat} {e : EngineId} {q : QCmd} {l : List QCmd} (head : (m.pane pane).queue e = q :: l)
    (held : m.cvtWaits q.part q.cvt q.desc.step = true) : m.delayedStart pane e = m := by
  simp only [Mach.delayedStart, head, headDelayed_cons head, held, Bool.or_true, if_true]

section
variable {m : Mach} {pane : Nat} {q : QCmd} {l : List QCmd} (scaled : cvtScaled q.cvt = true) (mode : cvtScale q.cvt = 0)
  (rolled : m.cvtWaits q.part q.cvt q.desc.step = false)
include scaled mode rolled

/-- Once the record has rolled, a matrix command starts as MATRIX starts it. -/
theorem delayedStart_matrix_rolled (head : (m.pane pane).queue .matrix = q :: l) : m.delayedStart pane .matrix = m.matrixStart pane := by
  simp [Mach.delayedStart, head, headDelayed_cons head, scaled, mode, rolled]

/-- Once the record has rolled, a vector command starts as the row of its VOP starts it. -/
theorem delayedStart_vector_rolled (head : (m.pane pane).queue .vector = q :: l) :
    m.delayedStart pane .vector = m.vectorStart pane (vxOp q.desc.w5) := by
  simp [Mach.delayedStart, head, headDelayed_cons head, scaled, mode, rolled]

/-- A matrix command held until now leaves its queue and occupies its engine. -/
theorem delayedStart_matrix_ok {v : Mach} (head : (m.pane pane).queue .matrix = q :: l) (starts : m.headOf pane .matrix = .starts q)
    (clear : m.memTested pane q = false)
    (go : ((m.popHead pane .matrix true).traceStart pane (m.watchFrom q)).mxStart pane (m.watchFrom q) = .ok v) :
    m.delayedStart pane .matrix = v ∧ (v.pane pane).mq = l ∧ ∃ r, (v.pane pane).mrun = some r ∧ r.cmd = m.watchFrom q := by
  refine ⟨(delayedStart_matrix_rolled scaled mode rolled head).trans (matrixStart_ok head rolled clear starts go), ?_⟩
  obtain ⟨r, cmd, rfl⟩ := mxStart_ok go
  have left : ((m.popHead pane .matrix true).pane pane).mq = l := popHead_queue head true
  rw [pane_setPane_same, pane_of_core (traceStart_core ..)]
  exact ⟨left, r, rfl, cmd⟩

end

/-! ### The statement -/

/-- Settles O17: the maximum reaches the two panes alone, and a command held for its record starts as its own row would start it. -/
theorem scaledConversionsGoOn : Obligations.ScaledConversionsGoOn := by
  unfold Obligations.ScaledConversionsGoOn
  refine fun s => ⟨fun p q a b ne goP goQ runA runB needsA needsB offA offB part all clearA clearB => ?_,
    fun p q l e head scaled mode => ⟨fun held => ?_, fun rolled => ⟨?_, ?_, ?_⟩⟩⟩
  · have apart : q.val ≠ p.val := fun same => ne (Fin.ext same.symm)
    have wa : AwaitsMax s.m p a := ⟨goP, clearA, runA, needsA, offA⟩
    have wb : AwaitsMax s.m q b := ⟨goQ, clearB, runB, needsB, offB⟩
    refine ⟨_, congrArg s.withM (currentDone_vector_pair wa wb part all apart), ?_, ?_, fun _ => rfl, ⟨rfl, rfl⟩, fun _ => rfl, fun o notP notQ => ?_⟩
    · rw [pane_setPane_other _ _ apart.symm, pane_setPane_same]
      rfl
    · rw [pane_setPane_same]
      rfl
    · rw [pane_setPane_other _ _ notQ, pane_setPane_other _ _ notP]
  · exact ⟨s, congrArg s.withM (delayedStart_held head held), rfl⟩
  · rintro rfl
    exact congrArg s.withM (delayedStart_matrix_rolled scaled mode rolled head)
  · rintro rfl add
    exact congrArg s.withM ((delayedStart_vector_rolled scaled mode rolled head).trans (congrArg (s.m.vectorStart p) add))
  · rintro rfl starts clear v go
    obtain ⟨start, occupied⟩ := delayedStart_matrix_ok scaled mode rolled head starts clear go
    exact ⟨_, congrArg s.withM start, occupied⟩

end Sys2Proof.Proofs
end

section
/-! SUPPORT. The sum of a K-group, its joins and its drain (O16). -/

namespace Sys2Proof.Proofs
open Sys2Proof.Machine

/-! ### The K-group adder (R105 to R111) -/

/-- Products that lie within 30 binary places of the largest all stand in the window of the adder. -/
theorem window_full {l : List Fp} (low : ∀ x ∈ l, -100000 ≤ x.expo) (near : ∀ x ∈ l, ∀ y ∈ l, y.expo - 30 ≤ x.expo) :
    l.filter (fun x => decide ((l.map Fp.expo).foldl max (-100000) - 30 ≤ x.expo)) = l := by
  refine List.filter_eq_self.mpr (fun x mem => decide_eq_true ?_)
  have start : -100000 ≤ x.expo + 30 := by
    have := low x mem
    omega
  have each : ∀ n ∈ l.map Fp.expo, n ≤ x.expo + 30 := List.forall_mem_map.mpr fun y memY => by
    have := near x mem y memY
    omega
  have top : (l.map Fp.expo).foldl max (-100000) ≤ x.expo + 30 :=
    List.foldlRecOn (motive := (· ≤ x.expo + 30)) _ max start fun _ below n memN => Int.max_le.mpr ⟨below, each n memN⟩
  omega

/-- A special value is none of finite products. -/
theorem any_special_of_finite {ps : List Fp} (finite : ∀ x ∈ ps, x.finite = true) {y : Fp} (special : y.finite = false) :
    ps.any (fun x => x == y) = false := by
  refine List.any_eq_false.mpr fun x mem same => Bool.false_ne_true ?_
  rw [← special, ← eq_of_beq same]
  exact finite x mem

/-- Finite products within the window are summed exactly, none truncated; a sum of zero is +0 (R107, R111). -/
theorem groupSum_exact {ps : List Fp} (sound : ∀ x ∈ ps, x.finite = true ∧ -100000 ≤ x.expo)
    (near : ∀ x ∈ ps, ∀ y ∈ ps, x.isZero = false → y.isZero = false → y.expo - 30 ≤ x.expo) :
    let e := (ps.filter (fun x => !x.isZero)).foldl Fp.addExact .zero
    groupSum ps = (if e.isZero then .zero else e, 0) := by
  have finite : ∀ x ∈ ps, x.finite = true := fun x mem => (sound x mem).1
  have nonzero : ps.filter (fun x => x.finite && !x.isZero) = ps.filter (fun x => !x.isZero) :=
    List.filter_congr fun x mem => by rw [finite x mem, Bool.true_and]
  have member {x : Fp} (h : x ∈ ps.filter (fun x => !x.isZero)) : x ∈ ps ∧ x.isZero = false := by simpa using h
  have window := window_full (l := ps.filter (fun x => !x.isZero)) (fun x hx => (sound x (member hx).1).2)
    (fun x hx y hy => near x (member hx).1 y (member hy).1 (member hx).2 (member hy).2)
  have noSpecial {y : Fp} : y.finite = false → ps.any (fun x => x == y) = false := any_special_of_finite finite
  simp only [groupSum, nonzero, window, noSpecial (y := .nan) rfl, noSpecial (y := .inf false) rfl, noSpecial (y := .inf true) rfl,
    Nat.sub_self, Bool.false_and, Bool.false_eq_true, if_false]

/-- A NaN product gives NaN (R110). -/
theorem groupSum_nan {ps : List Fp} (mem : Fp.nan ∈ ps) : (groupSum ps).1 = .nan := by
  simp only [groupSum, List.any_beq', List.contains_iff_mem.mpr mem, if_true]

/-- Infinities of both signs give NaN (R110). -/
theorem groupSum_inf_both {ps : List Fp} (neg : Fp.inf true ∈ ps) (pos : Fp.inf false ∈ ps) : (groupSum ps).1 = .nan := by
  simp only [groupSum, List.any_beq', List.contains_iff_mem.mpr neg, List.contains_iff_mem.mpr pos, Bool.and_self, if_true]
  split <;> rfl

/-! ### Joins and the drain (R112 to R114, R124) -/

/-- A native command of one K-group has one pass, and in it one group sum to join. -/
theorem mxElement_single {w : Word} (seed : Word) (e : Nat) (a b : List Fp) (native : mxMode w = 0) (whole : mxSplit w = 0)
    (single : mxG w = 1) (shape : mxShape w ≠ 1) :
    (mxElement w seed e a b).1 =
      (joinAll (mxSround w) seed e (.zero, 0) [(0, (groupSum (((a.zip b).map (fun p => p.1.mulExact p.2)).take 32)).1)]).1 := by
  have count : mxCount w = 1 := by rw [mxCount, if_pos whole, single]
  have first : mxFirst w = 0 := by rw [mxFirst, if_pos whole]
  have passes : mxPasses 0 = [(0, 0)] := rfl
  simp [mxElement, native, count, first, passes, shape]

/-- Settles O16, by the window of the adder, the special products, and the one join of a single group; the drain is its own equation. -/
theorem matrixArithmetic : Obligations.MatrixArithmetic := by
  unfold Obligations.MatrixArithmetic
  refine ⟨fun _ => groupSum_exact, fun _ => groupSum_nan, fun _ => groupSum_inf_both,
    fun w seed e a b native whole single shape nearest => ?_, fun s acc => rfl⟩
  rw [mxElement_single seed e a b native whole single shape, nearest]
  rfl

end Sys2Proof.Proofs
end

section
/-! SUPPORT. A slice of a split-K tile whose reduction slot lies out of reach (O15). -/

namespace Sys2Proof.Proofs
open Sys2Proof.Machine

/-- What MATRIX_DRAIN does is what it leaves of the volatile state. -/
theorem does_matrixDrain {pane : PaneId} {s : State} {P : State → Prop} :
    Does (.matrixDrain pane) s P ↔ P { s with m := s.m.matrixDrained pane } := by
  constructor
  · rintro ⟨t, next, holds⟩
    cases next
    exact holds
  · exact fun holds => ⟨_, rfl, holds⟩

/-- Slice 0 of a tile of two slices of partition 1, without a count record; its reduction slot is the start of Transom. -/
def strandedSlice : QCmd :=
  { desc := { w0 := 0, w1 := 0, w2 := 0, w3 := 0, w4 := 0, w5 := BitVec.ofNat 64 (0xFFFFFF * 2 ^ 40 + 2 ^ 23 + 1), w6 := 0, w7 := 0 },
    src := .core 0 0, part := 1, a := none, b := none, c := some (mkAddr 1 0), d := none, progress := 0, poisoned := false, resumed := false }

/-- The slice computed: 64 × 64 zeros, not yet drained. -/
def strandedRun : Run := Run.fresh strandedSlice 100 (List.replicate 4096 0) 64 false

/-- The slice in flight on pane 0. The table of Transom slices puts the first 4 MiB of the partition's Transom on slice 2^50, whose keys are
those of HBM frame 0, and the channel of that frame has FAILED: what is written there is discarded (R380). -/
def strandedMach : Mach :=
  let m := (Mach.init.setPane 0 { Pane.init with mrun := some strandedRun }).setFld R.MEM_CHAN_STATE [0] 3
  { m with tier := { m.tier with slices := [(4096, 2 ^ 50 + 1)] } }

/-- The slot and the partial of the slice have their keys, one piece each, and no count record nor wire test stands in its way. -/
theorem strandedMach_slot :
    strandedMach.slotKey 1 strandedSlice.slotAddr 0 = some (2 ^ 73) ∧
    strandedMach.segs 1 none true (adPlus strandedSlice.slotAddr (64 + 16384 * mxSlice strandedSlice.desc.w5)) 16384 = some [(2 ^ 73 + 64, 16384)] ∧
    strandedMach.crecKey 1 strandedSlice.desc.w5 = none ∧ strandedMach.memTested 0 strandedSlice = false := by
  decide +kernel

/-- The drain of the slice leaves ARRIVED without its bit: every write to the slot is discarded. -/
theorem strandedMach_arrived : (strandedMach.matrixDrained 0).loadLe (2 ^ 73 + 8) 2 ≠
    strandedMach.loadLe (2 ^ 73 + 8) 2 ||| 2 ^ mxSlice strandedSlice.desc.w5 := by
  decide +kernel

/-- Refutes O15: nothing in the clause of a draining slice keeps its slot within reach, as k + 16 ≤ 2^73 does in the clause of the reduction.
A table of Transom slices that names a slice the module does not have can give the slot a key in a frame of a FAILED channel, and then ARRIVED
does not take the bit of the slice. -/
theorem not_matrixCommandsStartAndDrain : ¬ Obligations.MatrixCommandsStartAndDrain := by
  unfold Obligations.MatrixCommandsStartAndDrain
  intro h
  obtain ⟨slot, partialTile, record, clear⟩ := strandedMach_slot
  obtain ⟨-, drains, -⟩ := h { State.reset with m := strandedMach } 0
  obtain ⟨-, -, -, slice⟩ := drains strandedRun rfl rfl rfl clear
  obtain ⟨arrived, -⟩ := does_matrixDrain.mp (slice (2 ^ 73) (2 ^ 73 + 64) rfl slot partialTile (Or.inr (Nat.le_refl _)) (List.length_replicate ..)
    rfl record (fun some => absurd rfl some) rfl (by decide +kernel))
  dsimp only at arrived
  exact strandedMach_arrived arrived

end Sys2Proof.Proofs
end
